-- ==== Sys2Proof/Word.lean ====
section
/-! DEFINITION. The word types of the BK4824 (spec/00_scope.md R2, R3, R6): bit vectors only where the
manual numbers bits. -/
namespace Sys2Proof

/-- One byte of a host-memory or record image. -/
abbrev Byte := BitVec 8

/-- A 32-bit register word, R444. -/
abbrev Word := BitVec 32

end Sys2Proof
end

