-- ==== Sys2Proof/Machine/Bits.lean ====
section
/-! DEFINITION. Bit fields, byte order, rounding and check codes: the helpers every layout of the manual uses
(spec/00_scope.md R2, R3, R6; spec/13_train_register.md R339; spec/14_host_queue_interface.md R390). -/
namespace Sys2Proof.Machine

/-- Bits `[lo + width - 1 : lo]` of `n` (R2). -/
def bitsOf (n lo width : Nat) : Nat := n / 2 ^ lo % 2 ^ width

/-- Bit `i` of `n`. -/
def bitOf (n i : Nat) : Bool := n / 2 ^ i % 2 == 1

/-- `n` with bits `[lo + width - 1 : lo]` replaced by the low bits of `v`. -/
def putBits (n lo width v : Nat) : Nat :=
  n - bitsOf n lo width * 2 ^ lo + v % 2 ^ width * 2 ^ lo

/-- `n` with bit `i` set to `b`. -/
def putBit (n i : Nat) (b : Bool) : Nat := putBits n i 1 (cond b 1 0)

/-- A field placed at `lo` in a word: `v` cut to `width` bits (R404, a narrower field lies in the low bits). -/
def place (lo width v : Nat) : Nat := v % 2 ^ width * 2 ^ lo

/-- One flag as a number. -/
def flag (b : Bool) : Nat := cond b 1 0

/-- `n` held at `top` (counters that do not wrap). -/
def held (top n : Nat) : Nat := if n ≤ top then n else top

/-- The two's-complement number that the low `w` bits of `n` spell (R6). -/
def signedOf (w n : Nat) : Int :=
  let m := n % 2 ^ w
  if m < 2 ^ (w - 1) then (m : Int) else (m : Int) - (2 ^ w : Nat)

/-- The low `w` bits of a signed number, as R404 sign-extends and R6 codes it. -/
def unsignedOf (w : Nat) (z : Int) : Nat := (z % (2 ^ w : Nat)).toNat

/-- `z` held between `lo` and `hi`. -/
def clampI (lo hi z : Int) : Int := if z < lo then lo else if hi < z then hi else z

/-- Floor of `z / 2^k`: an arithmetic right shift. -/
def asr (z : Int) (k : Nat) : Int := z / (2 ^ k : Nat)

/-- Quotient rounded to the nearest whole number, ties away from zero (R395); 0 for a divisor of 0 is never
reached from a caller. -/
def roundDiv (a b : Int) : Int :=
  if b = 0 then 0
  else
    let n := if b < 0 then -a else a
    let m := if b < 0 then -b else b
    if 0 ≤ n then (2 * n + m) / (2 * m) else -((2 * (-n) + m) / (2 * m))

/-- `roundDiv` on unsigned quantities. -/
def roundDivN (a b : Nat) : Nat := if b = 0 then 0 else (2 * a + b) / (2 * b)

/-- Ceiling of a quotient. -/
def ceilDiv (a b : Nat) : Nat := if b = 0 then 0 else (a + b - 1) / b

/-- `len` little-endian bytes of `n` (R3). -/
def leBytes : Nat → Nat → List Byte
  | _, 0 => []
  | n, len + 1 => BitVec.ofNat 8 n :: leBytes (n / 256) len

/-- The number that little-endian bytes spell (R3). -/
def leNat : List Byte → Nat
  | [] => 0
  | b :: bs => b.toNat + 256 * leNat bs

/-- `len` bytes from offset `off`, absent bytes read as 0. -/
def slice (bs : List Byte) (off len : Nat) : List Byte :=
  let got := (bs.drop off).take len
  got ++ List.replicate (len - got.length) 0

/-- The little-endian number of `len` bytes at offset `off`. -/
def leAt (bs : List Byte) (off len : Nat) : Nat := leNat (slice bs off len)

/-- `n` zero bytes. -/
def zeros (n : Nat) : List Byte := List.replicate n 0

/-- `bs` cut or padded with zero bytes to exactly `n` bytes. -/
def fit (n : Nat) (bs : List Byte) : List Byte := slice bs 0 n

/-! ### Check codes -/

/-- One step of the reflected CRC-32C of R339 over one bit. -/
def crc32Bit (c : Nat) : Nat := if c % 2 = 1 then Nat.xor (c / 2) 0x82F63B78 else c / 2

/-- `crc32Bit`, `k` times. -/
def crc32Bits : Nat → Nat → Nat
  | 0, c => c
  | k + 1, c => crc32Bits k (crc32Bit c)

/-- The running CRC-32C over a byte string. -/
def crc32Run : Nat → List Byte → Nat
  | c, [] => c
  | c, b :: bs => crc32Run (crc32Bits 8 (Nat.xor c b.toNat)) bs

/-- CRC-32C of R339: polynomial 0x1EDC6F41, reflected, initial value and final XOR all ones. -/
def crc32c (bs : List Byte) : Nat := Nat.xor (crc32Run 0xFFFFFFFF bs) 0xFFFFFFFF

/-- One bit of the CRC-8 of R390. -/
def crc8Bit (c : Nat) : Nat :=
  if c / 128 % 2 = 1 then Nat.xor (c * 2 % 256) 0x2F else c * 2 % 256

/-- `crc8Bit`, `k` times. -/
def crc8Bits : Nat → Nat → Nat
  | 0, c => c
  | k + 1, c => crc8Bits k (crc8Bit c)

/-- The running CRC-8 over a byte string. -/
def crc8Run : Nat → List Byte → Nat
  | c, [] => c
  | c, b :: bs => crc8Run (crc8Bits 8 (Nat.xor c b.toNat)) bs

/-- CRC-8 of R390: polynomial 0x2F, initial value 0xFF, no reflection, final XOR 0xFF. -/
def crc8 (bs : List Byte) : Nat := Nat.xor (crc8Run 0xFF bs) 0xFF

/-! ### Fixed-length files of resources -/

/-- The entry of a resource file, any index taken modulo nothing: an index outside the file gives `dflt`. -/
def fileGet {α : Type} {n : Nat} (v : Vector α n) (i : Nat) (dflt : α) : α :=
  if h : i < n then v[i] else dflt

/-- A resource file with entry `i` changed by `f`; an index outside the file changes nothing. -/
def fileMod {α : Type} {n : Nat} (v : Vector α n) (i : Nat) (f : α → α) : Vector α n :=
  if h : i < n then v.set i (f v[i]) else v

/-- Every index below `n`, in order. -/
def indices (n : Nat) : List Nat := List.range n

/-- Apply `f` for every element of a list, in order. -/
def forAll {α σ : Type} (f : α → σ → σ) : List α → σ → σ
  | [], s => s
  | a :: as, s => forAll f as (f a s)

/-- The indices below `n` at which `p` holds. -/
def maskOf (n : Nat) (p : Nat → Bool) : Nat :=
  forAll (fun i acc => if p i then acc + 2 ^ i else acc) (indices n) 0

/-- The indices of the bits set in a mask of `n` bits. -/
def bitsIn (n mask : Nat) : List Nat := (indices n).filter (bitOf mask)

/-- The number of bits set in a mask of `n` bits. -/
def popcount (n mask : Nat) : Nat := (bitsIn n mask).length

end Sys2Proof.Machine
end

