-- ==== Sys2Proof/Syntax.lean ====
section
/-! DEFINITION. The commands of the block and what they carry: the whole of spec/opcode_table.json (spec/15_command_reference.md
Table 15-1 for the host commands, spec/14 Table 14-4 for a descriptor). -/
namespace Sys2Proof.Machine

/-- A command descriptor as the host wrote it (Table 14-4) with the ring it lies in, and what the host buffer it
names holds when the HQI reads it. -/
structure Desc where
  ring   : Fin 4
  resume : Bool
  expert : Bool
  fence  : Bool
  notify : Bool
  tag    : BitVec 16
  cls    : BitVec 8
  index  : BitVec 24
  buffer : BitVec 64
  length : BitVec 32
  params : List Byte
  data   : List Byte
  deriving DecidableEq, Repr

/-- What can wake the device beside the alarm (R267): the level a WAKE_IN input takes, true for high, BUS_SNS,
CHG_DET. -/
inductive WakeSource where
  | wakeIn (i : Fin 4) (high : Bool)
  | busSns
  | chgDet
  deriving DecidableEq, Repr

/-- The host memory read that fails (R361): the next descriptor of a command ring, the buffer of the command that is
fetched next, or the buffer of a staged command, by its fetch number. -/
inductive ReadFailure where
  | descriptor (ring : Fin 4)
  | buffer (opcode : BitVec 8) (c : Desc)
  | staged (fetch : BitVec 32)
  deriving DecidableEq, Repr

/-- The core supplies whose fall stops the core domain (R470). -/
inductive CoreSupply where
  | vcore | vddio | vdda
  deriving DecidableEq, Repr

/-- A core supply falls below its fail level (R470), with `torn` record writes in flight. -/
structure SupplyLoss where
  supply : CoreSupply
  torn   : Fin 9
  deriving DecidableEq, Repr

/-- How BGE0 finds a word. -/
inductive Soundness where
  | sound | single | double
  deriving DecidableEq, Repr

/-- A transfer that stalls (R26): the block it goes to, and whether it carries the reaction of a fault (R318). -/
structure Transfer where
  target   : BitVec 24
  reaction : Bool
  deriving DecidableEq, Repr

/-- The lanes of a sample item: the scheduled lane that is free (R155), and the demand of the second lane of the ROM
loop where it differs (R326). -/
structure ItemLanes where
  free   : Fin 6
  second : Option (BitVec 16)
  deriving DecidableEq, Repr

/-- A reading of a memory word: the event source of its resource, the master of a foreground read, none for BGE0
(R49, R313), and whether the read is a transfer of a fault's reaction (R318). -/
structure WordReading where
  source   : BitVec 8
  reader   : Option (BitVec 8)
  reaction : Bool
  deriving DecidableEq, Repr

/-- How a PMBus transaction ends (R288): its outcome, numbered as R292 numbers it, and whether SDA is held low then. -/
structure BusEnd where
  outcome : Fin 5
  stuck   : Bool
  deriving DecidableEq, Repr

/-- A level of PBbALERT_N (R291). -/
structure AlertLevel where
  bus : Fin 4
  low : Bool
  deriving DecidableEq, Repr

/-- What the host sets in the function's configuration space (spec/14 Table 14-1): the addresses that BAR0 and BAR2 hold,
Max_Payload_Size above 128 bytes, ASPM L1, MSI-X Enable and the Function Mask. -/
structure FunctionSetup where
  bar0         : BitVec 16
  bar2         : BitVec 44
  payload256   : Bool
  aspmL1       : Bool
  msixEnable   : Bool
  functionMask : Bool
  deriving DecidableEq, Repr

/-- The link as it trains: its width, two lanes or one, and what the host then writes to the function's configuration
space, which no row of the table has for itself (log entry 8). -/
structure LinkUp where
  two   : Bool
  setup : FunctionSetup
  deriving DecidableEq, Repr

/-- A host access to BAR0, or to BAR2 (`bar2`), of any width (R363): a write of `bytes` at an offset, or a read of
`more` + 1 bytes. -/
inductive HostAccess where
  | write (bar2 : Bool) (offset : BitVec 20) (bytes : List Byte)
  | read (bar2 : Bool) (offset : BitVec 20) (more : Fin 8)
  deriving DecidableEq, Repr

/-- Why a frame is discarded. -/
inductive BadFrame where
  | length | crc | unknown
  deriving DecidableEq, Repr

/-- How a vote ends: the third result agrees with the lane that ran the item, with the checker, or with neither. -/
inductive Agreement where
  | ran | checker | neither
  deriving DecidableEq, Repr

end Sys2Proof.Machine

/-! ### Commands: one constructor for each row of the opcode table -/

namespace Sys2Proof

/-- The commands of the block: what the host fetches or accesses, frames of the safety port, and events at the pins and
timers of the device. A command that carries a descriptor is that descriptor at its fetch. -/
inductive Instr where
  /-- R396. Command that does nothing and refreshes the host heartbeat when it is fetched. -/
  | nop (c : Machine.Desc)
  /-- R407. Command that freezes a range of State Mirror items at one instant and writes them to the host buffer. -/
  | stateSnapshot (c : Machine.Desc)
  /-- R383. Command that writes all 256 ledger entries to the host buffer in fetch order. -/
  | ledgerQuery (c : Machine.Desc)
  /-- R411. Command that checks the expected generation, asks for MRAM leave and writes the live image into the
  older Rule Book copy. -/
  | rulebookCommit (c : Machine.Desc)
  /-- R87. Command that selects the Service Pattern and sets every catch point's mode from it, asking CORE leave for
  channels entering Express. -/
  | setPattern (c : Machine.Desc)
  /-- R126. Command that configures a stopped group's legs, converters, actuation, sample timing and offsets. -/
  | groupConfigure (c : Machine.Desc)
  /-- R116. Command that sets the VREG target and step, committing at the next sample boundary and again when r
  reaches the target. -/
  | groupTarget (c : Machine.Desc)
  /-- R118. Command that sets a group's current, power and auxiliary limits, target window, limit slew and trim
  bound. -/
  | groupLimits (c : Machine.Desc)
  /-- R121. Command that checks a group's converters and rows and asks leave to start it, or joins a start in
  progress. -/
  | groupEnableOn (c : Machine.Desc)
  /-- R122. Command that starts the soft stop of a group, withdraws a waiting start, or moves a FAULTED group to
  OFF. -/
  | groupEnableOff (c : Machine.Desc)
  /-- R128. Command that designs or loads one regulator's seven coefficient codes at a sample boundary. -/
  | coeffLoad (c : Machine.Desc)
  /-- R145. Command that derives or writes a group's plant model codes, bands and following-error settings. -/
  | modelLoad (c : Machine.Desc)
  /-- R183. Command that sets one leg's polarity, dead times, minimum pulse, park settings and cycle limit. -/
  | legConfigureConfigure (c : Machine.Desc)
  /-- R183. Command that parks a phase, taking its legs to safe levels at once or at their next period start. -/
  | legPark (c : Machine.Desc)
  /-- R183. Command that returns a parked phase to IDLE, or in a running group asks leave and starts it joining. -/
  | legUnpark (c : Machine.Desc)
  /-- R144. Command that clears a phase's LEG_OPEN or SENSE_SUBSTITUTED health while its group is stopped and
  restores its row masks. -/
  | legClearHealth (c : Machine.Desc)
  /-- R190. Command that sets a group's phase shedding thresholds, minimum phases and dwell. -/
  | shedPolicy (c : Machine.Desc)
  /-- R238. Command that derives and writes a branch's scale, limit, fast trip, ramp, thermal and retry fields. -/
  | branchConfigure (c : Machine.Desc)
  /-- R223. Command that asks leave to start a branch, or enters TRIPPED when a hold-off remains. -/
  | branchSwitchOn (c : Machine.Desc)
  /-- R236. Command that turns a branch's gate off and stops its charge pump, keeping any stored hold-off. -/
  | branchSwitchOff (c : Machine.Desc)
  /-- R223. Command that clears the retry count of a TRIPPED or LOCKED branch and retries it once hold-off and
  cooling allow. -/
  | branchRetry (c : Machine.Desc)
  /-- R202. Command that writes a stopped feed's fields and sets its reverse-current catch point and trip row. -/
  | feedConfigure (c : Machine.Desc)
  /-- R203. Command that starts a feed through STARTING, or joins, restarts or enters TRIPPED as Table 7-1 gives. -/
  | feedSwitchOn (c : Machine.Desc)
  /-- R207. Command that turns a feed's gates off, keeping any stored hold-off. -/
  | feedSwitchOff (c : Machine.Desc)
  /-- R215. Command that sets a share set's members, period, gain and trim rate. -/
  | feedShare (c : Machine.Desc)
  /-- R399. Command that writes a stopped string's configuration field list. -/
  | stringConfigure (c : Machine.Desc)
  /-- R243. Command that checks the contactor and asks leave to precharge and connect a string. -/
  | stringConnectOn (c : Machine.Desc)
  /-- R245. Command that opens a string, waiting for low current in CONNECTED or dropping both drives while
  connecting. -/
  | stringConnectOff (c : Machine.Desc)
  /-- R260. Command that sets a string's capacity, state of charge or uncertainty and writes a checkpoint. -/
  | estimatorSet (c : Machine.Desc)
  /-- R265. Command that stops outputs, opens strings, checkpoints, flushes and prepares entry to Stabled or Depot.
  -/
  | enterDepot (c : Machine.Desc)
  /-- R281. Command that writes the Timetable's rail and step registers while it is DOWN. -/
  | timetableLoad (c : Machine.Desc)
  /-- R274. Command that begins, queues or rejects a run up of the Timetable. -/
  | timetableRunUp (c : Machine.Desc)
  /-- R277. Command that begins a run down, reversing a rising step and superseding a queued run up. -/
  | timetableRunDown (c : Machine.Desc)
  /-- R292. Command that carries one SMBus transaction on a PMBus master. -/
  | polTransaction (c : Machine.Desc)
  /-- R294. Command that carries one AVSBus frame on an AVSBus master. -/
  | avsTransaction (c : Machine.Desc)
  /-- R350. Command that writes valid Train Register records from a start sequence to the host buffer. -/
  | recorderRead (c : Machine.Desc)
  /-- R352. Command that returns a fresh 16-byte nonce and makes it the only valid one, or the lockout time left. -/
  | clearNonce (c : Machine.Desc)
  /-- R354. Command that checks the clear tag, asks MRAM leave and erases the ring up to the cut sequence. -/
  | recorderClear (c : Machine.Desc)
  /-- R40. Command that loads the calendar, increments the epoch, rewrites stored deadlines and writes a
  CALENDAR_SET record. -/
  | calendarSet (c : Machine.Desc)
  /-- R79. Command that computes and loads a catch point's threshold code and hysteresis. -/
  | thresholdSet (c : Machine.Desc)
  /-- R86. Command that moves a mask of catch points to a comparator mode, asking CORE leave for channels entering
  Express. -/
  | comparatorMode (c : Machine.Desc)
  /-- R399. Command that returns a fuse row's shadow value and flags. -/
  | fuseRead (c : Machine.Desc)
  /-- R437. Command that checks a row value, asks PROG leave, programs both copies and resolves the row. -/
  | fuseProgram (c : Machine.Desc)
  /-- R431. Command that checks the serial, asks PROG leave and programs a lifecycle marker row. -/
  | lifecycleAdvance (c : Machine.Desc)
  /-- R57. Command that sets the work intervals of BGE0, BGE1 or BGE2. -/
  | bgeConfigureIntervals (c : Machine.Desc)
  /-- R53. Command that asks CORE leave and runs a calibration sweep on BGE1. -/
  | bgeConfigureSweep (c : Machine.Desc)
  /-- R447. Command that disables, writes and re-enables a telemetry stream's word list and period. -/
  | telemetryStream (c : Machine.Desc)
  /-- R335. Expert command that arms fault injection for a window. -/
  | injectArm (c : Machine.Desc)
  /-- R336. Command that performs one fault injection of Table 12-9 and disarms. -/
  | inject (c : Machine.Desc)
  /-- R329. Command that checks consent, self-tests lanes, sweeps SRAM and leaves Single-Line Working or returns
  retired lanes. -/
  | faultResume (c : Machine.Desc)
  /-- R367. Host write of a command ring tail doorbell making descriptors available for fetch. -/
  | dbCqWrite (n : Fin 4) (value : Word)
  /-- R367. Host write of a completion, event or telemetry ring head doorbell freeing slots. -/
  | dbHeadWrite (r : Fin 7) (value : Word)
  /-- R365. Write of HQI_RING_CFG.en from 0 to 1 that resets the ring's indices and lap if its base and size are
  valid. -/
  | hqiRingEnable (r : Fin 11) (value : Word)
  /-- R365. Write of HQI_RING_CFG.en to 0 that stops fetching or discards the ring's entries. -/
  | hqiRingDisable (r : Fin 11) (value : Word)
  /-- R419. Host request of a block reset of a stopped resource through SYS_BLKRST. -/
  | sysBlkrstWrite (blk index : BitVec 8)
  /-- R321. W1C write to IL_FE_CODE.valid that clears and rearms the first-error capture. -/
  | ilFeCodeRearm
  /-- R81. Write of FTA_CP_CFG.en to 1 that settles the threshold and decides the channel's side. -/
  | ftaCpEnable (n : Fin 128) (value : Word)
  /-- R81. Write of FTA_CP_CFG.en to 0 that releases the channel's row with no detection. -/
  | ftaCpDisable (n : Fin 128) (value : Word)
  /-- R440. Write to any BAR0 register without a row of its own, gated by expert_en and applied under the field
  rules. -/
  | bar0Write (off : BitVec 16) (value : Word)
  /-- R363. Access of a wrong width or alignment, or a write to the State Mirror, discarded and counted. -/
  | malformedAccess (access : Machine.HostAccess)
  /-- R406. 4-byte read of the low word of a 64-bit State Mirror item that latches its high word. -/
  | mirrorLowWordRead (word : Fin 0x3FC00)
  /-- R444. Read of TR_SEQ_LO or TR_FLUSHED_LO that latches the upper half for the matching high register. -/
  | trLatchedRead (flushed : Bool)
  /-- R390. Safety port NOP frame. -/
  | spNop (payload : BitVec 20)
  /-- R390. Safety port frame reading the low half of a BAR2 word and latching its high half. -/
  | spReadLo (payload : BitVec 20)
  /-- R390. Safety port frame returning the latched high half of a word. -/
  | spReadHi (payload : BitVec 20)
  /-- R391. Safety port frame refreshing the safety heartbeat, acknowledging a fault and giving resume consent. -/
  | spHeartbeat (payload : BitVec 20)
  /-- R391. Safety port HALT frame reporting SAFETY_HALT and shutting off the Timetable. -/
  | spHalt (payload : BitVec 20)
  /-- R391. Safety port frame reporting SAFETY_SINGLE_LINE and setting sp_hold. -/
  | spEnterSingleLine (payload : BitVec 20)
  /-- R390. Safety port frame returning the Single-Line, hold, silence and SIRQ_N state. -/
  | spStatus (payload : BitVec 20)
  /-- R388. Safety port frame of wrong length, bad CRC or unknown command that is discarded and counted. -/
  | spBadFrame (kind : Machine.BadFrame) (cmd : BitVec 4)
  /-- R384. Assertion of PERST_N that resets the HQI alone and closes open commands. -/
  | perstN
  /-- R384. PCI Express hot reset that resets the HQI alone and closes open commands. -/
  | hotReset
  /-- R384. Loss of the PCIe link, including a PHY supply failure, resetting the HQI alone. -/
  | linkDown
  /-- R358. The PCIe link trains to L0 at a negotiated rate and width. -/
  | linkTrained (rate : Fin 3) (up : Machine.LinkUp)
  /-- R384. Function-level reset that returns the HQI ring state to defaults and closes open commands. -/
  | functionLevelReset
  /-- R360. Entry to D3hot, stopping fetches, ring writes and messages. -/
  | d3hotEntry
  /-- R360. Return to D0, continuing the HQI from its held state. -/
  | d3hotExit
  /-- R361. A host memory read ends in an error completion, timeout or poisoned data. -/
  | dmaError (what : Machine.ReadFailure) (aer : Word)
  /-- R56. Expiry of a telemetry stream's period, reading its State Mirror words for a frame. -/
  | telemetryFrameDue (j : Fin 8)
  /-- R46. A telemetry frame write starts once no completion or event write is waiting, or the frame is dropped. -/
  | telemetryWriteStart (j : Fin 8)
  /-- R376. End of a vector's moderation interval sending one message for the entries written during it. -/
  | msixModerationEnd (vec : Fin 32)
  /-- R416. The core supplies become valid and the core domain runs the start-up sequence. -/
  | corePowerOn
  /-- R454. Assertion of RESET_N for 1 µs or longer, taking every ball to its reset state and restarting the core
  domain. -/
  | resetN (torn : Fin 9)
  /-- R41. VBAK applied after a loss, starting the keep-alive domain with calendar invalid and epoch 0. -/
  | vbakApplied
  /-- R38. VBAK falls below its minimum and the keep-alive domain loses its state. -/
  | vbakLost (torn : Fin 9)
  /-- R470. VCORE, VDDIO or VDDA falls below its fail level and the core domain shuts down. -/
  | coreSupplyFail (loss : Machine.SupplyLoss)
  /-- R471. VGD falls below its fail level while the core runs on. -/
  | vgdFail
  /-- R472. BUS_SNS stays below its warning level for 2 µs, triggering flush and checkpoints. -/
  | powerFailWarning
  /-- R472. BUS_SNS rises above its rearm level for 2 µs, rearming the warning and waking where enabled. -/
  | busSnsRearm
  /-- R267. A wake input, BUS_SNS or CHG_DET wakes the device from Stabled or Depot. -/
  | kaWake (src : Machine.WakeSource)
  /-- R267. Expiry of the Stabled wake alarm of TB_KA_ALARM. -/
  | wakeAlarm
  /-- R265. 1 ms after ENTER_DEPOT completes, the keep-alive domain stores the cause and drives PWR_EN low. -/
  | depotShutdown
  /-- R266. End of the 20 ms low time of PWR_EN, after which a held wake raises it. -/
  | pwrEnHoldEnd
  /-- R436. VPP enters or leaves its programming window, changing vpp_ok and stopping programming. -/
  | vppWindowChange (ok : Bool)
  /-- R33. XREF stops or leaves its tolerance for 2 µs and timing switches to the internal oscillator. -/
  | xrefLost
  /-- R33. XREF has been good for 1 ms and timing switches back at a tick boundary. -/
  | xrefRestored
  /-- R44. X32 makes no edge for 1 ms, making the calendar invalid. -/
  | x32Lost
  /-- R44. X32 has run for 1 s after a loss and x32_ok returns to 1. -/
  | x32Recovered
  /-- R43. End of a 32,768-period X32 measurement setting trim_ppm. -/
  | x32MeasurementDone (count : BitVec 32)
  /-- R43. Expiry of the trim interval adding or dropping one subsecond count of the calendar. -/
  | calTrimStep
  /-- R26. A boundary handshake stays incomplete for 2 µs and is reported as a detection. -/
  | coreStall (master : BitVec 8) (access : Fin 5) (transfer : Machine.Transfer)
  /-- R28. End of a 10 µs window computing each lane's Pace and busy fraction. -/
  | paceWindow (ops ticks : Vector (BitVec 16) 6)
  /-- R31. Aggregate Pace has stayed above the floor for 100 windows and PACE_LOW clears. -/
  | paceLowClear
  /-- R67. A SAR converter delivers a sample result, updating its filter and driving feed evaluation. -/
  | converterResult (n : Fin 48) (codes : List (BitVec 12))
  /-- R105. A group's sample completes and its work item runs errors, compensators, Junction and hand-over. -/
  | groupSampleComplete (g : Fin 16) (lanes : Machine.ItemLanes) (late : Bool)
  /-- R131. A group's plant model item runs on a lane after hand-over and counts residual persistence. -/
  | modelItem (g : Fin 16) (lane : Fin 6)
  /-- R141. A saturated phase's residual stays in band for 1 s and its health returns to GOOD. -/
  | inductorSatCleared (k : Fin 24)
  /-- R146. The following-error timer reaches fe_time and a detection is reported. -/
  | followingError (g : Fin 16)
  /-- R156. A lane re-executes a recorded item and compares its outputs bit for bit. -/
  | checkItem (g : Fin 16) (free : Fin 6) (model differs : Bool)
  /-- R158. A third execution decides a mismatch and gives strikes. -/
  | voteItem (third : Fin 6) (agrees : Machine.Agreement)
  /-- R158. A vote not run within 1 ms is dropped and LANE_VOTE_FAIL reported. -/
  | voteDropped
  /-- R156. A group not checked within four check periods raises SHADOW_LATE. -/
  | shadowLate (g : Fin 16)
  /-- R151. A lane's self-test ends and it becomes spare, scheduled, returns to its state or retires. -/
  | laneSelfTestDone (l : Fin 6) (passed : Bool)
  /-- R164. An escalation step of the overrun policy is taken after an overrun or high load. -/
  | escalationStep
  /-- R167. Low load for step_down undoes the latest escalation step. -/
  | restoringStep
  /-- R111. A non-VREG regulator has won for limit_report ms and the event is raised or cleared. -/
  | groupLimiting (g : Fin 16)
  /-- R121. ss_timeout passes in SOFT_START and the group enters FAULTED. -/
  | softStartTimeout (g : Fin 16)
  /-- R149. A FAULTED group's off-time ends and it restarts automatically or stays FAULTED. -/
  | hiccupOffEnd (g : Fin 16)
  /-- R150. A group has run for hiccup_clear and its hiccup count returns to 0. -/
  | hiccupClear (g : Fin 16)
  /-- R195. Discharge lasts dis_timeout and the legs go to safe levels. -/
  | dischargeTimeout (g : Fin 16)
  /-- R188. Per-phase current stays below shed_thr for the dwell and one phase is shed. -/
  | shedDwellEnd (g : Fin 16)
  /-- R180. DRVFLT stays asserted for park_time on an IDLE leg with park_auto and it parks. -/
  | parkTimeExpiry (k : Fin 24)
  /-- R178. A leg's period start or centre takes new edge codes and applies pending leg changes. -/
  | loadPoint (k : Fin 24) (centre young : Bool)
  /-- R82. A catch point input crosses to the fault side, driving its row and reporting a detection. -/
  | cpCrossToFault (n : Fin 128)
  /-- R84. A fault-side channel's input moves beyond its band and the channel releases its row. -/
  | cpReturnGood (n : Fin 128)
  /-- R83. A threshold converter finishes settling and the channel's side is decided. -/
  | thresholdSettled (n : Fin 128) (beyond : Bool)
  /-- R85. A comparator's bias settles in its new mode and its side is decided. -/
  | modeChangeDone (n : Fin 128) (beyond : Bool)
  /-- R94. A DRVFLT input asserts beyond its filter and drives its trip matrix row. -/
  | drvfltAssert (k : Fin 24)
  /-- R94. A DRVFLT input deasserts beyond its filter and releases its row. -/
  | drvfltDeassert (k : Fin 24)
  /-- R73. The housekeeping converter completes one conversion of its frame; `readback` says that BGE1 spends its
  position on a threshold (R95). -/
  | hkConversion (h : BitVec 16) (readback : Bool)
  /-- R250. A coulomb converter interval ends and the string's charge, uncertainty and display offset update. -/
  | ccResult (j : Fin 4) (x : BitVec 24)
  /-- R53. A calibration sweep completes, or is skipped, and the start-up sequence continues. -/
  | calibrationSweepDone (cal : Vector (BitVec 16 × BitVec 16) 48)
  /-- R36. BGE1 starts measuring a twin delay line at its calibration interval. -/
  | delayLineCal (j : Fin 112)
  /-- R36. A twin line measurement completes and its tap table is loaded for the next swap. -/
  | delayLineMeasured (j : Fin 112) (taps : BitVec 16)
  /-- R37. A delay line uncalibrated for four intervals raises CAL_STALE. -/
  | calStale (j : Fin 112)
  /-- R64. BGE1 updates a converter's offset and gain in its free slots. -/
  | converterCalUpdate (n : Fin 48) (offset gain : BitVec 16)
  /-- R95. BGE1 reads back every threshold and counts mismatches. -/
  | thresholdReadback (codes : List (BitVec 16))
  /-- R49. BGE0 reads a memory word, correcting single errors and reporting double errors. -/
  | bge0ScrubWord (mem : BitVec 8) (word : BitVec 24) (found : Machine.Soundness) (reading : Machine.WordReading)
    (last : Bool)
  /-- R52. BGE0 checks the fuse shadows against their check bits. -/
  | fuseShadowCheck (upsets : List (Fin 64 × BitVec 72))
  /-- R54. BGE2 commits page write counts at its interval. -/
  | wearCommit
  /-- R55. A retired MRAM page's copy completes and the page map switches to the spare. -/
  | pageRetireDone (page : BitVec 8)
  /-- R58. Engine work not completed within four intervals raises BGE_LATE. -/
  | bgeLate (w : Fin 16)
  /-- R206. inrush_timeout passes in INRUSH and the feed trips. -/
  | inrushTimeout (f : Fin 4)
  /-- R211. A TRIPPED feed's hold-off ends and it retries or locks. -/
  | feedHoldoffEnd (f : Fin 4)
  /-- R211. A feed stays ON for retry_clear and its retry count returns to 0. -/
  | feedRetryClear (f : Fin 4)
  /-- R216. No warning condition has held for warn_hold and FWARN is released. -/
  | fwarnRelease (f : Fin 4)
  /-- R214. End of a share period updating the trims of the set's members. -/
  | sharePeriod (j : Fin 2)
  /-- R231. A branch computes its thermal model every Tb and takes pending exits to TRIPPED. -/
  | branchModelStep (n : Fin 24)
  /-- R229. The current-limit amplifier takes a branch gate and the branch enters LIMITING. -/
  | branchLimitEngage (n : Fin 24)
  /-- R229. The amplifier has released the gate for 100 µs and the branch returns to ON. -/
  | branchLimitRelease (n : Fin 24) (through : Bool)
  /-- R224. Gate-source voltage stays below 7 V for 100 µs and the branch trips. -/
  | gateUnderdrive (n : Fin 24)
  /-- R224. lim_time passes in LIMITING and the branch trips. -/
  | limitTimeout (n : Fin 24)
  /-- R224. ramp_timeout passes in RAMP and the branch trips. -/
  | rampTimeout (n : Fin 24)
  /-- R235. A TRIPPED branch's hold-off ends and it retries or locks under its policy. -/
  | branchHoldoffEnd (n : Fin 24)
  /-- R235. A branch stays ON for retry_clear and its retry count returns to 0. -/
  | branchRetryClear (n : Fin 24)
  /-- R222. Millisecond check of a bank's sum converter against its members' currents. -/
  | bankCheck (b : Fin 4)
  /-- R242. Millisecond evaluation of a string's contactor feedback, voltages and charge limit. -/
  | stringEvaluation (j : Fin 4) (low : Bool)
  /-- R244. pre_gap has passed since the last precharge and a waiting connect asks leave. -/
  | preGapEnd (j : Fin 4)
  /-- R243. pre_timeout passes in PRECHARGE and the string faults. -/
  | prechargeTimeout (j : Fin 4)
  /-- R243. close_time passes with KAs open and the string opens. -/
  | contactorNoClose (j : Fin 4)
  /-- R242. pull_in ends and the coil drive changes to its hold duty. -/
  | pullInEnd (j : Fin 4)
  /-- R243. pc_overlap after closing ends and the precharge drive turns off. -/
  | pcOverlapEnd (j : Fin 4)
  /-- R243. V_str stays below cut_v for cut_time and the string opens. -/
  | stringUndervoltage (j : Fin 4)
  /-- R243. open_wait runs out and the contactor opens under load. -/
  | openWaitExpiry (j : Fin 4)
  /-- R243. open_time passes with KAs closed and the string faults. -/
  | contactorWelded (j : Fin 4)
  /-- R248. String current sum stays at or below holdup_i for 1 s. -/
  | holdupEnd
  /-- R253. Full conditions hold for full_time and the string's charge is anchored at C. -/
  | anchorFull (j : Fin 4)
  /-- R254. Empty conditions hold for empty_time, capacity is learned and charge anchored at 0. -/
  | anchorEmpty (j : Fin 4)
  /-- R263. ckpt_period expires and a string checkpoint is written. -/
  | estimatorCheckpoint (j : Fin 4)
  /-- R275. gap_up of a step ends and the step asks leave to start its rails. -/
  | stepGapUpEnd
  /-- R277. gap_down of a step ends and its rails are turned off. -/
  | stepGapDownEnd
  /-- R272. A rail monitor pin holds a new level for pg_filt, making the rail good, off or faulted. -/
  | rmonChange (n : Fin 16) (high : Bool)
  /-- R275. A rail is not good pg_timeout after its start and becomes LATE. -/
  | pgTimeout (n : Fin 16)
  /-- R277. A falling rail reaches off_timeout and counts as OFF with RAIL_SLOW_OFF. -/
  | offTimeout (n : Fin 16)
  /-- R277. dis_time ends and RDIS is released. -/
  | disTimeEnd (n : Fin 16)
  /-- R274. off_min passes in DOWN and a queued run up begins. -/
  | offMinEnd
  /-- R274. halt_min passes in HALTED and, with rails off, the Timetable releases HALT_N and enters DOWN. -/
  | haltMinEnd
  /-- R282. HALT_N falls and stays low 1 µs, halting the Timetable where halt_in is set. -/
  | haltNFall
  /-- R282. HALT_N goes high, letting a waiting device run up. -/
  | haltNRise
  /-- R285. A Bell frame arrives on BELL_IN, executed and relayed or returned to the head. -/
  | bellFrameReceived (cells : BitVec 8)
  /-- R287. A frame does not return to the head within bell_timeout and the head goes on. -/
  | bellLost
  /-- R327. shed_gap expires and the next branch or the rails are shed in Single-Line Working. -/
  | shedGapEnd
  /-- R289. poll_ms expires and STATUS_WORD polls are queued. -/
  | pmbusPollTimer (b : Fin 4)
  /-- R289. tele_ms expires and READ polls are queued. -/
  | pmbusTeleTimer (b : Fin 4)
  /-- R288. A PMBus transaction ends, retried or counted on failure, and the next is served. -/
  | pmbusTransactionDone (b : Fin 4) (finish : Machine.BusEnd) (data : List Byte)
  /-- R291. PBbALERT_N takes a level; while it is low the master reads the Alert Response Address. -/
  | smbalert (level : Machine.AlertLevel)
  /-- R293. An AVSBus frame completes with its status response and CRC check. -/
  | avsFrameDone (a : Fin 2) (ack : Fin 4) (status : Fin 32) (data : BitVec 16) (crcOk : Bool)
  /-- R294. A slave holds SDATA low at idle and the master reads status. -/
  | avsAlert (a : Fin 2)
  /-- R293. 100 ms expires and the master resynchronises the AVSBus. -/
  | avsResyncTimer (a : Fin 2)
  /-- R302. A SURGE amount becomes available after its recovery time. -/
  | surgeRecovered
  /-- R303. A request reaches its rank's wait limit and is given up. -/
  | tokenWaitLimit (slot : Fin 79)
  /-- R296. A held token reaches the end of its duration and returns. -/
  | tokenDurationEnd (slot : Fin 79)
  /-- R322. A fault's settle window closes, writing its record, flushing and posting its event. -/
  | settleWindowClose
  /-- R331. No descriptor is fetched for hb_timeout and the host policy acts. -/
  | hostSilent
  /-- R332. No valid heartbeat frame for sp_timeout and the safety policy acts. -/
  | safetySilent
  /-- R335. The injection arm window runs out and injection disarms. -/
  | injectWindowEnd
  /-- R337. 10 ms after an injection the outcome is fixed and INJECT completes. -/
  | injectObservationEnd
  /-- R347. The periodic checkpoint or early fill triggers a flush that asks MRAM leave. -/
  | trCheckpoint
  /-- R347. A record write to the ring commits and its buffer slot is freed. -/
  | flushWriteDone
  /-- R349. The start-up ring scan ends, setting the write pointer and completing an interrupted clear. -/
  | ringScanDone
  /-- R354. The erase of a clear completes and its CLEAR record is flushed. -/
  | clearEraseDone
  /-- R352. A clear nonce expires after 60 s. -/
  | nonceExpiry
  /-- R356. A recorder clear lockout ends. -/
  | clearLockoutEnd
  /-- R413. 10 s after a given-up rewrite, a Rule Book copy repair is tried again. -/
  | rulebookRewriteRetry
  /-- R438. Programming of both copies of a fuse row ends and the row is resolved into its shadow. -/
  | fuseProgrammingDone (missedA weakA missedB weakB : BitVec 72)
  /-- R370. A fetched descriptor whose opcode is not known completes at once with BAD_PARAM and stages_total 0. -/
  | unknownOpcode (op : BitVec 8) (c : Machine.Desc)
  /-- R454. Deassertion of RESET_N, after which the core domain runs the start-up sequence with fuse sensing and
  uptime from 0. -/
  | resetNRelease
  /-- R461. A rising edge of TCK advances the IEEE 1149.1 test access port, whose reset, IDCODE, EXTEST and HIGHZ
  act on the boundary scan register. -/
  | tapTckEdge (tms tdi : Bool) (pins : BitVec 167)
  /-- R217. The supplying group has had a winner other than VREG, or clamp_hi set, without a break for lim_warn, and
  FWARN asserts at once under condition (c). -/
  | limWarnExpiry (f : Fin 4)
  /-- R159. A lane's strike becomes older than strike_window seconds and is forgotten, lowering
  ELE_LANE_STATUS.strikes. -/
  | strikeForgotten (l : Fin 6)
  deriving DecidableEq, Repr

end Sys2Proof
end

