-- ==== Sys2Proof/Decode.lean ====
section
/-! DEFINITION. The commands that words spell: a host command by the opcode and parameters of a 64-byte descriptor
(spec/14_host_queue_interface.md R369, Table 14-4; spec/15_command_reference.md Tables 15-1 to 15-7), a safety port command
by the 32 bits of a frame (R388 to R390). spec/opcode_table.json gives none of its rows any bits (log entry 7). -/
namespace Sys2Proof

open Sys2Proof.Machine

/-! ### Descriptors (R369) -/

/-- The fields of a descriptor of 64 bytes in command ring `ring`, whose host buffer holds `data`; bits [7:4] of the flags
are reserved (Table 14-4). -/
def descriptorOf (ring : Fin 4) (bytes data : List Byte) : Desc where
  ring := ring
  resume := bitOf (leAt bytes 1 1) 0
  expert := bitOf (leAt bytes 1 1) 1
  fence := bitOf (leAt bytes 1 1) 2
  notify := bitOf (leAt bytes 1 1) 3
  tag := BitVec.ofNat 16 (leAt bytes 2 2)
  index := BitVec.ofNat 24 (leAt bytes 4 3)
  cls := BitVec.ofNat 8 (leAt bytes 7 1)
  buffer := BitVec.ofNat 64 (leAt bytes 8 8)
  length := BitVec.ofNat 32 (leAt bytes 16 4)
  params := slice bytes 20 44
  data := data

/-- The command of an opcode (Table 15-1), and of an opcode with an action byte the row its action names; an action that
names none fails check 7 under any of them. -/
def commandOf (op : Nat) (c : Desc) : Instr :=
  let action := leAt c.params 0 1
  match op with
  | 0x00 => .nop c
  | 0x01 => .stateSnapshot c
  | 0x02 => .ledgerQuery c
  | 0x03 => .rulebookCommit c
  | 0x04 => .setPattern c
  | 0x10 => .groupConfigure c
  | 0x11 => .groupTarget c
  | 0x12 => .groupLimits c
  | 0x13 => if action = 0 then .groupEnableOff c else .groupEnableOn c
  | 0x14 => .coeffLoad c
  | 0x15 => .modelLoad c
  | 0x18 =>
    if action = 1 then .legPark c
    else if action = 2 then .legUnpark c
    else if action = 3 then .legClearHealth c
    else .legConfigureConfigure c
  | 0x19 => .shedPolicy c
  | 0x20 => .branchConfigure c
  | 0x21 => if action = 0 then .branchSwitchOff c else .branchSwitchOn c
  | 0x22 => .branchRetry c
  | 0x30 => .feedConfigure c
  | 0x31 => if action = 0 then .feedSwitchOff c else .feedSwitchOn c
  | 0x32 => .feedShare c
  | 0x40 => .stringConfigure c
  | 0x41 => if action = 0 then .stringConnectOff c else .stringConnectOn c
  | 0x42 => .estimatorSet c
  | 0x43 => .enterDepot c
  | 0x50 => .timetableLoad c
  | 0x51 => if action = 0 then .timetableRunDown c else .timetableRunUp c
  | 0x60 => .polTransaction c
  | 0x61 => .avsTransaction c
  | 0x70 => .recorderRead c
  | 0x71 => .clearNonce c
  | 0x72 => .recorderClear c
  | 0x73 => .calendarSet c
  | 0x80 => .thresholdSet c
  | 0x81 => .comparatorMode c
  | 0x90 => .fuseRead c
  | 0x91 => .fuseProgram c
  | 0x92 => .lifecycleAdvance c
  | 0xA0 => if action = 0 then .bgeConfigureIntervals c else .bgeConfigureSweep c
  | 0xA1 => .telemetryStream c
  | 0xF0 => .injectArm c
  | 0xF1 => .inject c
  | 0xF2 => .faultResume c
  | _ => .unknownOpcode (BitVec.ofNat 8 op) c

/-- The command that a descriptor of 64 bytes spells: byte 0 is its opcode. -/
def decodeDescriptor (ring : Fin 4) (bytes data : List Byte) : Instr :=
  commandOf (leAt bytes 0 1) (descriptorOf ring bytes data)

/-- The 64 bytes of a descriptor with an opcode (Table 14-4). -/
def encodeDescriptor (op : Nat) (c : Desc) : List Byte :=
  leBytes op 1 ++ leBytes (flag c.resume + 2 * flag c.expert + 4 * flag c.fence + 8 * flag c.notify) 1
  ++ leBytes c.tag.toNat 2 ++ leBytes c.index.toNat 3 ++ leBytes c.cls.toNat 1 ++ leBytes c.buffer.toNat 8
  ++ leBytes c.length.toNat 4 ++ fit 44 c.params

/-! ### Frames of the safety port (R388 to R390) -/

/-- The CRC-8 that bits [31:8] of a frame call for, most significant byte first (R390). -/
def frameCrc (w : Nat) : Nat :=
  crc8 [BitVec.ofNat 8 (w / 2 ^ 24), BitVec.ofNat 8 (w / 2 ^ 16), BitVec.ofNat 8 (w / 2 ^ 8)]

/-- The command of a frame of `cycles` SCLK cycles whose last 32 bits are `word` (Tables 14-14 and 14-16): one of another
length, with a failing CRC, or with command 0x7 to 0xF is a bad frame. -/
def decodeFrame (cycles : Nat) (word : BitVec 32) : Instr :=
  let w := word.toNat
  let cmd := BitVec.ofNat 4 (w / 2 ^ 28)
  let payload := BitVec.ofNat 20 (w / 2 ^ 8)
  if cycles ≠ 32 then .spBadFrame .length cmd
  else if frameCrc w ≠ w % 2 ^ 8 then .spBadFrame .crc cmd
  else match cmd.toNat with
    | 0 => .spNop payload
    | 1 => .spReadLo payload
    | 2 => .spReadHi payload
    | 3 => .spHeartbeat payload
    | 4 => .spHalt payload
    | 5 => .spEnterSingleLine payload
    | 6 => .spStatus payload
    | _ => .spBadFrame .unknown cmd

/-- The request frame of a command and payload (Table 14-14). -/
def encodeFrame (cmd : BitVec 4) (payload : BitVec 20) : BitVec 32 :=
  let body := (cmd.toNat * 2 ^ 20 + payload.toNat) * 2 ^ 8
  BitVec.ofNat 32 (body + frameCrc body)

/-! ### The table's bits -/

/-- The command that the `nbits` bits of `w` spell by the table: none, for no row has bits. -/
def decodeTableWord (_nbits _w : Nat) : Option Instr := none

end Sys2Proof
end

