-- ==== Sys2Proof/Machine/Compensate.lean ====
section
/-! DEFINITION. The arithmetic of the Eulum Loop Engine: Q20.20 with rounding and saturation, the compensator, the
rounding division, the compensator design (spec/04_loop_engine.md R102, R103, R127, R128, R492). -/
namespace Sys2Proof.Machine

/-- Saturation to the signed 40-bit range of Q20.20 (R103). -/
def sat40 (z : Int) : Int := clampI (-(2 ^ 39)) (2 ^ 39 - 1) z

/-- Saturation to the signed 48-bit range of Q20.28 (Reference channels). -/
def sat48 (z : Int) : Int := clampI (-(2 ^ 47)) (2 ^ 47 - 1) z

/-- `z / 2^k` with ties towards +∞ (R103). -/
def shiftRound (z : Int) (k : Nat) : Int := if k = 0 then z else asr (z + 2 ^ (k - 1)) k

/-- The exact quotient rounded to the nearest whole number, ties towards +∞ (R492). -/
def divUp (a : Int) (b : Int) : Int :=
  if b = 0 then 0 else if 0 < b then (2 * a + b) / (2 * b) else (2 * (-a) - b) / (2 * (-b))

/-- A product of a Q4.20 coefficient, or a Q20.20 value, and a Q20.20 value, as Q20.20 (R103 step 2). -/
def mulQ (a b : Int) : Int := sat40 (shiftRound (a * b) 20)

/-- One term added to an accumulator, with the number of additions that saturated (R103 step 3, R104). -/
def addSat (acc : Int × Nat) (term : Int) : Int × Nat :=
  let z := acc.1 + term
  (sat40 z, acc.2 + if sat40 z = z then 0 else 1)

/-- The accumulator over (coefficient, value) terms in order. -/
def accumulate (ts : List (Int × Int)) : Int × Nat :=
  ts.foldl (fun acc t => addSat acc (mulQ t.1 t.2)) (0, 0)

/-- R102 with the codes b0 to b3, a1 to a3 in order: the proposal, and how many additions saturated. -/
def compensate (third : Bool) (codes : List Int) (e e1 e2 e3 y1 y2 y3 : Int) : Int × Nat :=
  let c := fun i => codes.getD i 0
  accumulate ([(c 0, e), (c 1, e1), (c 2, e2)] ++ (if third then [(c 3, e3)] else [])
    ++ [(c 4, y1), (c 5, y2)] ++ (if third then [(c 6, y3)] else []))

/-! ### Design in double precision (R128): numbers `m * 2^e` with `m` of at most 53 bits, each operation rounded to the
nearest with ties to even (log entry 19) -/

/-- A double-precision number `m * 2^e`. -/
structure Dbl where
  m : Int
  e : Int
  deriving DecidableEq, Repr

/-- The double-precision number nearest to `num / den * 2^e`, ties to even. -/
def dblOf (num : Int) (den : Nat) (e : Int) : Dbl :=
  let a := num.natAbs
  if a = 0 ∨ den = 0 then ⟨0, 0⟩
  else
    let k0 : Int := 53 + (Nat.log2 den : Int) - (Nat.log2 a : Int)
    let k := if a * 2 ^ k0.toNat / (den * 2 ^ (-k0).toNat) < 2 ^ 53 then k0 else k0 - 1
    let n := a * 2 ^ k.toNat
    let d := den * 2 ^ (-k).toNat
    let q := n / d + (if d < 2 * (n % d) || (2 * (n % d) == d && n / d % 2 == 1) then 1 else 0)
    ⟨if num < 0 then -(q : Int) else q, e - k⟩

/-- Sum. -/
def Dbl.plus (x y : Dbl) : Dbl :=
  let e := min x.e y.e
  dblOf (x.m * 2 ^ (x.e - e).toNat + y.m * 2 ^ (y.e - e).toNat) 1 e
/-- The number with its sign changed. -/
def Dbl.minus (x : Dbl) : Dbl := ⟨-x.m, x.e⟩
/-- Product. -/
def Dbl.times (x y : Dbl) : Dbl := dblOf (x.m * y.m) 1 (x.e + y.e)
/-- Quotient. -/
def Dbl.by (x y : Dbl) : Dbl := dblOf (if y.m < 0 then -x.m else x.m) y.m.natAbs (x.e - y.e)
/-- One. -/
def Dbl.one : Dbl := ⟨1, 0⟩

/-- π in double precision. -/
def Dbl.pi : Dbl := ⟨7074237752028440, -51⟩

/-- Sum of the series `x - x^3/3! + ...` from term `term` of degree `k`, in fixed point with 240 fraction bits, `n` more
terms. -/
def seriesFrom (x2 : Int) : Nat → Nat → Int → Int
  | 0, _, _ => 0
  | n + 1, k, term => term + seriesFrom x2 n (k + 2) (-(term * x2 / 2 ^ 240) / ((k + 1) * (k + 2) : Nat))

/-- The tangent of a number between 0 and π / 2, correctly rounded. -/
def Dbl.tan (x : Dbl) : Dbl :=
  let z : Int := x.m * 2 ^ (240 + x.e).toNat / 2 ^ (-(240 + x.e)).toNat
  let z2 := z * z / 2 ^ 240
  dblOf (seriesFrom z2 40 1 z) (seriesFrom z2 40 0 (2 ^ 240)).natAbs 0

/-- Polynomial product in z^-1. -/
def polyMul (p q : List Dbl) : List Dbl :=
  (List.range (p.length + q.length - 1)).map (fun k =>
    (List.range (k + 1)).foldl (fun s i => s.plus ((p.getD i ⟨0, 0⟩).times (q.getD (k - i) ⟨0, 0⟩))) ⟨0, 0⟩)

/-- A value as a Q4.20 code, ties away from zero, `none` outside the range. -/
def codeOfDbl (x : Dbl) : Option Int :=
  let r := roundDiv (x.m * 2 ^ (x.e + 20).toNat) (2 ^ (-(x.e + 20)).toNat : Nat)
  if r < -(2 ^ 23) ∨ 2 ^ 23 ≤ r then none else some r

/-- All codes of a list, or none. -/
def codesOfDbl : List Dbl → Option (List Int)
  | [] => some []
  | x :: xs =>
    match codeOfDbl x, codesOfDbl xs with
    | some c, some cs => some (c :: cs)
    | _, _ => none

/-- The discretisation of R128 at a sample period of `ticks`: gain, numerator, denominator. -/
def discretise (ticks fI : Nat) (zs ps : List Nat) : Dbl × List Dbl × List Dbl :=
  let t := dblOf (ticks : Int) 40000000 0
  let k := Dbl.by ⟨2, 0⟩ t
  let q := fun (f : Nat) => k.by (k.times (((Dbl.pi.times ⟨f, 0⟩).times t).tan))
  let num := zs.foldl (fun num f => polyMul num [Dbl.one.plus (q f), Dbl.one.plus (q f).minus]) [Dbl.one, Dbl.one]
  ps.foldl (fun (acc : Dbl × List Dbl × List Dbl) f =>
      let r := q f
      (acc.1.by (Dbl.one.plus r), acc.2.1, polyMul acc.2.2 [Dbl.one, (Dbl.one.plus r.minus).by (Dbl.one.plus r)]))
    ((Dbl.pi.times ⟨fI, 0⟩).times t, num, [Dbl.one, Dbl.one.minus])

/-- The highest-order a code is set so that the a codes sum to exactly 2^20 (R128). -/
def sumToOne (a : List Int) : List Int :=
  match a.reverse with
  | [] => []
  | _ :: rest => (rest.reverse) ++ [2 ^ 20 - rest.foldl (· + ·) 0]

/-- The seven codes b0 to b3, a1 to a3 of a design at a sample period of `ticks`, `none` outside the Q4.20 range. -/
def designCodes (third : Bool) (ticks fI : Nat) (zs ps : List Nat) : Option (List Int) :=
  let x := discretise ticks fI zs ps
  let b := x.2.1.map (fun v => x.1.times v)
  let a := x.2.2.tail.map Dbl.minus
  match codesOfDbl b, codesOfDbl a with
  | some bs, some as =>
    let as' := sumToOne as
    if as'.any (fun c => decide (c < -(2 ^ 23)) || decide ((2 ^ 23 : Int) ≤ c)) then none
    else if third then some (bs ++ as') else some (bs ++ [0] ++ as' ++ [0])
  | _, _ => none

/-- The frequencies of R127: fI from 1 Hz to the sample rate, each zero and pole from 1 Hz to 0.4 of it. The sample
rate is 40,000,000 / `ticks`. -/
def frequenciesOk (ticks fI : Nat) (zps : List Nat) : Bool :=
  1 ≤ fI && fI * ticks ≤ 40000000 && zps.all (fun f => 1 ≤ f && 10 * f * ticks ≤ 4 * 40000000)

end Sys2Proof.Machine
end

