-- ==== Sys2Proof/Config.lean ====
section
/-! DEFINITION. What one BK4824 is made with and what the manual leaves open. Every `opaque` here is a FREE
VALUE: no proof can see a value of it (assumption log entries 4, 5, 6). -/
namespace Sys2Proof.Config

/-- Free value of the random generator of R352: the `n`-th 16-byte nonce, as a number. Log entry 4. -/
opaque nonce : Nat → Nat

/-- Free choice of the code of the fuse rows: which of the columns left the code takes for data bit `i` (R420 names a
SECDED(72,64) code and gives no matrix). Log entry 5. -/
opaque columnChoice : Nat → Nat

/-- The bits set in the low `n` bits of a number. -/
def onesOf : Nat → Nat → Nat
  | 0, _ => 0
  | n + 1, v => v % 2 + onesOf n (v / 2)

/-- The bytes of odd weight above 1: columns of a check matrix whose check bits have the columns of weight 1, so that two
columns never add up to one (DESIGN CHOICE, log entry 5). -/
def oddColumns : List Nat := (List.range 256).filter (fun v => onesOf 8 v % 2 == 1 && 1 < onesOf 8 v)

/-- Columns chosen one after another, none of them twice. -/
def pickColumns : Nat → Nat → List Nat → List Nat
  | 0, _, _ => []
  | n + 1, i, left =>
    let c := left.getD (columnChoice i % left.length) 0
    c :: pickColumns n (i + 1) (left.erase c)

/-- The columns of the data bits. -/
def columns : List Nat := pickColumns 64 0 oddColumns

/-- The column of data bit `i`. -/
def column (i : Nat) : BitVec 8 := BitVec.ofNat 8 (columns.getD i 0)

/-- ROM value of vendor fuse row `r`, 0 to 23 (R427), which the manual does not state. Log entry 5. -/
opaque romRow : Nat → BitVec 64

/-- Free coding of the kind of link event in HQI_LINK_RESET (Table 14-18 names the word, no rule codes it).
Log entry 6. -/
opaque linkKind : Nat → Nat

/-- Free value for a result the manual leaves unstated, indexed by the model's own counter. Log entry 6. -/
opaque freeWord : Nat → Nat

/-- Free coding of two values in one data word of an event, where the manual names both and gives no layout.
Log entry 6. -/
opaque pair : Nat → Nat → Nat

/-- Free coding of a named outcome in a data word of event `code`, where the manual names the outcomes and numbers
none of them. Log entry 6. -/
opaque coding : Nat → Nat → Nat

/-- Free shadow value of a lifecycle row whose two copies read differently: the manual resolves the copies of rows 0
to 55 only (R426, R428). Log entry 5. -/
opaque markerWord : BitVec 64 → BitVec 64 → BitVec 64

/-- Free value: which codeword bits a programming run that was stopped has not blown, or blown weakly (R436, R438).
Log entry 6. -/
opaque fuseMask : Nat → BitVec 72

/-- Free value of the State Mirror word at a BAR2 offset whose quantity the device does not hold at that moment: the
slope of a feed without nine results, the join ceiling of a leg that does not join, the limit timer of a branch that
does not limit. Log entry 6. -/
opaque idleItem : Nat → Nat

/-- Free value: the offset that 16 bits of vendor trim give a SAR converter, in the format a calibration gives it
(Table 17-1 names the trim, no rule gives its layout). Log entry 5. -/
opaque trimOffset : BitVec 16 → BitVec 16

/-- Free value: the gain that 16 bits of vendor trim give a SAR converter. Log entry 5. -/
opaque trimGain : BitVec 16 → BitVec 16

/-- Free value: the X32 load capacitance code in vendor fuse row 16 (Table 2-5; no rule gives its place in the row).
Log entry 5. -/
opaque x32Vendor : BitVec 64 → BitVec 5

/-- Free layout: word `w` of memory `m` of Table 12-4 is among those written when its item `i` is: a group (0x01), a
register (0x02, 0x04), a resource (0x12, 0x13), lane health (0x14) or a page count (0x15). The manual gives the memories
and not their words. Log entry 149. -/
opaque holdsWord : Nat → Nat → Nat → Bool

/-- Free value: whether the readback of a Rule Book copy that has been written matches (R411). Log entry 150. -/
opaque readsBack : Nat → Bool

end Sys2Proof.Config
end

