-- ==== Sys2Proof/Machine/RegMap.lean ====
section
/-! DEFINITION. The Rule Book fields of the BAR0 register map: where each lies, what it may hold, which resource
gates it and what it reads before any Rule Book is loaded (spec/18_register_map.md R439, R441, R445; the field
tables of spec/02 to spec/13; R414 for the vendor defaults, log entry 2). -/
namespace Sys2Proof.Machine

/-- The values a field may be given (R441): any, a range, a signed range, or all but one. -/
inductive Allow where
  | any
  | span (lo hi : Nat)
  | signedSpan (lo hi : Int)
  | allBut (v : Nat)
  deriving DecidableEq, Repr

/-- Access of a Rule Book field (Table 0-4): RW, RWS, or RO with a Rule Book value that commands alone set. -/
inductive Access where
  | rw | rws | ro
  deriving DecidableEq, Repr

/-- One Rule Book field of a register. -/
structure Field where
  lo     : Nat
  width  : Nat
  access : Access
  allow  : Allow
  dflt   : Nat
  deriving DecidableEq, Repr

/-- The resource whose stopped state admits a write of the RWS fields (Table 18-3). -/
inductive Owner where
  | none | converter | group | channel | leg | drvflt | feed | branch | string | timetable | pmbus | avs
  deriving DecidableEq, Repr

/-- A family of registers at `base + stride * i`, `i < count`. -/
structure RegSpec where
  base   : Nat
  stride : Nat
  count  : Nat
  owner  : Owner
  fields : List Field
  deriving DecidableEq, Repr

/-- Whether a field may hold `v` (R441). -/
def Allow.admits (a : Allow) (width v : Nat) : Bool :=
  match a with
  | .any => true
  | .span lo hi => lo ≤ v && v ≤ hi
  | .signedSpan lo hi => lo ≤ signedOf width v && signedOf width v ≤ hi
  | .allBut x => v != x

/-- An RW field that may hold every value; vendor default 0. -/
def rw (lo width : Nat) : Field := ⟨lo, width, .rw, .any, 0⟩
/-- An RWS field that may hold every value; vendor default 0. -/
def rws (lo width : Nat) : Field := ⟨lo, width, .rws, .any, 0⟩
/-- An RW field held to a range; the vendor default is 0 or the lowest legal value. -/
def rwIn (lo width a b : Nat) : Field := ⟨lo, width, .rw, .span a b, a⟩
/-- An RWS field held to a range; the vendor default is 0 or the lowest legal value. -/
def rwsIn (lo width a b : Nat) : Field := ⟨lo, width, .rws, .span a b, a⟩
/-- An RW field in which 0 is reserved. -/
def rwNz (lo width : Nat) : Field := rwIn lo width 1 (2 ^ width - 1)
/-- An RWS field in which 0 is reserved. -/
def rwsNz (lo width : Nat) : Field := rwsIn lo width 1 (2 ^ width - 1)
/-- A signed RW field that may hold every value. -/
def rwSigned (lo width : Nat) : Field := ⟨lo, width, .rw, .signedSpan (-(2 ^ (width - 1) : Nat)) ((2 ^ (width - 1) : Nat) - 1), 0⟩
/-- A signed RWS field that may hold every value. -/
def rwsSigned (lo width : Nat) : Field := { rwSigned lo width with access := .rws }
/-- A field that only commands and starts set. -/
def roRb (lo width : Nat) : Field := ⟨lo, width, .ro, .any, 0⟩

/-- Identity and system block, and the time base (0x0000 to 0x07FF). -/
def regsSystem : List RegSpec := [
  ⟨0x0014, 4, 1, .none, [⟨0, 2, .ro, .span 0 2, 1⟩]⟩,
  ⟨0x0018, 4, 1, .none, [rw 0 16]⟩,
  ⟨0x0040, 4, 16, .none, [rw 4 2, rw 2 2, rw 0 2]⟩,
  ⟨0x0424, 4, 1, .none, [rwIn 10 5 0 26]⟩]

/-- Measurement Array (0x0800 to 0x0FFF), Tables 3-3 to 3-10 and 3-23. -/
def regsMeasure : List RegSpec := [
  ⟨0x0800, 4, 40, .converter,
    [rw 31 1, rws 24 4, rws 23 1, rwsIn 20 3 0 7, rwsIn 15 5 0 23, rwsIn 13 2 0 2, rws 11 2, rw 8 3, rws 0 8]⟩,
  ⟨0x08A0, 4, 8, .converter,
    [rw 31 1, rws 24 4, rws 23 1, rwsIn 20 3 0 7, rwsIn 15 5 0 23, rwsIn 13 2 1 2, rws 11 2, rw 8 3, rws 0 8]⟩,
  ⟨0x08C0, 4, 48, .converter, [rws 0 20]⟩,
  ⟨0x0980, 4, 48, .converter, [rws 31 1, rwsNz 0 31]⟩,
  ⟨0x0A40, 4, 16, .group, [rwsIn 19 10 40 800, rws 0 19]⟩,
  ⟨0x0A80, 4, 4, .none, [rwIn 0 2 0 2]⟩,
  ⟨0x0B00, 4, 96, .none, [rw 7 1, rwIn 0 7 0 95]⟩,
  ⟨0x0C80, 4, 1, .none, [rwIn 0 7 1 96]⟩]
  ++ (List.range 8).map (fun p =>
    ⟨0x0D00 + 4 * p, 0x20, 8, .none,
      [⟨16, 16, .rw, .any, 8192 * p⟩, ⟨0, 16, .rw, .signedSpan (-400) 2000, 250⟩]⟩)

/-- Fast Trip Array (0x1000 to 0x1FFF), Tables 3-16 to 3-21. -/
def regsTrip : List RegSpec := [
  ⟨0x1000, 4, 128, .channel,
    [rw 31 1, roRb 29 2, rws 26 3, rws 25 1, rw 23 2, rwIn 15 8 0 191]⟩,
  ⟨0x1200, 4, 128, .none, [roRb 0 10]⟩,
  ⟨0x1800, 8, 152, .none, [rw 0 32]⟩,
  ⟨0x1804, 8, 152, .none, [rw 31 1, rw 0 24]⟩,
  ⟨0x1D00, 4, 24, .drvflt, [rw 7 1, rws 6 1, rw 0 4]⟩]

/-- Eulum Loop Engine (0x2000 to 0x2FFF), Tables 4-5 to 4-13, 5-7 to 5-16 and 18-7. -/
def regsLoop : List RegSpec := [
  ⟨0x2000, 0x20, 16, .group, [⟨16, 4, .rws, .any, 1⟩, rws 12 4]⟩,
  ⟨0x2004, 0x20, 16, .group,
    [rwsIn 30 2 0 2, rwsIn 28 2 0 2, rwsIn 26 2 0 2, rws 25 1, rws 24 1, rws 22 2, rwsIn 16 6 0 47, rwsIn 10 6 0 47]⟩,
  ⟨0x2008, 0x20, 16, .group, [rws 0 24]⟩,
  ⟨0x200C, 0x20, 16, .group, [rw 16 16, rw 0 16]⟩,
  ⟨0x2010, 0x20, 16, .group, [rw 16 16, rw 0 16]⟩,
  ⟨0x2014, 0x20, 16, .group, [rw 24 8, rwsIn 0 24 1 0x7FFFFF]⟩,
  ⟨0x2018, 0x20, 16, .group, [rwNz 16 16, rwNz 8 8, rwNz 0 8]⟩,
  ⟨0x201C, 0x20, 16, .group, [rw 16 16, rw 0 16]⟩,
  ⟨0x2200, 4, 1, .none, [rwNz 24 8, rwNz 16 8, rwIn 0 16 10 65535]⟩,
  ⟨0x2220, 4, 1, .none, [rw 24 8, rw 16 8, rwNz 8 8, rwNz 0 8]⟩,
  ⟨0x2228, 4, 1, .none, [⟨0, 12, .rw, .span 0 4000, 1000⟩]⟩,
  ⟨0x2400, 0x20, 16, .group,
    [rws 31 1, rws 30 1, ⟨27, 3, .rws, .any, 4⟩, rws 24 3, ⟨16, 8, .rw, .span 1 255, 8⟩]⟩,
  ⟨0x2404, 0x20, 16, .group, [rws 0 24]⟩,
  ⟨0x2408, 0x20, 16, .group, [rws 0 24]⟩,
  ⟨0x240C, 0x20, 16, .group, [rws 0 24]⟩,
  ⟨0x2410, 0x20, 16, .group, [rws 0 24]⟩,
  ⟨0x2414, 0x20, 16, .group, [rw 22 10, rw 16 6, rw 6 10]⟩,
  ⟨0x2418, 0x20, 16, .group, [rw 16 16, rw 0 16]⟩,
  ⟨0x241C, 0x20, 16, .group, [rw 28 4, rwNz 16 12, rwNz 8 8]⟩,
  ⟨0x2600, 4, 16, .group, [rw 16 16, rw 15 1, rwNz 0 15]⟩]
  ++ (List.range 28).map (fun j =>
    ⟨0x2800 + 0x20 * (j / 7) + 4 * (j % 7), 0x80, 16, .group, [rws 0 24]⟩)

/-- Phase Timing Unit (0x3000 to 0x37FF), Tables 6-5 to 6-11. -/
def regsPhase : List RegSpec := [
  ⟨0x3000, 0x10, 16, .group, [rwsIn 27 5 1 16, rwsIn 20 7 1 64, rwsIn 18 2 0 2, rws 17 1]⟩,
  ⟨0x3004, 0x10, 16, .group, [rw 31 1, rwIn 26 5 1 24, rw 18 8, rw 10 8, rwNz 2 8]⟩,
  ⟨0x3008, 0x10, 16, .group, [rw 16 16, rw 15 1, rw 14 1, rwNz 6 8]⟩,
  ⟨0x300C, 0x10, 16, .group, [rw 16 16, rwIn 8 8 1 128, rwNz 0 8]⟩,
  ⟨0x3100, 0x10, 24, .leg, [rws 31 1, rws 30 1, rw 29 1, rwNz 16 8, rw 8 8, rw 0 8]⟩,
  ⟨0x3104, 0x10, 24, .leg, [rwIn 8 8 1 254, rwIn 0 8 1 254]⟩,
  ⟨0x3108, 0x10, 24, .leg, [rws 0 20]⟩]

/-- Feed Controllers (0x3800 to 0x3BFF), Tables 7-3 to 7-12. -/
def regsFeed : List RegSpec := [
  ⟨0x3800, 0x40, 4, .feed, [rw 21 1, rw 20 1, rwIn 18 2 0 2, rws 17 1, rws 14 3]⟩,
  ⟨0x3804, 0x40, 4, .feed, [rw 16 16, rw 0 16]⟩,
  ⟨0x3808, 0x40, 4, .feed, [rw 24 8, rwNz 16 8, rw 8 8, rwNz 0 8]⟩,
  ⟨0x380C, 0x40, 4, .feed, [rw 24 8, rwNz 16 8, rw 8 8, rw 0 8]⟩,
  ⟨0x3810, 0x40, 4, .feed, [rwNz 16 16, rwNz 8 8, rwNz 0 8]⟩,
  ⟨0x3814, 0x40, 4, .feed, [rw 28 4, rw 26 2, rwNz 16 8, rwNz 0 16]⟩,
  ⟨0x3818, 0x40, 4, .feed, [rws 16 16, rws 0 16]⟩,
  ⟨0x381C, 0x40, 4, .feed, [rwsNz 16 16, rwsNz 0 16]⟩,
  ⟨0x3820, 0x40, 4, .feed, [rw 24 8, rw 16 8, rwsSigned 8 8, rw 0 8]⟩,
  ⟨0x3900, 4, 2, .none, [rw 31 1, rwNz 16 8, rwNz 8 8, rwNz 0 8]⟩]

/-- Branch Channels (0x3C00 to 0x43FF), Tables 8-8 to 8-17. -/
def regsBranch : List RegSpec := [
  ⟨0x3C00, 0x40, 24, .branch, [rw 21 1, rws 18 2, rws 17 1, rws 14 3, rwIn 12 2 0 2]⟩,
  ⟨0x3C04, 0x40, 24, .branch, [rwsNz 0 24]⟩,
  ⟨0x3C08, 0x40, 24, .branch, [rwsIn 22 10 1 1023, rwsIn 16 6 12 32, rwNz 8 8]⟩,
  ⟨0x3C0C, 0x40, 24, .branch, [rwNz 16 16, rwNz 8 8, rwNz 0 8]⟩,
  ⟨0x3C10, 0x40, 24, .branch, [rw 28 4, rw 26 2, rwNz 16 8, rwNz 0 16]⟩,
  ⟨0x3C14, 0x40, 24, .branch, [rwsNz 16 16, rwsNz 0 16]⟩,
  ⟨0x3C18, 0x40, 24, .branch, [rwsNz 16 16, rws 0 16]⟩,
  ⟨0x3C1C, 0x40, 24, .branch, [rwsNz 0 24]⟩,
  ⟨0x3C20, 0x40, 24, .branch, [rwsNz 0 24]⟩,
  ⟨0x3C24, 0x40, 24, .branch, [rwsNz 0 24]⟩,
  ⟨0x3C28, 0x40, 24, .branch, [rw 24 8, rw 16 8, rwsSigned 8 8]⟩,
  ⟨0x4200, 0x10, 4, .none, [rw 31 1, rwIn 24 6 0 47, rwIn 18 6 0 47, rw 8 10, rwNz 0 8]⟩]

/-- Battery Shelf Manager (0x4400 to 0x47FF), Tables 9-4 to 9-17. -/
def regsString : List RegSpec := [
  ⟨0x4400, 0x40, 4, .string, [rw 25 1, rws 24 1, rws 20 4, rwsIn 14 6 0 47, rws 13 1, rws 10 3, rw 9 1]⟩,
  ⟨0x4404, 0x40, 4, .string, [rw 24 8, rwsNz 0 24]⟩,
  ⟨0x4408, 0x40, 4, .string, [rwsNz 20 12, rwNz 12 8, rwNz 4 8]⟩,
  ⟨0x440C, 0x40, 4, .string, [rwNz 24 8, rw 16 8, rwNz 8 8, rw 0 8]⟩,
  ⟨0x4410, 0x40, 4, .string, [rwNz 24 8, rw 16 8, rw 8 8, rw 0 8]⟩,
  ⟨0x4414, 0x40, 4, .string, [rw 16 16, rw 0 16]⟩,
  ⟨0x4418, 0x40, 4, .string, [rw 16 16, rwNz 8 8, rwNz 0 8]⟩,
  ⟨0x441C, 0x40, 4, .string, [rwNz 24 8, rw 16 8, rw 8 8, rwNz 0 8]⟩,
  ⟨0x4420, 0x40, 4, .string, [rw 22 10, rwNz 12 10, rwIn 3 9 0 500]⟩,
  ⟨0x4424, 0x40, 4, .string, [rw 16 16, rw 0 8]⟩,
  ⟨0x4428, 0x40, 4, .string, [rw 16 16, rw 6 10]⟩,
  ⟨0x442C, 0x40, 4, .string, [rw 16 16, rwSigned 8 8, rwSigned 0 8]⟩,
  ⟨0x4430, 0x40, 4, .string, [rwsNz 0 24]⟩,
  ⟨0x4500, 4, 1, .none, [rwNz 24 8, rw 16 8, rw 15 1, rwNz 0 8]⟩]

/-- Timetable and point-of-load masters (0x4800 to 0x4FFF), Tables 10-7 to 10-18. -/
def regsTimetable : List RegSpec := [
  ⟨0x4800, 4, 1, .timetable, [rw 23 1, rw 22 1, rw 21 1, rws 17 4, rw 9 8]⟩,
  ⟨0x4804, 4, 1, .timetable, [rws 31 1, rws 30 1, rwNz 16 14, rwNz 8 8]⟩,
  ⟨0x4810, 4, 16, .none, [rw 24 8, rw 16 8]⟩,
  ⟨0x4880, 0x20, 16, .timetable,
    [rws 28 1, rws 24 4, rwsIn 22 2 0 2, rwsIn 20 2 0 2, rws 19 1, rws 18 1, rw 17 1, rw 16 1, rws 14 2, rws 13 1,
     rws 12 1, rws 8 4, rws 0 8]⟩,
  ⟨0x4884, 0x20, 16, .timetable, [rwsNz 20 12, rwsNz 12 8, rwsNz 4 8, rws 0 4]⟩,
  ⟨0x4888, 0x20, 16, .timetable, [⟨25, 7, .rws, .allBut 0x0C, 0⟩, rws 17 8, rwsSigned 12 5]⟩,
  ⟨0x488C, 0x20, 16, .timetable, [rws 16 16, ⟨0, 16, .rw, .any, 0x0030⟩]⟩,
  ⟨0x4890, 0x20, 16, .timetable, [rws 16 16, rws 0 16]⟩,
  ⟨0x4C00, 0x10, 4, .pmbus, [rw 31 1, rwsIn 29 2 0 2, rws 28 1, rw 27 1, rw 24 3, rwNz 16 8, rw 8 8]⟩,
  ⟨0x4C40, 0x10, 2, .avs, [rw 31 1, rwsIn 0 8 4 255]⟩]

/-- Token Office, Interlocking, Train Register and Background Engines (0x5000 to 0x6FFF). -/
def regsOffice : List RegSpec := [
  ⟨0x5000, 4, 1, .none, [rw 24 8, rwNz 0 24]⟩,
  ⟨0x5004, 4, 1, .none, [rwNz 22 10, rwNz 10 12, rwIn 6 4 1 14]⟩,
  ⟨0x5008, 4, 1, .none, [rwNz 24 8, rwNz 16 8, rwNz 4 12]⟩,
  ⟨0x500C, 4, 1, .none, [rwNz 24 8, rwNz 16 8, rwNz 8 8, rwNz 0 8]⟩,
  ⟨0x5400, 4, 1, .none, [rw 31 1, rw 8 8, rwNz 0 8]⟩,
  ⟨0x5404, 4, 1, .none, [rwIn 30 2 0 2, rwIn 28 2 0 2, rw 16 12, rw 0 16]⟩,
  ⟨0x5440, 4, 1, .none, [rw 0 24]⟩,
  ⟨0x5444, 4, 1, .none, [rw 0 16]⟩,
  ⟨0x5800, 4, 1, .none, [rwNz 24 8, rwIn 16 8 16 191]⟩,
  ⟨0x6000, 4, 1, .none, [⟨0, 24, .rw, .span 1 10000, 100⟩]⟩,
  ⟨0x6004, 4, 1, .none, [⟨0, 24, .rw, .span 1 720, 24⟩]⟩,
  ⟨0x6008, 4, 1, .none, [⟨0, 24, .rw, .span 10 60000, 1000⟩]⟩,
  ⟨0x600C, 4, 1, .none, [⟨0, 24, .rw, .span 100 10000, 1000⟩]⟩,
  ⟨0x6010, 4, 1, .none, [⟨0, 24, .rw, .span 1 1000, 10⟩]⟩,
  ⟨0x6014, 4, 1, .none, [⟨0, 24, .rw, .span 10 10000, 100⟩]⟩,
  ⟨0x6018, 4, 1, .none, [⟨0, 24, .rw, .span 10 3600, 60⟩]⟩]

/-- Table 12-3 as (code, class, action, fixed), the actions coded as IL_RX.action codes them; codes 0x40 to 0x43
carry what their IL_RX entry reads (Table 12-21). -/
def detectionTable : List (Nat × Nat × Nat × Bool) := [
  (0x01, 0, 0, true), (0x02, 2, 0, false), (0x03, 2, 0, false), (0x04, 2, 0, false), (0x05, 2, 0, false),
  (0x10, 2, 0, false), (0x11, 2, 1, false), (0x12, 2, 1, false), (0x13, 2, 0, false), (0x14, 2, 0, true),
  (0x15, 1, 3, true), (0x16, 1, 3, true), (0x20, 2, 0, false), (0x21, 2, 0, false), (0x28, 2, 0, false),
  (0x29, 2, 0, false), (0x2A, 2, 0, false), (0x2B, 2, 0, false), (0x30, 2, 0, false), (0x31, 2, 0, false),
  (0x32, 2, 0, false), (0x33, 1, 0, false), (0x34, 2, 0, false), (0x38, 2, 0, false), (0x40, 0, 6, true),
  (0x41, 0, 6, true), (0x42, 3, 7, true), (0x43, 3, 7, true), (0x44, 2, 0, true), (0x45, 1, 3, true),
  (0x46, 1, 4, true)]

/-- The row of Table 12-3 for a code, if there is one. -/
def detectionRow (code : Nat) : Option (Nat × Nat × Nat × Bool) :=
  detectionTable.find? (fun r => r.1 == code)

/-- Whether IL_RX.fixed reads 1: an entry marked fixed, or a code Table 12-3 does not list. -/
def rxFixed (code : Nat) : Bool :=
  match detectionRow code with
  | some (_, _, _, f) => f
  | none => true

/-- The IL_RX word of a code as Table 12-3 gives it. -/
def rxDefault (code : Nat) : Nat :=
  match detectionRow code with
  | some (_, c, a, _) => place 22 2 c + place 16 4 a
  | none => 0

/-- The register families in whose block an offset lies (Table 18-1). -/
def regsNear (off : Nat) : List RegSpec :=
  if off < 0x0800 then regsSystem
  else if off < 0x1000 then regsMeasure
  else if off < 0x2000 then regsTrip
  else if off < 0x3000 then regsLoop
  else if off < 0x3800 then regsPhase
  else if off < 0x3C00 then regsFeed
  else if off < 0x4400 then regsBranch
  else if off < 0x4800 then regsString
  else if off < 0x5000 then regsTimetable
  else regsOffice

/-- Whether `off` is a register of the family. -/
def RegSpec.covers (r : RegSpec) (off : Nat) : Bool :=
  r.base ≤ off && (off - r.base) % r.stride == 0 && (off - r.base) / r.stride < r.count

/-- The index of the instance of the family at `off`. -/
def RegSpec.inst (r : RegSpec) (off : Nat) : Nat := (off - r.base) / r.stride

/-- The family of the Rule Book register at `off`, if one lies there. -/
def regAt (off : Nat) : Option RegSpec := (regsNear off).find? (fun r => r.covers off)

/-- A register with every listed field at its vendor default. -/
def fieldDefaults : List Field → Nat
  | [] => 0
  | f :: fs => place f.lo f.width f.dflt + fieldDefaults fs

/-- What the Rule Book part of the register at `off` reads before any Rule Book is loaded: the vendor default
(R414, log entry 2). The reaction table takes Table 12-3. -/
def vendorWord (off : Nat) : Nat :=
  if 0x5500 ≤ off && off < 0x5700 && off % 4 == 0 then rxDefault ((off - 0x5500) / 4)
  else
    match regAt off with
    | some r => fieldDefaults r.fields
    | none => 0

end Sys2Proof.Machine
end

