-- ==== Sys2Proof/Machine/Device.lean ====
section
/-! DEFINITION. What the BK4824 holds, as plain data: every register, ring, buffer, latch, counter, timer, MRAM item and
pin the manual gives it (INVENTORY.md lists each with its rule). State.lean makes the state of it. -/
namespace Sys2Proof.Machine

/-- The Rule Book registers of the live configuration: (BAR0 offset, value) pairs, offsets strictly rising, none
equal to what an unlisted register reads, which is its vendor default (R414, log entry 2). -/
abbrev Regs := List (Nat × Word)

/-! ### Time stamps, records and events (R7, R338, R372) -/

/-- A time stamp of R7: the calendar word and the uptime. -/
structure Stamp where
  cal : Nat
  up  : Nat
  deriving DecidableEq, Repr, Inhabited

/-- One Train Register record of R338, its sequence assigned. -/
structure Rec where
  seq     : Nat
  typ     : Nat
  stamp   : Stamp
  payload : List Byte
  deriving DecidableEq, Repr, Inhabited

/-- What a ring slot of the Train Register holds in MRAM: R339 knows blank, torn and valid slots; an unlisted
slot is blank. -/
inductive RingSlot where
  | torn
  | valid (r : Rec)
  deriving DecidableEq, Repr

/-- One entry of the clear log of R351. -/
structure ClearEntry where
  cut      : Nat
  cal      : Nat
  up       : Nat
  tag      : Nat
  complete : Bool
  erased   : Nat
  deriving DecidableEq, Repr, Inhabited

/-- Something the device sends outward during one command: a posted write into host memory, an MSI-X message
(a posted write of one word), the data of a register or mirror read, the response a safety port frame shifts
out, a frame or byte on a bus line (a Bell frame as its eight cells, cell 0 in bit 7), nine clocks and a stop on one. -/
inductive Out where
  | hostWrite (address : Nat) (bytes : List Byte)
  | message   (vector : Nat) (address : Nat) (data : Nat)
  | readData  (value : Nat)
  | spi       (word : Nat)
  | bell      (cells : Nat)
  | bus       (master : Nat) (bytes : List Byte)
  | busClear  (master : Nat)
  | avs       (master command dataType select data crc : Nat)
  | avsSync   (master : Nat)
  | tdo       (bit : Bool)
  | uncorrectedAer (ring : Nat)
  deriving DecidableEq, Repr

/-! ### The Host Queue Interface -/

/-- One ring of Table 14-2: HQI_RING_BASE_LO/HI, HQI_RING_CFG, HQI_RING_STAT (Table 14-24 to 14-27), and whether a
failed descriptor fetch stopped it (R361). -/
structure Ring where
  baseLo  : Nat
  baseHi  : Nat
  en      : Bool
  lap     : Bool
  log2n   : Nat
  vec     : Nat
  devIdx  : Nat
  dbIdx   : Nat
  stopped : Bool
  deriving DecidableEq, Repr, Inhabited

/-- One MSI-X vector: its table entry, its pending bit, and the moderation interval of R376 (`until` in uptime,
`owed` when an entry waits for the interval's end). -/
structure MsixVec where
  addrLo  : Word
  addrHi  : Word
  data    : Word
  masked  : Bool
  pending : Bool
  hushed  : Nat
  owed    : Bool
  deriving DecidableEq, Repr, Inhabited

/-- A fetched command in its staging slot (R377). -/
structure OpenCmd where
  fetch   : Nat
  entry   : Option Nat
  op      : Nat
  desc    : Desc
  begun   : Bool
  total   : Nat
  done    : Nat
  resumed : Bool
  results : List Nat
  deriving DecidableEq, Repr

/-- A ring entry that D3hot holds back (R360); a completion without its uptime, which is that of the write (R371). -/
inductive HeldWrite where
  | completion (ring : Nat) (word0 : Nat) (body : List Byte) (announce : Bool)
  | event (source : Nat) (word0 : Nat) (body : List Byte) (seq : Nat) (urgent : Bool)
  deriving DecidableEq, Repr

/-- A ledger entry of Table 14-10a. -/
structure LedgerEntry where
  tag     : Nat
  op      : Nat
  ring    : Nat
  opened  : Bool
  resumed : Bool
  expert  : Bool
  target  : Nat
  status  : Nat
  done    : Nat
  total   : Nat
  fetch   : Nat
  pcrc    : Nat
  uptime  : Nat
  deriving DecidableEq, Repr, Inhabited

/-- The HQI: link, registers, rings, vectors and staging slots; `func` and `aer` (uncorrectable error status) are what
changes in the configuration space (Table 14-1). -/
structure Hqi where
  expertEn  : Bool
  imod      : Nat
  speed     : Nat
  width     : Nat
  d3hot     : Bool
  badAccess : Nat
  dbErr     : Nat
  dmaErr    : Nat
  eqLost    : Nat
  eqLostSeq : Nat
  rings     : Vector Ring 11
  evtVec    : Vector Word 32
  msix      : Vector MsixVec 32
  rotation  : Nat
  fetches   : Nat
  staged    : List OpenCmd
  heldBack  : List HeldWrite
  latchAt   : Nat
  latchHi   : Nat
  func      : FunctionSetup
  aer       : Nat
  deriving DecidableEq, Repr

/-- The safety port (R388 to R392, Table 14-29). -/
structure SafetyPort where
  frames     : Nat
  crcErr     : Nat
  lenErr     : Nat
  lastCmd    : Nat
  lastStatus : Nat
  response   : Nat
  discarded  : Nat
  readLatch  : Nat
  wordAt     : Nat
  wordHi     : Nat
  deriving DecidableEq, Repr

/-! ### The Token Office -/

/-- State of a request slot (Table 16-1, Token Office slot). -/
inductive SlotState where
  | empty | waiting | holding
  deriving DecidableEq, Repr, Inhabited

/-- One request slot of Table 11-3. `serial` orders arrivals, `limit` is the uptime at which a waiting request is
given up, `until` the uptime at which a held token returns (0: no duration), `tagged` whether a command made it. -/
structure Slot where
  state   : SlotState
  rank    : Nat
  surge   : Nat
  gate    : Nat
  core    : Nat
  mram    : Nat
  prog    : Nat
  arrival : Nat
  serial  : Nat
  limit   : Nat
  span    : Nat
  lapses  : Nat
  tagged  : Bool
  deriving DecidableEq, Repr, Inhabited

/-- A SURGE amount on its way back (R302). -/
structure Recovering where
  amount : Nat
  due    : Nat
  deriving DecidableEq, Repr

/-- The Token Office: the 79 slots of Table 11-3. `second` is the request of slot 78 that waits while that slot's
token is held, as R433 knows it. -/
structure Office where
  slots      : Vector Slot 79
  second     : Slot
  recovering : List Recovering
  serial     : Nat
  deriving DecidableEq, Repr

/-! ### The Interlocking -/

/-- A resource a detection or an action names (R315). -/
inductive Res where
  | group (g : Nat)
  | feed (f : Nat)
  | branch (n : Nat)
  | string (s : Nat)
  | timetable
  | block (base : Nat)
  deriving DecidableEq, Repr

/-- The actions of Table 12-6, numbered as IL_RX.action numbers them. -/
inductive Action where
  | none | stop | blockReset | singleLine | restart | refill | stopReset
  deriving DecidableEq, Repr, Inhabited

/-- A detection reported to the Interlocking (R310), with the flags of R318 and R337. -/
structure Detection where
  code     : Nat
  source   : Nat
  master   : Nat
  access   : Nat
  addr     : Nat
  injected : Bool
  deriving DecidableEq, Repr, Inhabited

/-- A secondary entry of R318. -/
structure Secondary where
  det    : Detection
  offset : Nat
  nested : Bool
  deriving DecidableEq, Repr

/-- A fault whose settle window is open (R317, R318). -/
structure OpenFault where
  ident     : Nat
  det       : Detection
  cls       : Nat
  action    : Action
  escalated : Bool
  opened    : Stamp
  closes    : Nat
  all       : Bool
  touched   : List Res
  secs      : List Secondary
  overflow  : Nat
  deriving DecidableEq, Repr

/-- The first-error capture, IL_FE_CODE to IL_FE_TS (R321). -/
structure Capture where
  valid    : Bool
  injected : Bool
  cls      : Nat
  sec      : Nat
  code     : Nat
  source   : Nat
  master   : Nat
  access   : Nat
  ident    : Nat
  addr     : Nat
  stamp    : Stamp
  deriving DecidableEq, Repr

/-- An injection whose 10 ms of observation run (R337). -/
structure Injection where
  kind  : Nat
  word0 : Nat
  word1 : Nat
  endAt : Nat
  seen  : Bool
  ident : Nat
  tag   : Nat
  fetch : Nat
  deriving DecidableEq, Repr

/-- Check bits that INJECT has inverted (R336): the memory and word, how many, and the record or command that stood in the
slot then (`Dev.slotItem`). -/
structure Flip where
  mem  : Nat
  word : Nat
  bits : Nat
  item : Nat
  deriving DecidableEq, Repr

/-- The Interlocking's latches, captures and watches. `watched` holds the injections under observation, oldest first, of
which all but the newest have lost their command. -/
structure Interlocking where
  faults      : List OpenFault
  faultId     : Nat
  capture     : Capture
  sirq        : List Nat
  slw         : Bool
  slwCause    : Nat
  slwSince    : Nat
  shedCount   : Nat
  shedAt      : Option Nat
  railsShed   : Bool
  hostSilent  : Bool
  spSilent    : Bool
  spHold      : Bool
  hostBeat    : Nat
  spBeat      : Nat
  counts      : List (Nat × Nat)
  voteFails   : List Nat
  stalls      : List Nat
  engStalls   : List (Nat × Nat)
  lastHard    : Option Nat
  armedUntil  : Option Nat
  lastKind    : Nat
  injections  : Nat
  watched     : List Injection
  flips       : List Flip
  laneCorrupt : Option Nat
  stopAll     : Bool
  reported    : List (Nat × Nat)
  deriving DecidableEq, Repr

/-! ### The Train Register -/

/-- A clear under R354: whether leave was granted, its cut, and the slots its erase has blanked. -/
structure Clearing where
  granted : Bool
  cut    : Nat
  tag    : Nat
  fetch  : Nat
  erased : Nat
  recSeq : Option Nat
  deriving DecidableEq, Repr

/-- The Train Register: its volatile buffer and its parts of MRAM (R338 to R357). `reserve` is seq_reserve, `bounds`
its 8 slots in the wear table partition and `boundAt` the slot last written (R343). -/
structure TrainRegister where
  next      : Nat
  reserve   : Nat
  bounds    : Vector Nat 8
  boundAt   : Nat
  buffer    : List Rec
  dropped   : Nat
  dropRun   : Nat
  dropFirst : Nat
  dropLast  : Nat
  dropTold  : Nat
  flushTo   : Option Nat
  flushed   : Nat
  flushedAt : Bool
  ring      : List (Nat × RingSlot)
  wptr      : Nat
  torn      : Nat
  scanning  : Bool
  readOnly  : Bool
  ckptAt    : Nat
  nonce     : Option Nat
  nonceEnd  : Nat
  fails     : Nat
  lockEnd   : Nat
  log       : List ClearEntry
  clearing  : Option Clearing
  latchSeq  : Nat
  latchFl   : Nat
  deriving DecidableEq, Repr
/-! ### Core domain, time base and keep-alive domain -/

/-- Where the core domain stands (Table 16-5): `off` without core supplies, `held` while RESET_N is asserted
or a supply is missing that a start asks for,
`cooling` between steps 3 and 4 of a thermal restart (R334), `testing` before step 6 has completed, `sweeping`
before step 7 has, `running` after step 9. -/
inductive CorePhase where
  | off | held | cooling | testing | sweeping | running
  deriving DecidableEq, Repr, Inhabited

/-- What the monitors of Table 20-3 read, one for each supply that a start asks for, VPHY for VPHY09 and VPHY18 (R452). -/
structure Supplies where
  vcore : Bool
  vddio : Bool
  vdda  : Bool
  vgd   : Bool
  vphy  : Bool
  deriving DecidableEq, Repr

/-- Every supply of the core domain is valid. -/
def Supplies.all (x : Supplies) : Bool := x.vcore && x.vddio && x.vdda && x.vgd && x.vphy

/-- The core domain's supplies, uptime, start and Pace. `lowest` is the lowest aggregate Pace since it was last
cleared, none before the first window; `blkIndex` and `blkRefused` are SYS_BLKRST.index and .refused; `rstIn` is
RESET_N asserted. -/
structure CoreDomain where
  phase     : CorePhase
  uptime    : Nat
  startKind : Nat
  xrefGood  : Bool
  xrefOk    : Bool
  autoEn    : Bool
  pace      : Vector Nat 6
  busy      : Vector Nat 6
  aggregate : Nat
  lowest    : Option Nat
  paceLow   : Bool
  paceAbove : Nat
  warnArmed : Bool
  warnedAt  : Option Nat
  supplies  : Supplies
  blkIndex  : Nat
  blkRefused : Bool
  rstIn     : Bool
  deriving DecidableEq, Repr

/-- The low-power state the keep-alive domain holds (R265 to R269). -/
inductive LowPower where
  | awake | stabled | depot
  deriving DecidableEq, Repr, Inhabited

/-- What a CALENDAR_SET has loaded and the next X32 edge brings into force (R40), with the ticks it has waited while no edge
of X32 was seen. -/
structure CalendarLoad where
  seconds : Nat
  subsec  : Nat
  epoch   : Nat
  waited  : Nat
  deriving DecidableEq, Repr

/-- The keep-alive domain (R38): calendar, trim, wake configuration, shutdown words, PWR_EN. `frac` counts towards the
next X32 edge in 1/78125 of a subsecond, and `trimRun` towards the next count that the trim adds or drops, in ticks
times ppm (R43). -/
structure KeepAlive where
  vbak     : Bool
  seconds  : Nat
  subsec   : Nat
  frac     : Nat
  loading  : Option CalendarLoad
  trimRun  : Int
  epoch    : Nat
  valid    : Bool
  x32Ok    : Bool
  x32Runs  : Bool
  trim     : Int
  x32cl    : Nat
  cause    : Nat
  calDown  : Nat
  lowPower : LowPower
  leaving  : LowPower
  depotOut : Bool
  pwrEn    : Bool
  pwrHold  : Bool
  wakeHeld : Option Nat
  wakeCause : Nat
  winEn    : Nat
  winPol   : Nat
  busEn    : Bool
  alarmEn  : Bool
  chgEn    : Bool
  alarmS   : Nat
  deriving DecidableEq, Repr

/-- A Rule Book copy in MRAM (R410): the generation of its header, the image its body holds, and whether its CRC word
matches header and body. -/
structure BookCopy where
  crcOk : Bool
  gen   : Nat
  image : Regs
  deriving DecidableEq, Repr, Inhabited

/-- The Rule Book: both copies, the generation counter of the wear tables (Table 16-4), the image last loaded or committed
and where it came from (R412, R413), the copies to rewrite (0 A, 1 B) with word 0 of RULEBOOK_REPAIRED, and when a
given-up rewrite is tried again. -/
structure RuleBook where
  copyA    : BookCopy
  copyB    : BookCopy
  counter  : Nat
  loaded   : Regs
  source   : Nat
  rewrite  : List (Nat × Nat)
  retryAt  : Option Nat
  deriving DecidableEq, Repr

/-! ### Measurement Array and Fast Trip Array -/

/-- An edge or a hold as a delay line places it (R35): the uptime tick it follows, and the taps of delay after it. -/
structure Placed where
  tick : Nat
  taps : Nat
  deriving DecidableEq, Repr, Inhabited

/-- A piece of a Background Engine's work (R57): the uptime it began at, and the uptime its interval ends at. -/
structure WorkTime where
  began : Nat
  due   : Nat
  deriving DecidableEq, Repr, Inhabited

/-- One SAR converter's results and checks (R67 to R69, R75, R76). `work` is its offset and gain update; `instant` is
the edge position, counted from uptime 0, of its latest sample instant (R61, R65), and `hold` that instant as its line
placed it (R66). -/
structure Sar where
  instant  : Option Int
  hold     : Placed
  result   : Int
  exceeds     : Bool
  filtered : Int
  started  : Bool
  overRun  : Nat
  clearRun : Nat
  overEvt  : Bool
  overCnt  : Nat
  fails    : Nat
  failCnt  : Nat
  offset   : Int
  gain     : Nat
  work     : WorkTime
  deriving DecidableEq, Repr, Inhabited

/-- One coulomb converter (R71): latest result, results delivered, and the interval code in use. -/
structure Coulomb where
  result  : Int
  count   : Nat
  ivl     : Nat
  deriving DecidableEq, Repr, Inhabited

/-- The housekeeping converter (R73, R74, R490, R491): the latest code of each input, `none` before its first
conversion, the thermistor temperatures, the place in the frame and in the sequence, when the last conversion ended, how
long the junction has stood above 165 °C, and the converter whose turn for a cross-conversion it is, with the round of
turns (R75). -/
structure House where
  codes    : Vector (Option Nat) 96
  therm    : Vector (Option Int) 8
  position : Nat
  entry    : Nat
  doneAt   : Nat
  junction : Int
  hotSince : Option Nat
  turn     : Nat
  round    : WorkTime
  deriving DecidableEq, Repr

/-- The side of a catch point (Table 3-12); `deciding` is OFF after `en` was written 1, until its threshold
settles. -/
inductive Side where
  | off | deciding | fault | good
  deriving DecidableEq, Repr, Inhabited

/-- One catch point channel. `moving` is the mode a change in progress leads to, `reading` the last readback. -/
structure CatchPoint where
  side      : Side
  neverGood : Bool
  settling  : Bool
  moving    : Option Nat
  owner     : Option Nat
  rbCode    : Nat
  rbFails   : Nat
  deriving DecidableEq, Repr, Inhabited

/-- One DRVFLT input (R94): the level of its line behind the filter, true for high, and whether it is treated as
asserted since a start because it has not been seen deasserted. -/
structure DrvFlt where
  level   : Bool
  treated : Bool
  deriving DecidableEq, Repr, Inhabited

/-- The trip matrix: the 56 column latches, the leg columns a cycle row holds until the next period start (R91),
and the columns that R139 removed from the live mask of each leg's rows. -/
structure TripMatrix where
  latches : Nat
  cycled  : Nat
  removed : List (Nat × Nat)
  charged : Nat
  spared  : Nat
  asking  : Option Nat
  deriving DecidableEq, Repr
/-! ### Fuse bank -/

/-- One 72-bit read of a fuse copy: its 64 data bits, and its 8 check bits given as their difference from the
check bits the data bits call for (R420), so that every codeword has `syn = 0`. -/
structure FuseRead where
  data : BitVec 64
  syn  : BitVec 8
  deriving DecidableEq, Repr, Inhabited

/-- What one physical copy of a row reads at the low, nominal and high references, and in three further nominal
reads (R425). -/
structure FuseCopy where
  low     : FuseRead
  nominal : FuseRead
  high    : FuseRead
  more1   : FuseRead
  more2   : FuseRead
  more3   : FuseRead
  deriving DecidableEq, Repr, Inhabited

/-- One logical row: both copies, its shadow, the bits of the shadow's codeword that stand inverted (R52), and what
the last sensing found (R425 to R429). -/
structure FuseRow where
  copyA    : FuseCopy
  copyB    : FuseCopy
  shadow   : BitVec 64
  upset    : BitVec 72
  margA    : Bool
  margB    : Bool
  majority : Bool
  oneBlank : Bool
  oneFail  : Bool
  bothFail : Bool
  partSet  : Bool
  replaced : Bool
  deriving DecidableEq, Repr, Inhabited

/-- A programming run under R437 and R431. `fetch` is the command it belongs to, or none once that has ended. -/
structure FuseRun where
  row   : Nat
  value : BitVec 64
  fetch : Option Nat
  tag   : Nat
  deriving DecidableEq, Repr

/-- The fuse bank. `corrected` and `marginal`, a mask of rows, are those of the last sensing (Tables 17-5, 17-8);
`critical` is the mask of safety-critical groups, taken from row 25 at each start (R422); `asked` are the commands that
have asked for PROG, in that order. -/
structure FuseBank where
  rows      : Vector FuseRow 64
  lifecycle : Nat
  corrected : Nat
  marginal  : Nat
  critical  : Nat
  required  : Nat
  missing   : Nat
  vppOk     : Bool
  run       : Option FuseRun
  asked     : List Nat
  deriving DecidableEq, Repr

/-! ### Background engines, MRAM learned data -/

/-- One telemetry stream of BGE3 (R56, Table 18-10 and 18-11): settings, counters, the next due time, and a frame
read and not yet written. -/
structure Stream where
  en     : Bool
  words  : Nat
  period : Nat
  list   : List Nat
  frames : Nat
  drops  : Nat
  due    : Nat
  ready  : Option (List Byte)
  deriving DecidableEq, Repr, Inhabited

/-- One pair of delay lines (R36): taps per tick of the active line and of the twin, whether the twin is being
measured, whether a swap waits, its calibration work, and whether CAL_STALE stands. -/
structure DelayPair where
  taps      : Nat
  twin      : Nat
  measuring : Bool
  swap      : Bool
  work      : WorkTime
  stale     : Bool
  deriving DecidableEq, Repr, Inhabited

/-- The four Background Engines (R46 to R58). `works` are their pieces of work, and `late` has bit i for work i that
was told late and has not completed since: 0 to 6 the works of Table 18-8, 7 the X32 measurement, 8 + i the frames of
stream i; `pages` counts page writes and `worn` is what was last committed of it. -/
structure Background where
  stopped   : Nat
  late      : Nat
  works     : Vector WorkTime 16
  sweeping  : Bool
  sweepCmd  : Option Nat
  uncounted : Nat
  secStart  : Nat
  secCount  : Nat
  fixes     : List (Nat × Nat × Nat)
  pages     : List (Nat × Nat)
  worn      : List (Nat × Nat)
  wearTold  : Nat
  spares    : Nat
  moved     : List (Nat × Nat)
  retiring  : List Nat
  streams   : Vector Stream 8
  sweptAt   : Vector Nat 4
  lines     : Vector DelayPair 112
  deriving DecidableEq, Repr

/-- A hold-off record in MRAM (R212, R42): its deadline in calendar time, its length, and whether the calendar was
valid when it was written. -/
structure HoldRecord where
  live     : Bool
  deadline : Nat
  length   : Nat
  calValid : Bool
  retries  : Nat
  cause    : Nat
  endUp    : Nat
  deriving DecidableEq, Repr, Inhabited

/-! ### Eulum Loop Engine: groups, legs, lanes -/

/-- One regulator of a group (R102, R109, R110, R114): its reference channel, its error history, its last proposal
and the samples it has won. `r`, `t` in Q20.28, `e1`, `e2`, `e3`, `u` in Q20.20. -/
structure Channel where
  r    : Int
  t    : Int
  s    : Nat
  e1   : Int
  e2   : Int
  e3   : Int
  u    : Int
  wins : Nat
  deriving DecidableEq, Repr, Inhabited

/-- States of a group, coded as ELE_GRP_CTRL.state codes them (Table 4-3, Table 4-5). -/
inductive GroupState where
  | off | starting | softStart | run | stopping | faulted
  deriving DecidableEq, Repr, Inhabited

/-- The design frequencies of a regulator last loaded at the Standard level (R127, R166). -/
structure Design where
  third : Bool
  fI    : Nat
  fz1   : Nat
  fz2   : Nat
  fp1   : Nat
  fp2   : Nat
  deriving DecidableEq, Repr, Inhabited

/-- What waits for a group's next sample boundary (R120): the first stage of a GROUP_TARGET, a COEFF_LOAD, a
MODEL_LOAD, a classified phase, a change to or from the ROM loop, a rate change. -/
inductive Pend where
  | target (fetch : Nat) (t : Int) (s : Nat) (base : Nat) (result : Nat)
  | coeffs (fetch : Nat) (reg : Nat) (codes : List Int) (design : Option Design)
  | model  (fetch : Nat) (images : List (Nat × Nat))
  | health (leg : Nat) (code : Nat)
  | rom    (on : Bool)
  | rate   (slower : Bool)
  | write  (off : Nat) (value : Nat)
  deriving DecidableEq, Repr

/-- One sample of the pre-bias history (R123): output voltage, input voltage, and each phase's current. -/
structure PreSample where
  vout : Int
  vin  : Int
  cur  : List (Nat × Int)
  deriving DecidableEq, Repr

/-- The plant model of a group (R131, R165) with the values of sample n - 1 and the model term of the samples since
the last evaluation. -/
structure GroupModel where
  vhat   : Int
  iload  : Int
  rhoV   : Int
  d0     : Int
  vin0   : Int
  vout0  : Int
  d1     : Int
  vin1   : Int
  vout1  : Int
  vls    : List Int
  ready  : Bool
  steps  : Nat
  deriving DecidableEq, Repr, Inhabited

/-- The model and classification of a phase, held at its lower leg (R131 to R142). -/
structure PhaseModel where
  ihat   : Int
  pred   : Int
  rho    : Int
  delta  : Int
  i0     : Int
  i1     : Int
  count  : Nat
  minus  : Bool
  exceeds   : Bool
  same   : Bool
  first  : Int
  predLo : Int
  predHi : Int
  inside : Option Nat
  above  : Bool
  below  : Bool
  deriving DecidableEq, Repr, Inhabited

/-- The live rate of a group (R166, R174, R446) with the coefficient codes in force, 7 for each regulator, and how
often the period stands doubled. -/
structure GroupRate where
  period  : Nat
  spp     : Nat
  pps     : Nat
  base    : Nat
  doubled : Nat
  codes   : List Int
  designs : List (Option Design)
  deriving DecidableEq, Repr, Inhabited

/-- Timers and counts of a group: uptimes at which conditions began, counters, and the commands in flight. -/
structure GroupWatch where
  ssSince    : Nat
  runSince   : Nat
  disSince   : Nat
  nonVreg    : Option Nat
  vregSince  : Option Nat
  limiting   : Bool
  limWho     : Nat
  warnSince  : Option Nat
  feSince    : Option Nat
  feTold     : Bool
  shedSince  : Nat
  lastCheck  : Nat
  lastModel  : Nat
  lateTold   : Bool
  overrun    : Nat
  itemRuns   : Bool
  skipped    : Nat
  satCount   : Nat
  missing    : List Nat
  hiccups    : Nat
  restartAt  : Option Nat
  automatic  : Bool
  enables    : List Nat
  disables   : List Nat
  targeting  : Option Nat
  lastLane   : Nat
  deriving DecidableEq, Repr, Inhabited

/-- The input record of a sample item (R156): what its lane read. `quantities` holds x of the four regulators,
`refs` their references with the share trim, `histories` the three errors of each, and `floor` the d_pb of R124 while
it acts. -/
structure ItemInput where
  rom        : Bool
  regs       : List Nat
  quantities : List Int
  refs       : List Int
  auxBelow   : Bool
  histories  : List (Int × Int × Int)
  codes      : List (List Int)
  third      : List Bool
  y1         : Int
  y2         : Int
  y3         : Int
  floor      : Option Int
  lo         : Int
  hi         : Int
  deriving DecidableEq, Repr, Inhabited

/-- What a sample item computes (R156): the error, proposal and saturations of each regulator, the winner with its
proposal, y and the applied demand. -/
structure ItemOutput where
  props   : List (Nat × Int × Int × Nat)
  winner  : Nat
  least   : Int
  y       : Int
  applied : Nat
  deriving DecidableEq, Repr, Inhabited

/-- The record of a sample item, with the lane that ran it. -/
structure ItemRecord where
  group  : Nat
  lane   : Nat
  input  : ItemInput
  output : ItemOutput
  deriving DecidableEq, Repr

/-- What a model item reads of one phase (R131, R134, R139): its model, its current at samples n and n - 1, and whether it
is GOOD or SENSE_SUBSTITUTED. -/
structure PhaseInput where
  phase       : Nat
  good        : Bool
  substituted : Bool
  ihat        : Int
  i0          : Int
  past        : Int
  deriving DecidableEq, Repr

/-- The input record of a model item (R131, R156, R165): whether an evaluation is due, the codes in force, the shifts obs
and ld, the mean of the model term, the phases, and the node. -/
structure ModelInput where
  due    : Bool
  kl     : Int
  kr     : Int
  kc     : Int
  obs    : Nat
  ld     : Nat
  vl     : Int
  phases : List PhaseInput
  vhat   : Int
  iload  : Int
  vout   : Int
  deriving DecidableEq, Repr

/-- What a model item leaves of one phase: its model state and its residuals. -/
structure PhaseOutput where
  phase : Nat
  pred  : Int
  rho   : Int
  ihat  : Int
  delta : Int
  deriving DecidableEq, Repr, Inhabited

/-- What a model item leaves (R131, R134, R156). -/
structure ModelOutput where
  phases : List PhaseOutput
  vhat   : Int
  iload  : Int
  rhoV   : Int
  deriving DecidableEq, Repr

/-- The record of a model item, with the lane that ran it. -/
structure ModelRecord where
  group  : Nat
  lane   : Nat
  input  : ModelInput
  output : ModelOutput
  deriving DecidableEq, Repr

/-- A record of either kind of work item. -/
inductive WorkRecord where
  | sample (r : ItemRecord)
  | model (r : ModelRecord)
  deriving DecidableEq, Repr

/-- A regulation group. `instant` is the edge position of its latest completed sample (R65), `hold` that instant as
its line placed it (R66); `strings` are those of its charge limit since it left its stopped state (R261). `y1` to `y3`
are the output history, `applied` the applied demand in Q0.16, `stopCeil` the stop ceiling in Q0.16 times 40,000,
`floor` whether the soft-start floor acts. -/
structure Group where
  state    : GroupState
  ch       : Vector Channel 4
  y1       : Int
  y2       : Int
  y3       : Int
  applied  : Nat
  winner   : Nat
  clampHi  : Bool
  clampLo  : Bool
  floor    : Bool
  dpb      : Int
  trim     : Int
  ownStep  : Nat
  stopCeil : Nat
  waiting  : Bool
  rom      : Bool
  instant  : Option Int
  hold     : Placed
  strings  : List Nat
  samples  : List PreSample
  pend     : List Pend
  rate     : GroupRate
  model    : GroupModel
  item     : Option ItemRecord
  modelItem : Option ModelRecord
  watch    : GroupWatch
  deriving DecidableEq, Repr

/-- States of a leg, coded as PTU_LEG_STATUS.state codes them (Table 6-3). -/
inductive LegState where
  | idle | switching | shed | parked | joining | discharging
  deriving DecidableEq, Repr, Inhabited

/-- Health of a phase, coded as ELE_LEG_HEALTH codes it (Table 5-17). -/
inductive Health where
  | good | legOpen | substituted | saturated
  deriving DecidableEq, Repr, Inhabited

/-- What a leg does at its next period start (R120, R179, R194, Table 6-3): a park carries the commands that wait for
it. -/
inductive LegNext where
  | none | shed | restore | park (fetches : List Nat) | begin | stop
  deriving DecidableEq, Repr, Inhabited

/-- How far a leg has come since its group, or its join, started it (R180, Table 6-3): it waits for its first period
start, is in its first period, or past it. -/
inductive LegRun where
  | waiting | first | later
  deriving DecidableEq, Repr, Inhabited

/-- The edges a leg takes at its load points (Table 6-2): positions after the period start in edge codes, and
whether each output is produced. `codes` is the W or S taken, `skips` how many of its intervals are not produced. -/
structure Edges where
  codes : Nat
  aOn   : Bool
  aFrom : Nat
  aTo   : Nat
  bOn   : Bool
  bFrom : Nat
  bTo   : Nat
  skips : Nat
  deriving DecidableEq, Repr, Inhabited

/-- The edges of a period as the delay lines of a leg's outputs place them (R35): on and off of A, on and off of B. -/
structure PlacedEdges where
  aOn  : Placed
  aOff : Placed
  bOn  : Placed
  bOff : Placed
  deriving DecidableEq, Repr, Inhabited

/-- A leg. Pair state is held at both legs, phase state at the lower. `startAt` is the edge position of its latest
period start and `half` whether the centre of that period has passed (R172, R178); `unweighed` marks a joining phase
without its weight until the next sample boundary (R182); `cutRows` and `cutCols` are the row columns R139 took away.
`dtA` to `parkTime` are the settings taken at its latest period start (R179). -/
structure Leg where
  state     : LegState
  health    : Health
  parkCause : Nat
  next      : LegNext
  model     : PhaseModel
  edges     : Edges
  placed    : PlacedEdges
  startAt   : Option Nat
  half      : Bool
  unweighed : Bool
  cutRows   : List Nat
  cutCols   : Nat
  offset    : Nat
  target    : Nat
  skipped   : Nat
  cycles    : Nat
  cbc       : Nat
  cycled    : Bool
  joinSince : Nat
  joinMs    : Nat
  joinBegun : Bool
  unpark    : Option Nat
  absent    : Option Nat
  dtA       : Nat
  dtB       : Nat
  minPulse  : Nat
  parkAuto  : Bool
  parkTime  : Nat
  run       : LegRun
  deriving DecidableEq, Repr, Inhabited

/-- States of a lane, coded as ELE_LANE_STATUS.state codes them (Table 5-3). -/
inductive LaneState where
  | scheduled | spare | testing | retired
  deriving DecidableEq, Repr, Inhabited

/-- A lane: its state, the state a test came from, its retirement cause, the uptimes of its strikes, the checks it
must still pass under R159, and the cause lane health in MRAM holds (0: not retired). -/
structure Lane where
  state   : LaneState
  back    : LaneState
  cause   : Nat
  strikes : List Nat
  toPass  : Nat
  health  : Nat
  deriving DecidableEq, Repr, Inhabited

/-- A vote that waits (R158): the lane that ran the item and the one that checked it. -/
structure Vote where
  group   : Nat
  ran     : Nat
  checker : Nat
  since   : Nat
  forced  : Bool
  deriving DecidableEq, Repr

/-- A FAULT_RESUME in progress (R152, R329): the command, or none for tests that lane health called for (R313), its
stage (2 testing lanes, 3 leaving Single-Line Working), the named retired lanes still under test, the lanes whose turn
is to come, whether the SRAM sweep runs, whether it has found a double-bit error, and the lanes left untested because no
other could run items. -/
structure Resuming where
  fetch    : Option Nat
  stage    : Nat
  named    : List Nat
  turn     : List Nat
  sweeping : Bool
  found    : Bool
  untested : List Nat
  deriving DecidableEq, Repr

/-- Lanes, voting and the overrun policy. `queue` holds the records of struck lanes' items that must be checked
(R159). -/
structure Supervision where
  lanes      : Vector Lane 6
  queue      : List WorkRecord
  votes      : List Vote
  defer      : Nat
  reduced    : List Nat
  stepAt     : Nat
  restoreAt  : Nat
  overrunAt  : Option Nat
  overTold   : Nat
  highSince  : Option Nat
  lowSince   : Option Nat
  resuming   : Option Resuming
  deriving DecidableEq, Repr
/-! ### Feed Controllers -/

/-- States of a feed, coded as FC_CTRL.state codes them (Table 7-1). -/
inductive FeedState where
  | off | starting | inrush | on | blocked | tripped | locked
  deriving DecidableEq, Repr, Inhabited

/-- Where a start came from (R203, R223): a command or an automatic start at a start, a return from BLOCKED, or an
automatic retry. -/
inductive StartFrom where
  | fresh | blocked | retry
  deriving DecidableEq, Repr, Inhabited

/-- A feed. `tm` is the result period of its current converter when it last ran (R200), `rampFrom` the V_out from
which its ramp reference rises (R205), in Q0.15. `d1`, `d2` and `tj` in 2^-32 K or °C. `vins` holds the last V_in
results, newest first, in Q0.15 of full scale; `blockedAt` is when BLOCKED was entered last and `blockedFor` the stays before that
one since FEED_BLOCKED; `wanted` marks a FEED_SWITCH on that waits in TRIPPED; `warn` is FWARNf
asserted. -/
structure Feed where
  state     : FeedState
  cause     : Nat
  retries   : Nat
  source    : StartFrom
  cmds      : List Nat
  wanted    : Bool
  since     : Nat
  blockedAt : Nat
  blockedFor : Nat
  tm        : Nat
  rampFrom  : Int
  d1        : Int
  d2        : Int
  tj        : Int
  vins      : List Int
  uvRun     : Nat
  revRun    : Nat
  backRun   : Nat
  warn      : Bool
  warnMask  : Nat
  clearAt   : Option Nat
  hold      : HoldRecord
  told      : List Nat
  deriving DecidableEq, Repr, Inhabited
/-! ### Branch Channels -/

/-- States of a branch, coded as BC_CTRL.state codes them (Table 8-1). -/
inductive BranchState where
  | off | starting | ramp | on | limiting | tripped | locked
  deriving DecidableEq, Repr, Inhabited

/-- A branch. `t1` to `t3` in 2^-32 °C, `p` in 2^-32 µW. `latchDue` is the cause a column latch left for the next model
step (0 none), and the next three mark exits due at that step (R224). `awaiting` holds a granted start until its
inputs have results (R491); `pump` is its charge pump running (R226); `rampFrom` is the value from which its ramp
reference rises since `rampAt` (R228), in 2^-16 µV. -/
structure Branch where
  state    : BranchState
  cause    : Nat
  retries  : Nat
  source   : StartFrom
  cmds     : List Nat
  wanted   : Bool
  awaiting : Bool
  pump     : Bool
  rampFrom : Nat
  rampAt   : Nat
  since    : Nat
  limFrom  : Nat
  letGo    : Option Nat
  lim      : Bool
  limits   : Nat
  t1       : Int
  t2       : Int
  t3       : Int
  p        : Nat
  latchDue : Nat
  limDue   : Bool
  rampDue  : Bool
  gateDue  : Bool
  hold     : HoldRecord
  told     : List Nat
  deriving DecidableEq, Repr, Inhabited

/-- The sum check of a bank (R222): its values in mA at the last check. -/
structure Bank where
  mismatch : Bool
  count    : Nat
  sum      : Int
  total    : Nat
  deriving DecidableEq, Repr, Inhabited
/-! ### Battery shelf -/

/-- States of a string, coded as BSM_STR_CFG.state codes them (Table 9-1). -/
inductive StringState where
  | opened | starting | precharge | closing | connected | opening | faulted
  deriving DecidableEq, Repr, Inhabited

/-- An estimator checkpoint in MRAM (R263). Charges in 1/K mAh, K = 2^23 * 3,600,000; `u` in 1/(10^6 K) mAh; offsets
in 2^-40 of full charge; `age` in seconds; `final` when a shutdown in sight wrote it. -/
structure Checkpoint where
  c     : Int
  q     : Int
  u     : Int
  e     : Int
  e0    : Int
  low   : Bool
  span  : Bool
  age   : Nat
  cal   : Nat
  final : Bool
  deriving DecidableEq, Repr, Inhabited

/-- What a coulomb interval of `ms` milliseconds adds to q (in 1/K mAh) and to u (in 1/(10^6 K) mAh) (R250, R252). -/
structure Counted where
  dq : Int
  du : Int
  ms : Nat
  deriving DecidableEq, Repr, Inhabited

/-- The charge estimator of a string (R250 to R263). `low` is set while lo is 0; `span` is the learning span;
`anchored` the uptime from which `age` counts on; `full`, `empty` the uptimes at which an anchor's conditions began.
`live` is set once this start has restored it; `early` holds, newest first, the intervals that ended before that. -/
structure Estimator where
  c        : Int
  q        : Int
  u        : Int
  e        : Int
  e0       : Int
  low      : Bool
  span     : Bool
  age      : Nat
  anchored : Nat
  cal      : Nat
  used     : Bool
  stale    : Bool
  full     : Option Nat
  empty    : Option Nat
  lowRun   : Nat
  ckpt     : Option Checkpoint
  prior    : Option Checkpoint
  ckptAt   : Nat
  live     : Bool
  early    : List Counted
  deriving DecidableEq, Repr, Inhabited

/-- A string (R239 to R247). `kas` is the contact level that counts (true: closed) and `kasLast` the last sample;
`pc` and `kd` are the drives, `held` the coil at its hold duty; `preEnd` is the end of the last precharge. -/
structure BString where
  state   : StringState
  cause   : Nat
  kas     : Bool
  kasLast : Bool
  pc      : Bool
  kd      : Bool
  held    : Bool
  kdAt    : Nat
  since   : Nat
  preEnd  : Nat
  gapping : Bool
  awaiting : Bool
  ons     : List Nat
  offs    : List Nat
  dvRun   : Nat
  cutFrom : Option Nat
  wait    : Option Nat
  shut    : Option Nat
  limit   : Nat
  cold    : Bool
  closes  : Nat
  breaks  : Nat
  told    : List Nat
  ofs     : Nat
  est     : Estimator
  deriving DecidableEq, Repr, Inhabited

/-- An entry to a low-power state in progress (R265, R268): its command if it has one, whether Depot is its target,
the stage (1 opening, 2 flushing, 3 shutting down), the sequence its flush must reach, and when PWR_EN goes low. -/
structure Departing where
  fetch : Option Nat
  depot : Bool
  stage : Nat
  goal  : Nat
  offAt : Nat
  deriving DecidableEq, Repr

/-- What the Battery Shelf Manager holds for the shelf as a whole (R248, R265). -/
structure Shelf where
  run     : Nat
  since   : Option Nat
  lowFrom : Option Nat
  charge  : Int
  leaving : Option Departing
  deriving DecidableEq, Repr, Inhabited

/-! ### Timetable and point-of-load buses -/

/-- States of a rail, coded as TT_RAIL_CFG.state codes them (Table 10-11). -/
inductive RailState where
  | off | waiting | ramping | good | late | falling | failedDown
  deriving DecidableEq, Repr, Inhabited

/-- A rail. `level` is the filtered level of RMONn, true for high; `status` the last STATUS_WORD and `read`
whether it was read since the rail's last start or off action; `dis` the end of RDISn's active time. -/
structure Rail where
  state   : RailState
  level   : Bool
  ren     : Bool
  dis     : Option Nat
  since   : Nat
  status  : Nat
  read    : Bool
  fails   : Nat
  vin     : Int
  vout    : Int
  iout    : Int
  temp    : Int
  version : Nat
  deriving DecidableEq, Repr, Inhabited

/-- States of the Timetable, coded as TT_CTRL.state codes them (Table 10-2). -/
inductive TimetableState where
  | down | rising | up | falling | halted
  deriving DecidableEq, Repr, Inhabited

/-- A run up that waits for its condition (R274): its command if it has one, the rank it asks leave with, and the step
it begins at. -/
structure QueuedRun where
  fetch : Option Nat
  rank  : Nat
  step  : Nat
  deriving DecidableEq, Repr

/-- The Timetable (R270 to R287). `gap` is the end of the present step's gap; `busy` whether the step's rails are being
moved; `ringEnd` the deadline of a Bell frame that has to return; `shed` the rails Single-Line Working takes down, with
the step `shedStep` counting down while `shedGap` or `shedBusy` stands. -/
structure Timetable where
  state    : TimetableState
  step     : Nat
  queued   : Option QueuedRun
  fetch    : Option Nat
  rank     : Nat
  taken    : Nat
  gap      : Option Nat
  busy     : Bool
  ringEnd  : Option Nat
  partly   : Bool
  downAt   : Nat
  haltAt   : Nat
  drive    : Bool
  level    : Bool
  lastUp   : Bool
  lastStep : Nat
  frameErr : Nat
  lost     : Nat
  shed     : Nat
  shedStep : Option Nat
  shedGap  : Option Nat
  rails    : Vector Rail 16
  deriving DecidableEq, Repr

/-- What a bus transaction is for. -/
inductive BusUse where
  | page
  | start (rail : Nat) (last : Bool)
  | off (rail : Nat)
  | poll (rail : Nat)
  | tele (rail code : Nat)
  | alertRead
  | user (fetch : Nat)
  deriving DecidableEq, Repr

/-- One SMBus transaction of a PMBus master, waiting or running (R288 to R292): its rank under R291, the address, the
page it needs, the bytes written and the number read, whether it opens a sequence of commands. -/
structure BusItem where
  use   : BusUse
  rank  : Nat
  addr  : Nat
  page  : Option Nat
  code  : Nat
  wr    : List Byte
  rd    : Nat
  lead  : Bool
  tries : Nat
  deriving DecidableEq, Repr

/-- A PMBus master. `paged` is the address and page last written by the Timetable and still in force; `pollAt` and `teleAt`
are when STATUS_WORD and the READ values are polled next (R289). -/
structure PmbusMaster where
  queue   : List BusItem
  current : Option BusItem
  paged   : Option (Nat × Nat)
  alert   : Bool
  nack    : Nat
  pecErr  : Nat
  timeout : Nat
  pollAt  : Nat
  teleAt  : Nat
  deriving DecidableEq, Repr, Inhabited

/-- One AVSBus frame of a master: what it is for (a command's fetch number, a version read, a status read after an
alert), and its content. -/
inductive AvsUse where
  | version
  | status
  | user (fetch : Nat)
  deriving DecidableEq, Repr

/-- An AVSBus frame waiting or running. -/
structure AvsItem where
  use  : AvsUse
  cmd  : Nat
  typ  : Nat
  sel  : Nat
  data : Nat
  again : Bool
  deriving DecidableEq, Repr

/-- An AVSBus master. `syncAt` is when it resynchronises next (R293), `syncOwed` that a frame has held that up. -/
structure AvsMaster where
  queue   : List AvsItem
  current : Option AvsItem
  last    : Nat
  alert   : Bool
  crcErr  : Nat
  syncAt  : Nat
  syncOwed : Bool
  deriving DecidableEq, Repr, Inhabited


/-! ### Test access port (R461 to R463) -/

/-- The sixteen controller states of IEEE 1149.1. -/
inductive TapState where
  | reset | idle | selectDr | captureDr | shiftDr | exit1Dr | pauseDr | exit2Dr | updateDr
  | selectIr | captureIr | shiftIr | exit1Ir | pauseIr | exit2Ir | updateIr
  deriving DecidableEq, Repr

/-- The test access port: controller state, instruction register and its shift stage, the bypass and identification
stages, and the boundary scan register with its update stage, one cell for each of 167 balls. -/
structure Tap where
  state  : TapState
  ir     : BitVec 4
  irSh   : BitVec 4
  bypass : Bool
  ident  : BitVec 32
  scan   : BitVec 167
  update : BitVec 167
  deriving DecidableEq, Repr

/-! ### Work the device still owes inside one command -/

/-- What one effect of a command calls for next, before the command is whole (spec/95_what_each_step_holds.md):
fetched commands that may now begin, a Token Office evaluation, a grant or a give-up told to its requester, a
column latch told to its owner, a stop line, Single-Line Working, a restart, a block reset, a buffer fill. -/
inductive Work where
  | begin
  | office
  | granted (slot : Nat)
  | gaveUp (slot : Nat)
  | latched (col row : Nat)
  | cycled (col : Nat)
  | stopLine (r : Res) (code : Nat)
  | enterSlw (cause : Nat)
  | restart (thermal : Bool)
  | blockReset (r : Res)
  | refill (g : Nat)
  | laneStrike (l : Nat)
  | laneStall (l : Nat)
  | engineStall (e : Nat)
  | hostRevert
  | halt
  | fill
  | bound
  | dropped
  | groupMoved (g : Nat)
  | laneTested
  | cooled
  | depotAuto
  deriving DecidableEq, Repr

/-! ### The device and the state -/

/-- Everything the BK4824 holds. `due` and `out` are the model's own: the work still owed inside the running
command (empty between commands), and what the last command sent outward. `fresh` numbers free values. -/
structure Dev where
  core   : CoreDomain
  ka     : KeepAlive
  cfg    : Regs
  book   : RuleBook
  hqi    : Hqi
  ledger : List LedgerEntry
  sp     : SafetyPort
  office : Office
  il     : Interlocking
  tr     : TrainRegister
  sars   : Vector Sar 48
  ccs    : Vector Coulomb 4
  house  : House
  cps    : Vector CatchPoint 128
  drv    : Vector DrvFlt 24
  trip   : TripMatrix
  fuse   : FuseBank
  bge    : Background
  groups : Vector Group 16
  legs   : Vector Leg 24
  sup    : Supervision
  feeds  : Vector Feed 4
  branches : Vector Branch 24
  banks  : Vector Bank 4
  strings : Vector BString 4
  shelf  : Shelf
  tt     : Timetable
  pmbus  : Vector PmbusMaster 4
  avs    : Vector AvsMaster 2
  tap    : Tap
  startCount : Nat
  due    : List Work
  out    : List Out
  fresh  : Nat
  deriving DecidableEq, Repr

end Sys2Proof.Machine
end

