-- ==== Sys2Proof/Machine/Reset.lean ====
section
/-! DEFINITION. The device after a power-on reset: every item at the value a Reset column or rule gives it, else at the
value a log entry names (spec/00_scope.md R9, spec/16 R418, spec/17 Table 17-1; log entries 1, 3, 5, 8). -/
namespace Sys2Proof.Machine

/-! ### The Host Queue Interface and the safety port -/

/-- Reset vector of a ring (Table 14-26). -/
def ringVec (r : Nat) : Nat := if 4 ≤ r && r < 8 then r - 4 else if 9 ≤ r then r - 5 else 0

/-- A ring as reset leaves it. -/
def ringReset (r : Nat) : Ring := ⟨0, 0, false, false, 0, ringVec r, 0, 0, false⟩

/-- Every ring as reset leaves it. -/
def ringsReset : Vector Ring 11 :=
  ⟨#[ringReset 0, ringReset 1, ringReset 2, ringReset 3, ringReset 4, ringReset 5, ringReset 6, ringReset 7,
     ringReset 8, ringReset 9, ringReset 10], rfl⟩

/-- HQI_EVT_VEC word `w` at reset: every source s maps to vector 8 + floor(s / 32) (R375). -/
def evtVecReset (w : Nat) : Nat :=
  (List.range 6).foldl (fun acc j => acc + (8 + (6 * w + j) / 32) * 2 ^ (5 * j)) 0

/-- HQI_EVT_VEC at reset. -/
def evtVecsReset : Vector Word 32 :=
  (List.range 32).foldl (fun v w => fileMod v w (fun _ => BitVec.ofNat 32 (evtVecReset w))) (Vector.replicate 32 0)

/-- An MSI-X vector at reset: masked, as the PCI Express Base Specification gives (log entry 8). -/
def msixReset : MsixVec := ⟨0, 0, 0, true, false, 0, false⟩

/-- What the host sets in configuration space, at its defaults: nothing (log entry 8). -/
def functionReset : FunctionSetup := ⟨0, 0, false, false, false, false⟩

/-- Response status of a first frame (Table 14-15). -/
def spNoPrevious : Nat := 6

/-- A response word (Table 14-15, R390): the data are 0 when the status is not OK. -/
def spResponse (status cmd data : Nat) : Nat :=
  let body := status % 16 * 2 ^ 20 + cmd % 16 * 2 ^ 16 + (if status = 0 then data % 2 ^ 16 else 0)
  body * 2 ^ 8 + crc8 [BitVec.ofNat 8 (body / 2 ^ 16), BitVec.ofNat 8 (body / 2 ^ 8), BitVec.ofNat 8 body]

/-- The response a start leaves for its first frame (R389). -/
def spFirst : Nat := spResponse spNoPrevious 0 0

/-- The HQI at power-up (Tables 14-19 to 14-28). -/
def hqiReset : Hqi :=
  ⟨false, 0, 0, 0, false, 0, 0, 0, 0, 0, ringsReset, evtVecsReset, Vector.replicate 32 msixReset, 0, 0, [], [], 0, 0,
   functionReset, 0⟩

/-- The safety port at power-up (R389). -/
def spReset : SafetyPort := ⟨0, 0, 0, 0, 0, spFirst, 0, 0, 0, 0⟩

/-! ### Office, Interlocking, Train Register -/

/-- The Token Office with every slot empty (R418). -/
def officeReset : Office := ⟨Vector.replicate 79 default, default, [], 0⟩

/-- The Interlocking with nothing reported. -/
def ilReset : Interlocking :=
  ⟨[], 0, ⟨false, false, 0, 0, 0, 0, 0, 0, 0, 0, ⟨0, 0⟩⟩, [], false, 0, 0, 0, none, false, false, false, false, 0, 0,
   [], [], [], [], none, none, 0, 0, [], [], none, false, []⟩

/-- The Train Register: a blank MRAM ring, and the named value of `reserve` (log entry 1). -/
def trReset : TrainRegister :=
  ⟨0, 0, Vector.replicate 8 0, 0, [], 0, 0, 0, 0, 0, none, 0, false, [], 0, 0, false, false, 0, none, 0, 0, 0, [], none, 0, 0⟩

/-! ### Core domain, keep-alive domain, Rule Book -/

/-- The core domain without supplies. -/
def coreReset : CoreDomain :=
  ⟨.off, 0, 0, true, true, true, Vector.replicate 6 0, Vector.replicate 6 0, 0, none, false, 0, true, none,
   ⟨false, false, false, false, false⟩, 0, false, false⟩

/-- The keep-alive domain when VBAK is applied after a loss (R38, R39, R41, R266, Tables 2-3, 2-5, 9-18, 9-19); `cl` is
the X32 load capacitance of fuse row 16. -/
def kaReset (cl : Nat) : KeepAlive :=
  ⟨true, 0, 0, 0, none, 0, 0, false, true, true, 0, cl, 0, 0, .awake, .awake, false, true, false, none, 0, 0, 0, false, false,
   true, 0⟩

/-- Blank Rule Book copies (log entry 1). -/
def bookReset : RuleBook := ⟨⟨false, 0, []⟩, ⟨false, 0, []⟩, 0, [], 0, [], none⟩

/-! ### Measurement, trips, fuses, engines -/

/-- The housekeeping converter before any conversion (R491). -/
def houseReset : House := ⟨Vector.replicate 96 none, Vector.replicate 8 none, 0, 0, 0, 0, none, 0, default⟩

/-- The trip matrix with nothing latched. -/
def tripReset : TripMatrix := ⟨0, 0, [], 0, 0, none⟩

/-- A copy of a fuse row that reads the same at every reference. -/
def fuseCopyOf (v : BitVec 64) : FuseCopy :=
  let x : FuseRead := ⟨v, 0⟩
  ⟨x, x, x, x, x, x⟩

/-- A fuse row before its first sensing. -/
def fuseRowOf (v : BitVec 64) : FuseRow :=
  ⟨fuseCopyOf v, fuseCopyOf v, 0, 0, false, false, false, false, false, false, false, false⟩

/-- The fuse rows as the vendor delivers a device, in Commissioning (R421): rows 0 to 23 and 56 programmed, rows 1 to 23
with values the manual does not give (DESIGN CHOICE, log entry 5). -/
def fuseRowsReset : Vector FuseRow 64 :=
  Vector.ofFn (fun (r : Fin 64) =>
    if r.val = 0 then fuseRowOf 0x00004824000107A3
    else if r.val < 24 then fuseRowOf (BitVec.ofNat 64 r.val)
    else if r.val = 56 then fuseRowOf 0xFFFFFFFFFFFFFFFF
    else fuseRowOf 0)

/-- The fuse bank before its first sensing. -/
def fuseBankReset : FuseBank := ⟨fuseRowsReset, 0, 0, 0, 0, 0, 0, false, none, []⟩

/-- The Background Engines on a fresh MRAM: 16 spare pages. -/
def bgeReset : Background :=
  ⟨0, 0, Vector.replicate 16 default, false, none, 0, 0, 0, [], [], [], 0, 16, [], [], Vector.replicate 8 default,
   Vector.replicate 4 0,
   Vector.replicate 112 default⟩

/-! ### Groups, legs, lanes, power switches -/

/-- A channel of a group at rest. -/
def channelReset : Channel := ⟨0, 0, 0, 0, 0, 0, 0, 0⟩

/-- A group as every start from off leaves it. -/
def groupReset : Group :=
  ⟨.off, Vector.replicate 4 channelReset, 0, 0, 0, 0, 0, false, false, false, 0, 0, 0, 0, false, false, none, default, [],
   [], [], default, default, none, none, default⟩

/-- A leg as every start from off leaves it. -/
def legReset : Leg :=
  ⟨.idle, .good, 0, .none, default, default, default, none, false, false, [], 0, 0, 0, 0, 0, 0, false, 0, 0, false, none,
   none, 0, 0, 0, false, 0, .waiting⟩

/-- A lane that waits for its self-test, with the cause lane health holds. -/
def laneReset (health : Nat) : Lane := ⟨.testing, .scheduled, 0, [], 0, health⟩

/-- Lanes and voting at a start. -/
def supReset : Supervision := ⟨Vector.replicate 6 (laneReset 0), [], [], 0, [], 0, 0, none, 0, none, none, none⟩

/-- A feed that is OFF. -/
def feedReset : Feed := ⟨.off, 0, 0, .fresh, [], false, 0, 0, 0, 0, 0, 0, 0, 0, [], 0, 0, 0, false, 0, none, default, []⟩

/-- A branch that is OFF. -/
def branchReset : Branch :=
  ⟨.off, 0, 0, .fresh, [], false, false, false, 0, 0, 0, 0, none, false, 0, 0, 0, 0, 0, 0, false, false, false, default, []⟩

/-- A string that is OPEN, with no closing counted and no checkpoint. -/
def stringReset : BString :=
  ⟨.opened, 0, false, false, false, false, false, 0, 0, 0, false, false, [], [], 0, none, none, none, 0, false, 0, 0,
   [], 0, default⟩

/-- The battery shelf at a start. -/
def shelfReset : Shelf := ⟨0, none, none, 0, none⟩

/-- The Timetable DOWN with every rail off; HALT_N is taken high (log entry 1). -/
def ttReset : Timetable :=
  ⟨.down, 0, none, none, 0, 0, none, false, none, false, 0, 0, false, true, false, 0, 0, 0, 0, none, none,
   Vector.replicate 16 default⟩

/-- The test access port at its reset (R461, R462). -/
def tapReset : Tap := ⟨.reset, 0x2, 0, false, 0x248247CF, 0, 0⟩

/-- A catch point at reset: FTA_CP_STATUS reads all ones (Table 3-18). -/
def cpReset : CatchPoint := { (default : CatchPoint) with side := .fault, neverGood := true }

/-- The device right after a power-on reset, before its core supplies are valid: VBAK newly applied, the core domain
off, MRAM blank, the fuses as delivered (log entry 1). -/
def Dev.reset : Dev where
  core := coreReset
  ka := kaReset (Config.x32Vendor 0).toNat
  cfg := []
  book := bookReset
  hqi := hqiReset
  ledger := []
  sp := spReset
  office := officeReset
  il := ilReset
  tr := trReset
  sars := Vector.replicate 48 default
  ccs := Vector.replicate 4 default
  house := houseReset
  cps := Vector.replicate 128 cpReset
  drv := Vector.replicate 24 default
  trip := tripReset
  fuse := fuseBankReset
  bge := bgeReset
  groups := Vector.replicate 16 groupReset
  legs := Vector.replicate 24 legReset
  sup := supReset
  feeds := Vector.replicate 4 feedReset
  branches := Vector.replicate 24 branchReset
  banks := Vector.replicate 4 default
  strings := Vector.replicate 4 stringReset
  shelf := shelfReset
  tt := ttReset
  pmbus := Vector.replicate 4 default
  avs := Vector.replicate 2 default
  tap := tapReset
  startCount := 0
  due := []
  out := []
  fresh := 0

end Sys2Proof.Machine
end

