-- ==== Sys2Proof/Machine/State.lean ====
section
/-! DEFINITION. The state of the block model: the device, and the queue of commands that wait, first in, first out; the
reasons a step can stop; the state after reset. -/
namespace Sys2Proof.Machine

/-- The state: everything the BK4824 holds (Device.lean), and the commands that wait. -/
structure State where
  dev     : Dev
  pending : List Instr
  deriving DecidableEq, Repr

/-- Faults. The manual gives every event and every command an effect, or says that it changes nothing, and its words for
"undefined" are about values: no meaning of this model ends in a fault, and there is none to name. -/
inductive Fault where
  deriving DecidableEq, Repr

/-- Refusals. -/
inductive Refusal where
  /-- A command that has no meaning in the model, raised by the dispatch alone: safe. Every command has its meaning, so
  nothing raises it. -/
  | notModelled (mnemonic : String)
  deriving DecidableEq, Repr

/-- The block right after a power-on reset, with no command waiting. -/
def State.reset : State where
  dev := Dev.reset
  pending := []

/-- The state with its device replaced. -/
def State.put (s : State) (d : Dev) : State := { s with dev := d }

end Sys2Proof.Machine
end

