-- ==== Sys2Proof/Machine/Ops.lean ====
section
/-! DEFINITION. The shared operations every meaning is written from: time and time stamps, the Rule Book registers,
what the device sends outward, Train Register records and events, ring entries, messages, completions and the
ledger (spec/02 R32, R38, R39; spec/13 R338 to R347; spec/14 R364 to R383; spec/18 R439 to R445). -/
namespace Sys2Proof.Machine

/-! ### Time -/

/-- Uptime now (R32), in ticks of 25 ns. -/
def Dev.now (d : Dev) : Nat := d.core.uptime

/-- Ticks in one microsecond. -/
def ticksPerUs : Nat := 40
/-- Ticks in one millisecond. -/
def ticksPerMs : Nat := 40000
/-- Ticks in one second. -/
def ticksPerS : Nat := 40000000

/-- The core domain runs: its supplies are good, RESET_N is released and no thermal restart is held. -/
def Dev.coreRuns (d : Dev) : Bool :=
  match d.core.phase with
  | .off | .held => false
  | _ => true

/-- X32 edges reach the calendar (R38): VBAK present, X32 running, and not in Depot. -/
def KeepAlive.edges (k : KeepAlive) : Bool := k.vbak && k.x32Runs && k.lowPower != .depot

/-- The calendar counts (R38, R39). -/
def KeepAlive.ticks (k : KeepAlive) : Bool := k.edges && k.valid

/-- The calendar moved by `n` subseconds of 1/32768 s, seconds modulo 2^34 (R39). -/
def KeepAlive.addSub (k : KeepAlive) (n : Int) : KeepAlive :=
  let total := ((((k.seconds * 32768 + k.subsec : Nat) : Int) + n) % 562949953421312).toNat
  { k with subsec := total % 32768, seconds := total / 32768 }

/-- The loaded calendar comes into force (R40): seconds, subseconds, epoch and validity together (DEDUCED, log entry
119). -/
def KeepAlive.takeLoad (k : KeepAlive) (x : CalendarLoad) : KeepAlive :=
  { k with seconds := x.seconds, subsec := x.subsec, epoch := x.epoch, valid := true, loading := none }

/-- `n` X32 edges: the first brings a loaded calendar into force (R40). -/
def KeepAlive.count (k : KeepAlive) (n : Nat) : KeepAlive :=
  match n, k.loading with
  | 0, _ => k
  | m + 1, some x => (k.takeLoad x).addSub m
  | m + 1, none => if k.valid then k.addSub (m + 1 : Nat) else k

/-- Ticks times ppm after which the trim adds or drops one count: 10^6 / 32768 s in ticks (R43). -/
def trimSpan : Int := 1220703125

/-- The trim over `dt` ticks (R43): a count more or less whenever its interval has passed. -/
def KeepAlive.trimmed (k : KeepAlive) (dt : Nat) : KeepAlive :=
  if k.ticks then
    let acc := k.trimRun + k.trim * (dt : Int)
    let n := acc.tdiv trimSpan
    { k.addSub n with trimRun := acc - n * trimSpan }
  else k

/-- A load that waits while no edge of X32 is seen (R44). -/
def CalendarLoad.waitMore (x : CalendarLoad) (dt : Nat) : CalendarLoad := { x with waited := x.waited + dt }

/-- The calendar over `dt` uptime ticks: 32768 subseconds are 40 million ticks, so one tick adds 64/78125 of a
subsecond; the remainder is kept. Where an edge brings a loaded calendar into force, the trim acts on the old calendar
before it and on the new one after it (R40, R43). -/
def KeepAlive.elapse (k : KeepAlive) (dt : Nat) : KeepAlive :=
  if k.edges then
    let acc := k.frac + 64 * dt
    let n := acc / 78125
    let after := if k.loading.isSome && n != 0 then (acc - 78125) / 64 else dt
    { ((k.trimmed (dt - after)).count n).trimmed after with frac := acc % 78125 }
  else if k.vbak && !k.x32Runs then { k with loading := k.loading.map (fun x => x.waitMore dt) }
  else k

/-- `dt` ticks pass. Uptime counts while the core runs (R32); the calendar counts on its own (R38). -/
def Dev.pass (d : Dev) (dt : Nat) : Dev :=
  { d with core := if d.coreRuns then { d.core with uptime := (d.core.uptime + dt) % 2 ^ 64 } else d.core,
           ka := d.ka.elapse dt }

/-- Time passes until uptime `t`, or not at all when `t` is past: a timer's expiry is never early. -/
def Dev.until (d : Dev) (t : Nat) : Dev := d.pass (t - d.core.uptime)

/-- The calendar word of R7, with the calendar-invalid form of R39. -/
def KeepAlive.calWord (k : KeepAlive) : Nat :=
  if k.valid then k.seconds * 2 ^ 30 + k.subsec * 2 ^ 15 + k.epoch
  else 0x3FFFFFFFF * 2 ^ 30 + k.epoch

/-- The time stamp of this moment (R7, R344). -/
def Dev.stamp (d : Dev) : Stamp := ⟨d.ka.calWord, d.now⟩

/-- The 16 bytes of a time stamp (R7). -/
def Stamp.bytes (s : Stamp) : List Byte := leBytes s.cal 8 ++ leBytes s.up 8

/-! ### Rule Book registers -/

/-- What the Rule Book register at `off` holds: its listed value, else its vendor default. -/
def Regs.get : Regs → Nat → Word
  | [], off => BitVec.ofNat 32 (vendorWord off)
  | (a, w) :: rest, off => if a = off then w else Regs.get rest off

/-- The registers with `off` set to `w`, kept in canonical form: offsets strictly rising and no entry equal to its
vendor default. -/
def Regs.set : Regs → Nat → Word → Regs
  | [], off, w => if w = BitVec.ofNat 32 (vendorWord off) then [] else [(off, w)]
  | (a, v) :: rest, off, w =>
    if off < a then
      if w = BitVec.ofNat 32 (vendorWord off) then (a, v) :: rest else (off, w) :: (a, v) :: rest
    else if a = off then
      if w = BitVec.ofNat 32 (vendorWord off) then rest else (off, w) :: rest
    else (a, v) :: Regs.set rest off w

/-- Whether every listed offset lies above `lo` and the offsets rise, and no entry equals its vendor default. -/
def Regs.wfFrom : Nat → Regs → Bool
  | _, [] => true
  | lo, (a, w) :: rest =>
    lo ≤ a && w != BitVec.ofNat 32 (vendorWord a) && Regs.wfFrom (a + 1) rest

/-- The canonical form of the Rule Book registers. -/
def Regs.wf (r : Regs) : Bool := Regs.wfFrom 0 r

/-- The word of the live configuration at `off`. -/
def Dev.reg (d : Dev) (off : Nat) : Nat := (d.cfg.get off).toNat

/-- A field of the live configuration: `width` bits from bit `lo` of the register at `off`. -/
def Dev.field (d : Dev) (off lo width : Nat) : Nat := bitsOf (d.reg off) lo width

/-- The live configuration with a whole register set. -/
def Dev.setReg (d : Dev) (off v : Nat) : Dev := { d with cfg := d.cfg.set off (BitVec.ofNat 32 v) }

/-- The live configuration with one field set. -/
def Dev.setField (d : Dev) (off lo width v : Nat) : Dev := d.setReg off (putBits (d.reg off) lo width v)

/-! ### What the device sends outward, and free values -/

/-- Append something the device sends. -/
def Dev.emit (d : Dev) (o : Out) : Dev := { d with out := d.out ++ [o] }

/-- Owe a piece of work. -/
def Dev.owe (d : Dev) (w : Work) : Dev := { d with due := d.due ++ [w] }

/-- Owe several pieces of work. -/
def Dev.oweAll (d : Dev) (ws : List Work) : Dev := { d with due := d.due ++ ws }

/-- The next free value (log entry 6), and the device that has used it. -/
def Dev.free (d : Dev) : Nat × Dev := (Config.freeWord d.fresh, { d with fresh := d.fresh + 1 })

/-! ### Train Register records -/

/-- Record types of Table 13-2. -/
def recStart : Nat := 1
def recEvent : Nat := 2
def recFault : Nat := 3
def recFaultCont : Nat := 4
def recCalendar : Nat := 5
def recExpert : Nat := 6
def recInjection : Nat := 7
def recClear : Nat := 8
def recClearDenied : Nat := 9
def recDropped : Nat := 10
def recLifecycle : Nat := 11

/-- The 60 bytes a record's CRC covers (Table 13-1). -/
def Rec.head (r : Rec) : List Byte :=
  leBytes r.seq 6 ++ leBytes r.typ 2 ++ r.stamp.bytes ++ fit 36 r.payload

/-- The 64 bytes of a record (R338, R339). -/
def Rec.bytes (r : Rec) : List Byte := r.head ++ leBytes (crc32c r.head) 4

/-- A record that has not yet its sequence number. -/
structure Draft where
  typ     : Nat
  stamp   : Stamp
  payload : List Byte
  deriving DecidableEq, Repr

/-- The payload of a DROPPED record (Table 13-3). -/
def TrainRegister.dropPayload (t : TrainRegister) : List Byte :=
  leBytes t.dropRun 4 ++ leBytes t.dropFirst 8 ++ leBytes t.dropLast 8

/-- Records that enter the buffer one after another receive consecutive numbers (R342); the reserve moves up when
the next number nears it (R343). -/
def TrainRegister.append (t : TrainRegister) : List Draft → TrainRegister
  | [] => t
  | r :: rs =>
    let t' := { t with buffer := t.buffer ++ [⟨t.next, r.typ, r.stamp, r.payload⟩], next := t.next + 1,
                       reserve := if t.next + 1 + 256 ≥ t.reserve then t.reserve + 4096 else t.reserve }
    TrainRegister.append t' rs

/-- A unit of records reaches the buffer (R342, R346): dropped when an EVENT of class C finds 32 or fewer free slots
or when the unit does not fit; otherwise entered, preceded by a DROPPED record when records were dropped before.
In Withdrawn nothing enters (R357). -/
def TrainRegister.enter (t : TrainRegister) (up : Stamp) (kept : Bool) (rs : List Draft) : TrainRegister :=
  if t.readOnly then t
  else
    let room := 256 - t.buffer.length
    let need := rs.length + flag (t.dropRun != 0)
    if (!kept && room ≤ 32) || room < need then
      { t with dropped := t.dropped + rs.length, dropRun := t.dropRun + rs.length,
               dropFirst := if t.dropRun = 0 then up.up else t.dropFirst, dropLast := up.up }
    else if t.dropRun = 0 then t.append rs
    else
      { t.append (⟨recDropped, up, t.dropPayload⟩ :: rs) with dropRun := 0 }

/-- Whether the unit would enter. -/
def TrainRegister.takes (t : TrainRegister) (kept : Bool) (n : Nat) : Bool :=
  let room := 256 - t.buffer.length
  !t.readOnly && !((!kept && room ≤ 32) || room < n + flag (t.dropRun != 0))

/-- The buffer has reached the level that starts an early flush or extends a running one (Table 13-5, R347), and lets a
waiting one proceed (R307). -/
def Dev.fillOwed (d : Dev) : Bool := bitsOf (d.reg 0x5800) 16 8 ≤ d.tr.buffer.length

/-- The early-flush trigger is judged anew: a flush has ended, or TR_CTRL was written. -/
def Dev.judgeFill (d : Dev) : Dev := if d.fillOwed && !d.tr.buffer.isEmpty then d.owe .fill else d

/-- A unit of records enters the Train Register. -/
def Dev.record (d : Dev) (kept : Bool) (rs : List Draft) : Dev :=
  let d' := { d with tr := d.tr.enter d.stamp kept rs }
  let e := if d.tr.reserve < d'.tr.reserve then d'.owe .bound else d'
  let d'' := if d'.fillOwed then e.owe .fill else e
  if d.tr.dropped < d'.tr.dropped then d''.owe .dropped else d''

/-- One record of the kept kind, stamped now. -/
def Dev.recordNow (d : Dev) (typ : Nat) (payload : List Byte) : Dev := d.record true [⟨typ, d.stamp, payload⟩]

/-! ### Check bits in memories (R47, R410, Table 12-4) -/

/-- A memory of Table 12-4 lies in MRAM. -/
def inMram (mem : Nat) : Bool := decide (0x10 ≤ mem)

/-- A word of a memory of Table 12-4 is among those that a write of the memory's item `i` reaches: a ring slot of 64 bytes,
a Rule Book copy of 32 KB, or an item whose words the manual does not place (log entry 149). -/
def itemWord (mem word i : Nat) : Bool :=
  if mem = 0x11 then word / 8 == i
  else if mem = 0x10 then word / 4096 == i
  else Config.holdsWord mem word i

/-- What stands in the slot of a word of the volatile buffer or of staging: 1 above the record's sequence or the command's
fetch, 0 for an empty slot. Other memories have no slots. -/
def Dev.slotItem (d : Dev) (mem word : Nat) : Nat :=
  if mem = 0x05 then ((d.tr.buffer[word / 8]?).map (fun r => r.seq + 1)).getD 0
  else if mem = 0x06 then ((d.hqi.staged[word / 8]?).map (fun c => c.fetch + 1)).getD 0
  else 0

/-- An inversion stands in a word: a slot written since holds fresh check bits (R47). -/
def Dev.flipAt (d : Dev) (mem word : Nat) (f : Flip) : Bool :=
  f.mem == mem && f.item == d.slotItem mem word
    && (if f.item = 0 then f.word == word else f.word % 8 == word % 8)

/-- Check bits that stand inverted in a word. -/
def Dev.flipBits (d : Dev) (mem word : Nat) : Nat := ((d.il.flips.filter (d.flipAt mem word)).map Flip.bits).sum

/-- A word of memory that `p` picks out has a double-bit error. -/
def Dev.doubleIn (d : Dev) (p : Nat → Nat → Bool) : Bool :=
  d.il.flips.any (fun f => p f.mem f.word && decide (2 ≤ d.flipBits f.mem f.word))

/-- An inversion of check bits of a word is gone: the word is sound again. -/
def Dev.unflip (d : Dev) (mem word : Nat) : Dev :=
  { d with il := { d.il with flips := d.il.flips.filter (fun f => !d.flipAt mem word f) } }

/-- A foreground write of an item of a memory stores its words with fresh check bits (R47). -/
def Dev.stored (d : Dev) (mem i : Nat) : Dev :=
  { d with il := { d.il with flips := d.il.flips.filter (fun f => !(f.mem == mem && itemWord mem f.word i)) } }

/-- A write of a register of the live configuration stores it with fresh check bits. -/
def Dev.storedReg (d : Dev) (off : Nat) : Dev := (d.stored 0x02 off).stored 0x04 off

/-! ### The copies of the Rule Book (R410) -/

/-- Copy `k`: 0 A, 1 B. -/
def RuleBook.copy (b : RuleBook) (k : Nat) : BookCopy := if k = 0 then b.copyA else b.copyB

/-- Copy `k` replaced. -/
def RuleBook.put (b : RuleBook) (k : Nat) (c : BookCopy) : RuleBook :=
  if k = 0 then { b with copyA := c } else { b with copyB := c }

/-- A copy is valid: its CRC matches and no word of it has a double-bit error (R410). -/
def Dev.copyValid (d : Dev) (k : Nat) : Bool :=
  (d.book.copy k).crcOk && !d.doubleIn (fun m w => m == 0x10 && itemWord 0x10 w k)

/-- The newer valid copy, if one is valid. -/
def Dev.newerCopy (d : Dev) : Option Nat :=
  if d.copyValid 0 ∧ d.copyValid 1 then if d.book.copyA.gen < d.book.copyB.gen then some 1 else some 0
  else if d.copyValid 0 then some 0
  else if d.copyValid 1 then some 1
  else none

/-- The generation of the newer copy; 0 when neither is valid. -/
def Dev.bookGeneration (d : Dev) : Nat :=
  match d.newerCopy with
  | some k => (d.book.copy k).gen
  | none => 0

/-! ### MRAM page write counts (R54) -/

/-- One more write to a 4 KB page of MRAM. -/
def countPage : List (Nat × Nat) → Nat → List (Nat × Nat)
  | [], p => [(p, 1)]
  | (q, n) :: rest, p => if p = q then (q, n + 1) :: rest else (q, n) :: countPage rest p

/-- The page that the page map gives for page `p`: its spare once BGE2 has retired it (R55, R348). -/
def Background.pageOf (b : Background) (p : Nat) : Nat := ((b.moved.find? (fun q => q.1 == p)).map (·.2)).getD p

/-- BGE2 counts a write to page `p` of MRAM, in the spare page of a retired one. -/
def Background.countWrite (b : Background) (p : Nat) : Background := { b with pages := countPage b.pages (b.pageOf p) }

/-- A write to the learned data partition of MRAM (Table 16-4), counted (R54); of its pages the first stands for all
(log entry 102). -/
def Dev.wroteLearned (d : Dev) : Dev := { d with bge := d.bge.countWrite 0xD0 }

/-- Several writes to the learned data partition. -/
def Dev.wroteLearnedTimes (d : Dev) (n : Nat) : Dev := (indices n).foldl (fun d _ => d.wroteLearned) d

/-- The new sequence bound is written to the next of its 8 slots in the wear table partition (R343), and the write
counted. -/
def Dev.boundWritten (d : Dev) : Dev :=
  let i := (d.tr.boundAt + 1) % 8
  { d with tr := { d.tr with bounds := fileMod d.tr.bounds i (fun _ => d.tr.reserve), boundAt := i },
           bge := d.bge.countWrite 0xE0 }

/-! ### MSI-X messages (R375, R376) -/

/-- A vector may send: MSI-X is enabled, neither the Function Mask nor its own mask holds it (R375), and the function is
not in D3hot (R360). -/
def Dev.mayMessage (d : Dev) (vec : Nat) : Bool :=
  d.hqi.func.msixEnable && !d.hqi.func.functionMask && !(fileGet d.hqi.msix vec default).masked && !d.hqi.d3hot

/-- Change vector `vec`. -/
def Dev.modVec (d : Dev) (vec : Nat) (f : MsixVec → MsixVec) : Dev :=
  { d with hqi := { d.hqi with msix := fileMod d.hqi.msix vec f } }

/-- One message of a vector, or, while it may not send, its pending bit; none with MSI-X disabled (log entry 8). -/
def Dev.message (d : Dev) (vec : Nat) : Dev :=
  let v := fileGet d.hqi.msix vec default
  if d.mayMessage vec then d.emit (.message vec (v.addrLo.toNat + v.addrHi.toNat * 2 ^ 32) v.data.toNat)
  else if d.hqi.func.msixEnable then d.modVec vec (fun v => { v with pending := true })
  else d

/-- An entry mapped to a vector was written: a message now, or at the end of the moderation interval (R376). -/
def Dev.announce (d : Dev) (vec : Nat) (urgent : Bool) : Dev :=
  if d.hqi.imod = 0 || !d.mayMessage vec then d.message vec
  else if !urgent && d.now < (fileGet d.hqi.msix vec default).hushed then d.modVec vec (fun v => { v with owed := true })
  else (d.message vec).modVec vec (fun v => { v with hushed := d.now + d.hqi.imod * ticksPerUs, owed := false })

/-- A vector that may send again sends the message that is pending, moderated as any other (R375, R376). -/
def Dev.sendPending (d : Dev) (vec : Nat) : Dev :=
  if (fileGet d.hqi.msix vec default).pending && d.mayMessage vec then
    (d.modVec vec (fun v => { v with pending := false })).announce vec false
  else d

/-! ### Rings (R364 to R368) -/

/-- Ring numbers of R364. -/
def ringCC (n : Nat) : Nat := 4 + n
def ringEQ : Nat := 8
def ringTQ (t : Nat) : Nat := 9 + t

/-- Entry size of a ring in bytes (Table 14-2). -/
def entrySize (r : Nat) : Nat := if r < 4 then 64 else if r < 9 then 32 else 256

/-- Entries of a ring. -/
def Ring.entries (r : Ring) : Nat := 2 ^ r.log2n

/-- The ring base address. -/
def Ring.base (r : Ring) : Nat := r.baseHi * 2 ^ 32 + r.baseLo * 2 ^ 12

/-- Ring `r` of the HQI. -/
def Dev.ring (d : Dev) (r : Nat) : Ring := fileGet d.hqi.rings r default

/-- Change ring `r`. -/
def Dev.modRing (d : Dev) (r : Nat) (f : Ring → Ring) : Dev :=
  { d with hqi := { d.hqi with rings := fileMod d.hqi.rings r f } }

/-- A device-written ring is enabled and has a free slot: the slot after the device index is not the head. -/
def Ring.room (r : Ring) : Bool := r.en && (r.devIdx + 1) % r.entries != r.dbIdx

/-- The device index moves to the next slot, and the lap toggles on the wrap (R368). -/
def Ring.advance (r : Ring) : Ring :=
  let next := (r.devIdx + 1) % r.entries
  { r with devIdx := next, lap := if next = 0 then !r.lap else r.lap }

/-- Write one entry into the next slot of a device-written ring: bytes 4 to the end first, then bytes 0 to 3 with the
lap in bit 15 of the first word (R368). -/
def Dev.writeEntry (d : Dev) (r : Nat) (word0 : Nat) (rest : List Byte) : Dev :=
  let ring := d.ring r
  let a := ring.base + entrySize r * ring.devIdx
  let first := leBytes (putBit word0 15 ring.lap) 2 ++ rest.take 2
  ((d.emit (.hostWrite (a + 4) (rest.drop 2))).emit (.hostWrite a first)).modRing r Ring.advance

/-! ### Events (R372, R373, R402) -/

/-- The vector HQI_EVT_VEC gives an event source. -/
def Dev.eventVector (d : Dev) (src : Nat) : Nat :=
  bitsOf (fileGet d.hqi.evtVec (src / 6) 0).toNat (5 * (src % 6)) 5

/-- Bytes 2 to 31 of an event entry (Table 14-9). -/
def eventBody (cls code seq : Nat) (s : Stamp) (w0 w1 : Nat) : List Byte :=
  leBytes cls 1 ++ leBytes 0 1 ++ leBytes code 2 ++ leBytes (seq % 2 ^ 16) 2 ++ s.bytes ++ leBytes w0 4 ++ leBytes w1 4

/-- Write an event entry, or count it as lost (R373). -/
def Dev.writeEvent (d : Dev) (src word0 : Nat) (body : List Byte) (seq : Nat) (urgent : Bool) : Dev :=
  if (d.ring ringEQ).room then
    (d.writeEntry ringEQ word0 body).announce (d.eventVector src) urgent
  else
    { d with hqi := { d.hqi with eqLost := held 0xFFFFFFFF (d.hqi.eqLost + 1),
                                 eqLostSeq := if d.hqi.eqLost = 0 then seq else d.hqi.eqLostSeq } }

/-- Post an event to EQ, or hold it back in D3hot (R360). -/
def Dev.postEvent (d : Dev) (src cls code seq : Nat) (gone injected : Bool) (s : Stamp) (w0 w1 : Nat) : Dev :=
  let word0 := src % 256 + flag injected * 2 ^ 14 + flag gone * 2 ^ 13
  let body := eventBody cls code seq s w0 w1
  if d.hqi.d3hot then
    { d with hqi := { d.hqi with heldBack := d.hqi.heldBack ++ [.event src word0 body seq (cls == 1)] } }
  else d.writeEvent src word0 body seq (cls == 1)

/-- Event classes. -/
def clsA : Nat := 1
def clsB : Nat := 2
def clsC : Nat := 3

/-- The payload of an EVENT record (Table 13-3). -/
def eventPayload (src cls code w0 w1 : Nat) (injected : Bool) : List Byte :=
  leBytes src 1 ++ leBytes cls 1 ++ leBytes code 2 ++ leBytes w0 4 ++ leBytes w1 4 ++ leBytes (flag injected) 1

/-- Raise an event (R340, R372): its EVENT record enters the Train Register and the event is posted with the
sequence of that record, or, where the record was dropped, with bit 13 and the next sequence. -/
def Dev.raiseInj (d : Dev) (code cls src w0 w1 : Nat) (injected : Bool) : Dev :=
  let kept := decide (cls < clsC)
  let took := d.tr.takes kept 1
  let seq := d.tr.next + flag (took && d.tr.dropRun != 0)
  let d1 := d.record kept [⟨recEvent, d.stamp, eventPayload src cls code w0 w1 injected⟩]
  d1.postEvent src cls code seq (!took) injected d.stamp w0 w1

/-- Raise an event without the injected flag. -/
def Dev.raise (d : Dev) (code cls src w0 w1 : Nat) : Dev := d.raiseInj code cls src w0 w1 false

/-- An event of the Train Register itself (R340: no EVENT record), where no record enters for it: it takes the next
sequence, so that EQ keeps the order of sequences (R372, log entry 103). -/
def Dev.raiseOwn (d : Dev) (code w0 w1 : Nat) : Dev := d.postEvent 165 clsC code d.tr.next false false d.stamp w0 w1

/-- A record of the Train Register's own enters and carries an event (R340, R372): posted with the record's sequence, or,
where the record was dropped, with bit 13 and the next sequence. -/
def Dev.recordOwn (d : Dev) (typ : Nat) (payload : List Byte) (code w0 w1 : Nat) : Dev :=
  let took := d.tr.takes true 1
  let seq := d.tr.next + flag (took && d.tr.dropRun != 0)
  (d.recordNow typ payload).postEvent 165 clsC code seq (!took) false d.stamp w0 w1

/-- The uptime at which a limited report was last made. -/
def Dev.lastTold (d : Dev) (key : Nat) : Option Nat := (d.il.reported.find? (fun p => p.1 == key)).map (·.2)

/-- Remember a limited report. -/
def Dev.tell (d : Dev) (key : Nat) : Dev :=
  { d with il := { d.il with reported := (key, d.now) :: d.il.reported.filter (fun p => p.1 != key) } }

/-- A report at most once per second may be made now. -/
def Dev.mayTell (d : Dev) (key : Nat) : Bool :=
  match d.lastTold key with
  | none => true
  | some t => t + ticksPerS ≤ d.now

/-- Raise an event at most once per second for its code and source. -/
def Dev.raiseLimited (d : Dev) (code cls src w0 w1 : Nat) : Dev :=
  let key := code * 256 + src
  if d.mayTell key then (d.tell key).raise code cls src w0 w1 else d

/-- After events were lost, the first entry written once a slot is free is EQ_OVERFLOW (R373). -/
def Dev.postOverflow (d : Dev) : Dev :=
  if d.hqi.eqLost ≠ 0 ∧ (d.ring ringEQ).room = true ∧ d.hqi.d3hot = false then
    let n := d.hqi.eqLost
    let s := d.hqi.eqLostSeq
    let d1 := { d with hqi := { d.hqi with eqLost := 0 } }
    d1.raise 0x017D clsC 166 n (s % 2 ^ 32)
  else d

/-! ### Commands: descriptor fields -/

/-- Byte `off` (20 to 63) of a descriptor's parameters. -/
def Desc.byte (c : Desc) (off : Nat) : Nat := leAt c.params (off - 20) 1
/-- The little-endian number of `len` bytes at descriptor byte `off`. -/
def Desc.num (c : Desc) (off len : Nat) : Nat := leAt c.params (off - 20) len
/-- The signed number of `len` bytes at descriptor byte `off`. -/
def Desc.int (c : Desc) (off len : Nat) : Int := signedOf (8 * len) (c.num off len)
/-- The target word of Table 14-4. -/
def Desc.target (c : Desc) : Nat := c.cls.toNat * 2 ^ 24 + c.index.toNat
/-- The resource index. -/
def Desc.idx (c : Desc) : Nat := c.index.toNat
/-- The 32-bit word `i` of the host buffer. -/
def Desc.bufWord (c : Desc) (i : Nat) : Nat := leAt c.data (4 * i) 4
/-- The flag byte of Table 14-4. -/
def Desc.flags (c : Desc) : Nat := flag c.resume + 2 * flag c.expert + 4 * flag c.fence + 8 * flag c.notify
/-- CRC-32C over descriptor bytes 8 to 63 (Table 14-10a). -/
def Desc.pcrc (c : Desc) : Nat :=
  crc32c (leBytes c.buffer.toNat 8 ++ leBytes c.length.toNat 4 ++ fit 44 c.params)

/-- Write bytes into the command's host buffer. -/
def Dev.toBuffer (d : Dev) (c : Desc) (bytes : List Byte) : Dev :=
  if bytes.isEmpty then d else d.emit (.hostWrite c.buffer.toNat bytes)

/-! ### Status codes (Table 14-8) -/

def stDone : Nat := 0
def stPartial : Nat := 1
def stTokenTimeout : Nat := 2
def stRejected : Nat := 3
def stBadParam : Nat := 4
def stSuperseded : Nat := 5
def stAborted : Nat := 6
def stDenied : Nat := 7
def stAuthFailed : Nat := 8
def stLinkReset : Nat := 9

/-! ### Ledger (R381) -/

/-- Change the ledger entry of fetch number `k`. -/
def Dev.modEntry (d : Dev) (k : Nat) (f : LedgerEntry → LedgerEntry) : Dev :=
  { d with ledger := d.ledger.map (fun e => if e.fetch = k then { f e with uptime := d.now } else e) }

/-- The stages an entry's command has in all; a count it holds already is no change (R381, R398). -/
def Dev.setTotal (d : Dev) (k total : Nat) : Dev :=
  let fix := fun (e : LedgerEntry) =>
    if e.fetch = k ∧ e.total ≠ total then { e with total := total, uptime := d.now } else e
  { d with ledger := d.ledger.map fix }

/-- Add a ledger entry; a full ledger loses its oldest. -/
def Dev.addEntry (d : Dev) (e : LedgerEntry) : Dev :=
  { d with ledger := (d.ledger ++ [e]).drop (d.ledger.length + 1 - 256) }

/-- The newest ledger entry with a tag. -/
def Dev.entryOf (d : Dev) (tag : Nat) : Option LedgerEntry := d.ledger.reverse.find? (fun e => e.tag == tag)

/-- The 32 bytes of a ledger entry (Table 14-10a). -/
def LedgerEntry.bytes (e : LedgerEntry) : List Byte :=
  leBytes e.tag 2 ++ leBytes e.op 1
  ++ leBytes (e.ring + 16 * flag e.opened + 32 * flag e.resumed + 64 * flag e.expert) 1
  ++ leBytes e.target 4 ++ leBytes e.status 1 ++ leBytes e.done 1 ++ leBytes e.total 1 ++ zeros 1
  ++ leBytes e.fetch 4 ++ leBytes e.pcrc 4 ++ zeros 4 ++ leBytes e.uptime 8

/-! ### Completions (R371) -/

/-- Bytes 2 to 23 of a completion entry (Table 14-7). -/
def completionBody (tag op status done total : Nat) (results : List Nat) : List Byte :=
  leBytes tag 2 ++ leBytes op 1 ++ leBytes status 1 ++ leBytes done 1 ++ leBytes total 1
  ++ leBytes (results.getD 0 0) 4 ++ leBytes (results.getD 1 0) 4 ++ leBytes (results.getD 2 0) 4
  ++ leBytes (results.getD 3 0) 4

/-- Write a completion entry of CQ `n` to its CC, or discard it when that ring is disabled (R365). Bits [11:0] of
its first word carry the device index of CQn now, and bytes 24 to 31 the uptime of now. -/
def Dev.putCompletion (d : Dev) (n word0 : Nat) (body : List Byte) (announce : Bool) : Dev :=
  let cc := d.ring (ringCC n)
  if cc.en then
    let d1 := d.writeEntry (ringCC n) (word0 + (d.ring n).devIdx % 2 ^ 12) (body ++ leBytes d.now 8)
    if announce then d1.announce cc.vec false else d1
  else d

/-- Write the completion of a command, or hold it back in D3hot (R360, R371, R376). -/
def Dev.postCompletion (d : Dev) (op : Nat) (c : Desc) (resumed : Bool) (status done total : Nat)
    (results : List Nat) : Dev :=
  let word0 := 2 ^ 14 * flag resumed + 2 ^ 12 * c.ring.val
  let body := completionBody c.tag.toNat op status done total results
  let announce := c.notify || status != stDone
  if d.hqi.d3hot then
    { d with hqi := { d.hqi with heldBack := d.hqi.heldBack ++ [.completion c.ring.val word0 body announce] } }
  else d.putCompletion c.ring.val word0 body announce

/-- The staged command of a fetch number. -/
def Dev.cmd (d : Dev) (k : Nat) : Option OpenCmd := d.hqi.staged.find? (fun c => c.fetch == k)

/-- A command of a fetch number is open. -/
def Dev.isOpen (d : Dev) (k : Nat) : Bool := (d.cmd k).isSome

/-- Change the staged command of a fetch number. -/
def Dev.modCmd (d : Dev) (k : Nat) (f : OpenCmd → OpenCmd) : Dev :=
  { d with hqi := { d.hqi with staged := d.hqi.staged.map (fun c => if c.fetch = k then f c else c) } }

/-- Complete an open command with a status: its slot is freed, its ledger entry closed, its completion written, and
the commands that waited for it may begin (R371, R378, R381). A command a link event has closed is gone already. -/
def Dev.finish (d : Dev) (k status : Nat) (results : List Nat) : Dev :=
  match d.cmd k with
  | none => d
  | some c =>
    let d1 := { d with hqi := { d.hqi with staged := d.hqi.staged.filter (fun e => e.fetch != k) } }
    let d2 := match c.entry with
      | none => d1
      | some e => d1.modEntry e (fun l => { l with opened := false, status := status, done := c.done, total := c.total })
    let d3 := d2.postCompletion c.op c.desc c.resumed status c.done c.total results
    if d3.hqi.staged.isEmpty then d3 else d3.owe .begin

/-- `n` stages of an open command have committed; the ledger is updated (R380, R381). -/
def Dev.commit (d : Dev) (k n : Nat) : Dev :=
  match d.cmd k with
  | none => d
  | some c =>
    let d1 := d.modCmd k (fun c => { c with done := n })
    let d2 := match c.entry with
      | none => d1
      | some e => d1.modEntry e (fun l => { l with done := n })
    if n = 1 ∧ 1 < d2.hqi.staged.length then d2.owe .begin else d2

/-- The last stage of an open command commits and the command completes. -/
def Dev.commitAll (d : Dev) (k status : Nat) (results : List Nat) : Dev :=
  match d.cmd k with
  | none => d
  | some c => (d.commit k c.total).finish k status results

/-- Complete the command an owner's state names, if it names one. -/
def Dev.finishOpt (d : Dev) (k : Option Nat) (status : Nat) (results : List Nat) : Dev :=
  match k with
  | none => d
  | some k => d.finish k status results

/-- Commit stages of the command an owner's state names. -/
def Dev.commitOpt (d : Dev) (k : Option Nat) (n : Nat) : Dev :=
  match k with
  | none => d
  | some k => d.commit k n

/-- Complete, with all stages, the command an owner's state names. -/
def Dev.commitAllOpt (d : Dev) (k : Option Nat) (status : Nat) (results : List Nat) : Dev :=
  match k with
  | none => d
  | some k => d.commitAll k status results

/-- The command an owner's state names, if any, is open no longer: a resumed command may take its place (R387). -/
def Dev.gone (d : Dev) (k : Option Nat) : Bool := (k.bind d.cmd).isNone

/-- Results an open command keeps for a later completion. -/
def Dev.keepResults (d : Dev) (k : Nat) (rs : List Nat) : Dev := d.modCmd k (fun c => { c with results := rs })

/-! ### The hook every meaning runs through -/

/-- The lifecycle states of R428. -/
def lifeWorks : Nat := 0
def lifeCommissioning : Nat := 1
def lifeInTraffic : Nat := 2
def lifeWithdrawn : Nat := 3

/-- The device is in the Withdrawn lifecycle state. -/
def Dev.withdrawn (d : Dev) : Bool := d.fuse.lifecycle == lifeWithdrawn

end Sys2Proof.Machine
end

