-- ==== Sys2Proof/Machine/Fields.lean ====
section
/-! DEFINITION. The Rule Book fields by the manual's own names: `REG.fieldname d i` is REGISTER.field of instance `i`
in the live configuration, `REG.reg i` its BAR0 offset (the register tables of spec/02 to spec/18, R439). -/
namespace Sys2Proof.Machine

/-- Offset of TB_CAL_TRIM (02_self_timed_core_timebase_background.md, 2-5). -/
def TB_CAL_TRIM.reg : Nat := 0x0424
def TB_CAL_TRIM.x32_cl (d : Dev) : Nat := d.field (TB_CAL_TRIM.reg) 10 5

/-- Offset of MA_CH_CFG (03_measurement_and_catch_points.md, 3-3). -/
def MA_CH_CFG.reg (i : Nat) : Nat := 0x0800 + 4 * i
def MA_CH_CFG.en (d : Dev) (i : Nat) : Nat := d.field (MA_CH_CFG.reg i) 31 1
def MA_CH_CFG.grp (d : Dev) (i : Nat) : Nat := d.field (MA_CH_CFG.reg i) 24 4
def MA_CH_CFG.grp_en (d : Dev) (i : Nat) : Nat := d.field (MA_CH_CFG.reg i) 23 1
def MA_CH_CFG.role (d : Dev) (i : Nat) : Nat := d.field (MA_CH_CFG.reg i) 20 3
def MA_CH_CFG.role_idx (d : Dev) (i : Nat) : Nat := d.field (MA_CH_CFG.reg i) 15 5
def MA_CH_CFG.gain (d : Dev) (i : Nat) : Nat := d.field (MA_CH_CFG.reg i) 13 2
def MA_CH_CFG.os (d : Dev) (i : Nat) : Nat := d.field (MA_CH_CFG.reg i) 11 2
def MA_CH_CFG.iir (d : Dev) (i : Nat) : Nat := d.field (MA_CH_CFG.reg i) 8 3
def MA_CH_CFG.fr_div (d : Dev) (i : Nat) : Nat := d.field (MA_CH_CFG.reg i) 0 8

/-- Offset of MA_CH_SKEW (03_measurement_and_catch_points.md, 3-4). -/
def MA_CH_SKEW.reg (i : Nat) : Nat := 0x08C0 + 4 * i
def MA_CH_SKEW.skew (d : Dev) (i : Nat) : Nat := d.field (MA_CH_SKEW.reg i) 0 20

/-- Offset of MA_CH_SCALE (03_measurement_and_catch_points.md, 3-5). -/
def MA_CH_SCALE.reg (i : Nat) : Nat := 0x0980 + 4 * i
def MA_CH_SCALE.unit (d : Dev) (i : Nat) : Nat := d.field (MA_CH_SCALE.reg i) 31 1
def MA_CH_SCALE.fs (d : Dev) (i : Nat) : Nat := d.field (MA_CH_SCALE.reg i) 0 31

/-- Offset of MA_GRP_SAMP (03_measurement_and_catch_points.md, 3-6). -/
def MA_GRP_SAMP.reg (i : Nat) : Nat := 0x0A40 + 4 * i
def MA_GRP_SAMP.period (d : Dev) (i : Nat) : Nat := d.field (MA_GRP_SAMP.reg i) 19 10
def MA_GRP_SAMP.phase (d : Dev) (i : Nat) : Nat := d.field (MA_GRP_SAMP.reg i) 0 19

/-- Offset of MA_CC_CFG (03_measurement_and_catch_points.md, 3-7). -/
def MA_CC_CFG.reg (i : Nat) : Nat := 0x0A80 + 4 * i
def MA_CC_CFG.dec (d : Dev) (i : Nat) : Nat := d.field (MA_CC_CFG.reg i) 0 2

/-- Offset of MA_HK_CTRL (03_measurement_and_catch_points.md, 3-9). -/
def MA_HK_CTRL.reg : Nat := 0x0C80
def MA_HK_CTRL.len (d : Dev) : Nat := d.field (MA_HK_CTRL.reg) 0 7

/-- Offset of MA_HK_SEQ (03_measurement_and_catch_points.md, 3-10). -/
def MA_HK_SEQ.reg (i : Nat) : Nat := 0x0B00 + 4 * i
def MA_HK_SEQ.en (d : Dev) (i : Nat) : Nat := d.field (MA_HK_SEQ.reg i) 7 1
def MA_HK_SEQ.input (d : Dev) (i : Nat) : Nat := d.field (MA_HK_SEQ.reg i) 0 7

/-- Offset of FTA_CP_CFG (03_measurement_and_catch_points.md, 3-16). -/
def FTA_CP_CFG.reg (i : Nat) : Nat := 0x1000 + 4 * i
def FTA_CP_CFG.en (d : Dev) (i : Nat) : Nat := d.field (FTA_CP_CFG.reg i) 31 1
def FTA_CP_CFG.mode (d : Dev) (i : Nat) : Nat := d.field (FTA_CP_CFG.reg i) 29 2
def FTA_CP_CFG.hyst (d : Dev) (i : Nat) : Nat := d.field (FTA_CP_CFG.reg i) 26 3
def FTA_CP_CFG.dir (d : Dev) (i : Nat) : Nat := d.field (FTA_CP_CFG.reg i) 25 1
def FTA_CP_CFG.cls (d : Dev) (i : Nat) : Nat := d.field (FTA_CP_CFG.reg i) 23 2
def FTA_CP_CFG.evsrc (d : Dev) (i : Nat) : Nat := d.field (FTA_CP_CFG.reg i) 15 8

/-- Offset of FTA_CP_THRESH (03_measurement_and_catch_points.md, 3-17). -/
def FTA_CP_THRESH.reg (i : Nat) : Nat := 0x1200 + 4 * i
def FTA_CP_THRESH.code (d : Dev) (i : Nat) : Nat := d.field (FTA_CP_THRESH.reg i) 0 10

/-- Offset of FTA_TM_ROW_LO (03_measurement_and_catch_points.md, 3-19). -/
def FTA_TM_ROW_LO.reg (i : Nat) : Nat := 0x1800 + 8 * i
def FTA_TM_ROW_LO.col_lo (d : Dev) (i : Nat) : Nat := d.field (FTA_TM_ROW_LO.reg i) 0 32

/-- Offset of FTA_TM_ROW_HI (03_measurement_and_catch_points.md, 3-20). -/
def FTA_TM_ROW_HI.reg (i : Nat) : Nat := 0x1804 + 8 * i
def FTA_TM_ROW_HI.cycle (d : Dev) (i : Nat) : Nat := d.field (FTA_TM_ROW_HI.reg i) 31 1
def FTA_TM_ROW_HI.col_hi (d : Dev) (i : Nat) : Nat := d.field (FTA_TM_ROW_HI.reg i) 0 24

/-- Offset of FTA_DF_CFG (03_measurement_and_catch_points.md, 3-21). -/
def FTA_DF_CFG.reg (i : Nat) : Nat := 0x1D00 + 4 * i
def FTA_DF_CFG.en (d : Dev) (i : Nat) : Nat := d.field (FTA_DF_CFG.reg i) 7 1
def FTA_DF_CFG.pol (d : Dev) (i : Nat) : Nat := d.field (FTA_DF_CFG.reg i) 6 1
def FTA_DF_CFG.filt (d : Dev) (i : Nat) : Nat := d.field (FTA_DF_CFG.reg i) 0 4

/-- Offset of MA_TH_PT (03_measurement_and_catch_points.md, 3-23). -/
def MA_TH_PT.reg (i0 : Nat) (i1 : Nat) : Nat := 0x0D00 + 0x20 * i0 + 4 * i1
def MA_TH_PT.code (d : Dev) (i0 : Nat) (i1 : Nat) : Nat := d.field (MA_TH_PT.reg i0 i1) 16 16
def MA_TH_PT.temp (d : Dev) (i0 : Nat) (i1 : Nat) : Nat := d.field (MA_TH_PT.reg i0 i1) 0 16

/-- Offset of ELE_GRP_CTRL (04_loop_engine.md, 4-5). -/
def ELE_GRP_CTRL.reg (i : Nat) : Nat := 0x2000 + 0x20 * i
def ELE_GRP_CTRL.reg_en (d : Dev) (i : Nat) : Nat := d.field (ELE_GRP_CTRL.reg i) 16 4
def ELE_GRP_CTRL.order (d : Dev) (i : Nat) : Nat := d.field (ELE_GRP_CTRL.reg i) 12 4

/-- Offset of ELE_GRP_CFG (04_loop_engine.md, 4-6). -/
def ELE_GRP_CFG.reg (i : Nat) : Nat := 0x2004 + 0x20 * i
def ELE_GRP_CFG.act (d : Dev) (i : Nat) : Nat := d.field (ELE_GRP_CFG.reg i) 30 2
def ELE_GRP_CFG.icap_src (d : Dev) (i : Nat) : Nat := d.field (ELE_GRP_CFG.reg i) 28 2
def ELE_GRP_CFG.aux_src (d : Dev) (i : Nat) : Nat := d.field (ELE_GRP_CFG.reg i) 26 2
def ELE_GRP_CFG.aux_dir (d : Dev) (i : Nat) : Nat := d.field (ELE_GRP_CFG.reg i) 25 1
def ELE_GRP_CFG.feed_en (d : Dev) (i : Nat) : Nat := d.field (ELE_GRP_CFG.reg i) 24 1
def ELE_GRP_CFG.feed (d : Dev) (i : Nat) : Nat := d.field (ELE_GRP_CFG.reg i) 22 2
def ELE_GRP_CFG.icap_idx (d : Dev) (i : Nat) : Nat := d.field (ELE_GRP_CFG.reg i) 16 6
def ELE_GRP_CFG.aux_idx (d : Dev) (i : Nat) : Nat := d.field (ELE_GRP_CFG.reg i) 10 6

/-- Offset of ELE_GRP_LEGS (04_loop_engine.md, 4-7). -/
def ELE_GRP_LEGS.reg (i : Nat) : Nat := 0x2008 + 0x20 * i
def ELE_GRP_LEGS.legs (d : Dev) (i : Nat) : Nat := d.field (ELE_GRP_LEGS.reg i) 0 24

/-- Offset of ELE_GRP_DLIM (04_loop_engine.md, 4-8). -/
def ELE_GRP_DLIM.reg (i : Nat) : Nat := 0x200C + 0x20 * i
def ELE_GRP_DLIM.umax (d : Dev) (i : Nat) : Nat := d.field (ELE_GRP_DLIM.reg i) 16 16
def ELE_GRP_DLIM.umin (d : Dev) (i : Nat) : Nat := d.field (ELE_GRP_DLIM.reg i) 0 16

/-- Offset of ELE_GRP_VWIN (04_loop_engine.md, 4-9). -/
def ELE_GRP_VWIN.reg (i : Nat) : Nat := 0x2010 + 0x20 * i
def ELE_GRP_VWIN.vmax (d : Dev) (i : Nat) : Nat := d.field (ELE_GRP_VWIN.reg i) 16 16
def ELE_GRP_VWIN.vmin (d : Dev) (i : Nat) : Nat := d.field (ELE_GRP_VWIN.reg i) 0 16

/-- Offset of ELE_GRP_RATIO (04_loop_engine.md, 4-10). -/
def ELE_GRP_RATIO.reg (i : Nat) : Nat := 0x2014 + 0x20 * i
def ELE_GRP_RATIO.limit_report (d : Dev) (i : Nat) : Nat := d.field (ELE_GRP_RATIO.reg i) 24 8
def ELE_GRP_RATIO.gdc (d : Dev) (i : Nat) : Nat := d.field (ELE_GRP_RATIO.reg i) 0 24

/-- Offset of ELE_GRP_SS (04_loop_engine.md, 4-11). -/
def ELE_GRP_SS.reg (i : Nat) : Nat := 0x2018 + 0x20 * i
def ELE_GRP_SS.ss_rate (d : Dev) (i : Nat) : Nat := d.field (ELE_GRP_SS.reg i) 16 16
def ELE_GRP_SS.ss_timeout (d : Dev) (i : Nat) : Nat := d.field (ELE_GRP_SS.reg i) 8 8
def ELE_GRP_SS.pgood (d : Dev) (i : Nat) : Nat := d.field (ELE_GRP_SS.reg i) 0 8

/-- Offset of ELE_GRP_SLEW (04_loop_engine.md, 4-12). -/
def ELE_GRP_SLEW.reg (i : Nat) : Nat := 0x201C + 0x20 * i
def ELE_GRP_SLEW.lim_slew (d : Dev) (i : Nat) : Nat := d.field (ELE_GRP_SLEW.reg i) 16 16
def ELE_GRP_SLEW.trim_max (d : Dev) (i : Nat) : Nat := d.field (ELE_GRP_SLEW.reg i) 0 16

/-- Offset of ELE_COEF (04_loop_engine.md, 4-13). -/
def ELE_COEF.reg (i0 : Nat) (i1 : Nat) (i2 : Nat) : Nat := 0x2800 + 0x80 * i0 + 0x20 * i1 + 4 * i2
def ELE_COEF.coef (d : Dev) (i0 : Nat) (i1 : Nat) (i2 : Nat) : Nat := d.field (ELE_COEF.reg i0 i1 i2) 0 24

/-- Offset of ELE_LANE_CTRL (05_loop_supervision.md, 5-7). -/
def ELE_LANE_CTRL.reg : Nat := 0x2200
def ELE_LANE_CTRL.strike_max (d : Dev) : Nat := d.field (ELE_LANE_CTRL.reg) 24 8
def ELE_LANE_CTRL.strike_window (d : Dev) : Nat := d.field (ELE_LANE_CTRL.reg) 16 8
def ELE_LANE_CTRL.check_period (d : Dev) : Nat := d.field (ELE_LANE_CTRL.reg) 0 16

/-- Offset of ELE_OVR_CFG (05_loop_supervision.md, 5-9). -/
def ELE_OVR_CFG.reg : Nat := 0x2220
def ELE_OVR_CFG.ovr_high (d : Dev) : Nat := d.field (ELE_OVR_CFG.reg) 24 8
def ELE_OVR_CFG.ovr_low (d : Dev) : Nat := d.field (ELE_OVR_CFG.reg) 16 8
def ELE_OVR_CFG.step_up (d : Dev) : Nat := d.field (ELE_OVR_CFG.reg) 8 8
def ELE_OVR_CFG.step_down (d : Dev) : Nat := d.field (ELE_OVR_CFG.reg) 0 8

/-- Offset of ELE_MDL_CFG (05_loop_supervision.md, 5-11). -/
def ELE_MDL_CFG.reg (i : Nat) : Nat := 0x2400 + 0x20 * i
def ELE_MDL_CFG.model_en (d : Dev) (i : Nat) : Nat := d.field (ELE_MDL_CFG.reg i) 31 1
def ELE_MDL_CFG.fe_mode (d : Dev) (i : Nat) : Nat := d.field (ELE_MDL_CFG.reg i) 30 1
def ELE_MDL_CFG.obs (d : Dev) (i : Nat) : Nat := d.field (ELE_MDL_CFG.reg i) 27 3
def ELE_MDL_CFG.ld (d : Dev) (i : Nat) : Nat := d.field (ELE_MDL_CFG.reg i) 24 3
def ELE_MDL_CFG.persist (d : Dev) (i : Nat) : Nat := d.field (ELE_MDL_CFG.reg i) 16 8

/-- Offset of ELE_MDL_KL (05_loop_supervision.md, 5-12). -/
def ELE_MDL_KL.reg (i : Nat) : Nat := 0x2404 + 0x20 * i
def ELE_MDL_KL.coef (d : Dev) (i : Nat) : Nat := d.field (ELE_MDL_KL.reg i) 0 24

/-- Offset of ELE_MDL_KR (05_loop_supervision.md, 5-12). -/
def ELE_MDL_KR.reg (i : Nat) : Nat := 0x2408 + 0x20 * i
def ELE_MDL_KR.coef (d : Dev) (i : Nat) : Nat := d.field (ELE_MDL_KR.reg i) 0 24

/-- Offset of ELE_MDL_KC (05_loop_supervision.md, 5-12). -/
def ELE_MDL_KC.reg (i : Nat) : Nat := 0x240C + 0x20 * i
def ELE_MDL_KC.coef (d : Dev) (i : Nat) : Nat := d.field (ELE_MDL_KC.reg i) 0 24

/-- Offset of ELE_MDL_GV (05_loop_supervision.md, 5-12). -/
def ELE_MDL_GV.reg (i : Nat) : Nat := 0x2410 + 0x20 * i
def ELE_MDL_GV.coef (d : Dev) (i : Nat) : Nat := d.field (ELE_MDL_GV.reg i) 0 24

/-- Offset of ELE_MDL_BAND (05_loop_supervision.md, 5-13). -/
def ELE_MDL_BAND.reg (i : Nat) : Nat := 0x2414 + 0x20 * i
def ELE_MDL_BAND.band_abs (d : Dev) (i : Nat) : Nat := d.field (ELE_MDL_BAND.reg i) 22 10
def ELE_MDL_BAND.band_rel (d : Dev) (i : Nat) : Nat := d.field (ELE_MDL_BAND.reg i) 16 6
def ELE_MDL_BAND.band_v (d : Dev) (i : Nat) : Nat := d.field (ELE_MDL_BAND.reg i) 6 10

/-- Offset of ELE_MDL_SAT (05_loop_supervision.md, 5-14). -/
def ELE_MDL_SAT.reg (i : Nat) : Nat := 0x2418 + 0x20 * i
def ELE_MDL_SAT.sat_knee (d : Dev) (i : Nat) : Nat := d.field (ELE_MDL_SAT.reg i) 16 16
def ELE_MDL_SAT.open_lvl (d : Dev) (i : Nat) : Nat := d.field (ELE_MDL_SAT.reg i) 0 16

/-- Offset of ELE_HICCUP (05_loop_supervision.md, 5-15). -/
def ELE_HICCUP.reg (i : Nat) : Nat := 0x241C + 0x20 * i
def ELE_HICCUP.hiccup_max (d : Dev) (i : Nat) : Nat := d.field (ELE_HICCUP.reg i) 28 4
def ELE_HICCUP.hiccup_off (d : Dev) (i : Nat) : Nat := d.field (ELE_HICCUP.reg i) 16 12
def ELE_HICCUP.hiccup_clear (d : Dev) (i : Nat) : Nat := d.field (ELE_HICCUP.reg i) 8 8

/-- Offset of ELE_FE (05_loop_supervision.md, 5-16). -/
def ELE_FE.reg (i : Nat) : Nat := 0x2600 + 4 * i
def ELE_FE.fe_limit (d : Dev) (i : Nat) : Nat := d.field (ELE_FE.reg i) 16 16
def ELE_FE.ss_blank (d : Dev) (i : Nat) : Nat := d.field (ELE_FE.reg i) 15 1
def ELE_FE.fe_time (d : Dev) (i : Nat) : Nat := d.field (ELE_FE.reg i) 0 15

/-- Offset of PTU_GRP_TIM (06_phase_timing.md, 6-5). -/
def PTU_GRP_TIM.reg (i : Nat) : Nat := 0x3000 + 0x10 * i
def PTU_GRP_TIM.spp (d : Dev) (i : Nat) : Nat := d.field (PTU_GRP_TIM.reg i) 27 5
def PTU_GRP_TIM.pps (d : Dev) (i : Nat) : Nat := d.field (PTU_GRP_TIM.reg i) 20 7
def PTU_GRP_TIM.mod (d : Dev) (i : Nat) : Nat := d.field (PTU_GRP_TIM.reg i) 18 2
def PTU_GRP_TIM.load (d : Dev) (i : Nat) : Nat := d.field (PTU_GRP_TIM.reg i) 17 1

/-- Offset of PTU_GRP_SHED (06_phase_timing.md, 6-6). -/
def PTU_GRP_SHED.reg (i : Nat) : Nat := 0x3004 + 0x10 * i
def PTU_GRP_SHED.shed_en (d : Dev) (i : Nat) : Nat := d.field (PTU_GRP_SHED.reg i) 31 1
def PTU_GRP_SHED.min_ph (d : Dev) (i : Nat) : Nat := d.field (PTU_GRP_SHED.reg i) 26 5
def PTU_GRP_SHED.add_thr (d : Dev) (i : Nat) : Nat := d.field (PTU_GRP_SHED.reg i) 18 8
def PTU_GRP_SHED.shed_thr (d : Dev) (i : Nat) : Nat := d.field (PTU_GRP_SHED.reg i) 10 8
def PTU_GRP_SHED.shed_dwell (d : Dev) (i : Nat) : Nat := d.field (PTU_GRP_SHED.reg i) 2 8

/-- Offset of PTU_GRP_STOP (06_phase_timing.md, 6-7). -/
def PTU_GRP_STOP.reg (i : Nat) : Nat := 0x3008 + 0x10 * i
def PTU_GRP_STOP.stop_rate (d : Dev) (i : Nat) : Nat := d.field (PTU_GRP_STOP.reg i) 16 16
def PTU_GRP_STOP.de (d : Dev) (i : Nat) : Nat := d.field (PTU_GRP_STOP.reg i) 15 1
def PTU_GRP_STOP.dis_en (d : Dev) (i : Nat) : Nat := d.field (PTU_GRP_STOP.reg i) 14 1
def PTU_GRP_STOP.join_time (d : Dev) (i : Nat) : Nat := d.field (PTU_GRP_STOP.reg i) 6 8

/-- Offset of PTU_GRP_DIS (06_phase_timing.md, 6-8). -/
def PTU_GRP_DIS.reg (i : Nat) : Nat := 0x300C + 0x10 * i
def PTU_GRP_DIS.dis_level (d : Dev) (i : Nat) : Nat := d.field (PTU_GRP_DIS.reg i) 16 16
def PTU_GRP_DIS.dis_duty (d : Dev) (i : Nat) : Nat := d.field (PTU_GRP_DIS.reg i) 8 8
def PTU_GRP_DIS.dis_timeout (d : Dev) (i : Nat) : Nat := d.field (PTU_GRP_DIS.reg i) 0 8

/-- Offset of PTU_LEG_CFG (06_phase_timing.md, 6-9). -/
def PTU_LEG_CFG.reg (i : Nat) : Nat := 0x3100 + 0x10 * i
def PTU_LEG_CFG.pol_a (d : Dev) (i : Nat) : Nat := d.field (PTU_LEG_CFG.reg i) 31 1
def PTU_LEG_CFG.pol_b (d : Dev) (i : Nat) : Nat := d.field (PTU_LEG_CFG.reg i) 30 1
def PTU_LEG_CFG.park_auto (d : Dev) (i : Nat) : Nat := d.field (PTU_LEG_CFG.reg i) 29 1
def PTU_LEG_CFG.park_time (d : Dev) (i : Nat) : Nat := d.field (PTU_LEG_CFG.reg i) 16 8
def PTU_LEG_CFG.min_pulse (d : Dev) (i : Nat) : Nat := d.field (PTU_LEG_CFG.reg i) 8 8
def PTU_LEG_CFG.cbc_max (d : Dev) (i : Nat) : Nat := d.field (PTU_LEG_CFG.reg i) 0 8

/-- Offset of PTU_LEG_DT (06_phase_timing.md, 6-10). -/
def PTU_LEG_DT.reg (i : Nat) : Nat := 0x3104 + 0x10 * i
def PTU_LEG_DT.dt_a (d : Dev) (i : Nat) : Nat := d.field (PTU_LEG_DT.reg i) 8 8
def PTU_LEG_DT.dt_b (d : Dev) (i : Nat) : Nat := d.field (PTU_LEG_DT.reg i) 0 8

/-- Offset of PTU_LEG_OFS (06_phase_timing.md, 6-11). -/
def PTU_LEG_OFS.reg (i : Nat) : Nat := 0x3108 + 0x10 * i
def PTU_LEG_OFS.ofs (d : Dev) (i : Nat) : Nat := d.field (PTU_LEG_OFS.reg i) 0 20

/-- Offset of FC_CTRL (07_feed_controllers.md, 7-3). -/
def FC_CTRL.reg (i : Nat) : Nat := 0x3800 + 0x40 * i
def FC_CTRL.auto_on (d : Dev) (i : Nat) : Nat := d.field (FC_CTRL.reg i) 21 1
def FC_CTRL.fwarn_en (d : Dev) (i : Nat) : Nat := d.field (FC_CTRL.reg i) 20 1
def FC_CTRL.share_set (d : Dev) (i : Nat) : Nat := d.field (FC_CTRL.reg i) 18 2
def FC_CTRL.tref_src (d : Dev) (i : Nat) : Nat := d.field (FC_CTRL.reg i) 17 1
def FC_CTRL.th_idx (d : Dev) (i : Nat) : Nat := d.field (FC_CTRL.reg i) 14 3

/-- Offset of FC_VOLT (07_feed_controllers.md, 7-4). -/
def FC_VOLT.reg (i : Nat) : Nat := 0x3804 + 0x40 * i
def FC_VOLT.uv_thr (d : Dev) (i : Nat) : Nat := d.field (FC_VOLT.reg i) 16 16
def FC_VOLT.warn_thr (d : Dev) (i : Nat) : Nat := d.field (FC_VOLT.reg i) 0 16

/-- Offset of FC_TIME (07_feed_controllers.md, 7-5). -/
def FC_TIME.reg (i : Nat) : Nat := 0x3808 + 0x40 * i
def FC_TIME.uv_hyst (d : Dev) (i : Nat) : Nat := d.field (FC_TIME.reg i) 24 8
def FC_TIME.uv_filt (d : Dev) (i : Nat) : Nat := d.field (FC_TIME.reg i) 16 8
def FC_TIME.warn_lead (d : Dev) (i : Nat) : Nat := d.field (FC_TIME.reg i) 8 8
def FC_TIME.warn_hold (d : Dev) (i : Nat) : Nat := d.field (FC_TIME.reg i) 0 8

/-- Offset of FC_ORING (07_feed_controllers.md, 7-6). -/
def FC_ORING.reg (i : Nat) : Nat := 0x380C + 0x40 * i
def FC_ORING.on_dv (d : Dev) (i : Nat) : Nat := d.field (FC_ORING.reg i) 24 8
def FC_ORING.on_time (d : Dev) (i : Nat) : Nat := d.field (FC_ORING.reg i) 16 8
def FC_ORING.inrush_dv (d : Dev) (i : Nat) : Nat := d.field (FC_ORING.reg i) 8 8
def FC_ORING.rev_slow (d : Dev) (i : Nat) : Nat := d.field (FC_ORING.reg i) 0 8

/-- Offset of FC_INRUSH (07_feed_controllers.md, 7-7). -/
def FC_INRUSH.reg (i : Nat) : Nat := 0x3810 + 0x40 * i
def FC_INRUSH.inrush_rate (d : Dev) (i : Nat) : Nat := d.field (FC_INRUSH.reg i) 16 16
def FC_INRUSH.inrush_ilim (d : Dev) (i : Nat) : Nat := d.field (FC_INRUSH.reg i) 8 8
def FC_INRUSH.inrush_timeout (d : Dev) (i : Nat) : Nat := d.field (FC_INRUSH.reg i) 0 8

/-- Offset of FC_RETRY (07_feed_controllers.md, 7-8). -/
def FC_RETRY.reg (i : Nat) : Nat := 0x3814 + 0x40 * i
def FC_RETRY.retry_max (d : Dev) (i : Nat) : Nat := d.field (FC_RETRY.reg i) 28 4
def FC_RETRY.backoff (d : Dev) (i : Nat) : Nat := d.field (FC_RETRY.reg i) 26 2
def FC_RETRY.retry_clear (d : Dev) (i : Nat) : Nat := d.field (FC_RETRY.reg i) 16 8
def FC_RETRY.holdoff (d : Dev) (i : Nat) : Nat := d.field (FC_RETRY.reg i) 0 16

/-- Offset of FC_SOA_R (07_feed_controllers.md, 7-9). -/
def FC_SOA_R.reg (i : Nat) : Nat := 0x3818 + 0x40 * i
def FC_SOA_R.r1 (d : Dev) (i : Nat) : Nat := d.field (FC_SOA_R.reg i) 16 16
def FC_SOA_R.r2 (d : Dev) (i : Nat) : Nat := d.field (FC_SOA_R.reg i) 0 16

/-- Offset of FC_SOA_A (07_feed_controllers.md, 7-10). -/
def FC_SOA_A.reg (i : Nat) : Nat := 0x381C + 0x40 * i
def FC_SOA_A.a1 (d : Dev) (i : Nat) : Nat := d.field (FC_SOA_A.reg i) 16 16
def FC_SOA_A.a2 (d : Dev) (i : Nat) : Nat := d.field (FC_SOA_A.reg i) 0 16

/-- Offset of FC_SOA_T (07_feed_controllers.md, 7-11). -/
def FC_SOA_T.reg (i : Nat) : Nat := 0x3820 + 0x40 * i
def FC_SOA_T.soa_trip (d : Dev) (i : Nat) : Nat := d.field (FC_SOA_T.reg i) 24 8
def FC_SOA_T.soa_restart (d : Dev) (i : Nat) : Nat := d.field (FC_SOA_T.reg i) 16 8
def FC_SOA_T.tref_fix (d : Dev) (i : Nat) : Nat := d.field (FC_SOA_T.reg i) 8 8
def FC_SOA_T.lim_warn (d : Dev) (i : Nat) : Nat := d.field (FC_SOA_T.reg i) 0 8

/-- Offset of FC_SHARE (07_feed_controllers.md, 7-12). -/
def FC_SHARE.reg (i : Nat) : Nat := 0x3900 + 4 * i
def FC_SHARE.en (d : Dev) (i : Nat) : Nat := d.field (FC_SHARE.reg i) 31 1
def FC_SHARE.period (d : Dev) (i : Nat) : Nat := d.field (FC_SHARE.reg i) 16 8
def FC_SHARE.ki (d : Dev) (i : Nat) : Nat := d.field (FC_SHARE.reg i) 8 8
def FC_SHARE.step (d : Dev) (i : Nat) : Nat := d.field (FC_SHARE.reg i) 0 8

/-- Offset of BC_CTRL (08_branch_channels.md, 8-8). -/
def BC_CTRL.reg (i : Nat) : Nat := 0x3C00 + 0x40 * i
def BC_CTRL.auto_on (d : Dev) (i : Nat) : Nat := d.field (BC_CTRL.reg i) 21 1
def BC_CTRL.bank (d : Dev) (i : Nat) : Nat := d.field (BC_CTRL.reg i) 18 2
def BC_CTRL.tref_src (d : Dev) (i : Nat) : Nat := d.field (BC_CTRL.reg i) 17 1
def BC_CTRL.th_idx (d : Dev) (i : Nat) : Nat := d.field (BC_CTRL.reg i) 14 3
def BC_CTRL.policy (d : Dev) (i : Nat) : Nat := d.field (BC_CTRL.reg i) 12 2

/-- Offset of BC_SCALE (08_branch_channels.md, 8-9). -/
def BC_SCALE.reg (i : Nat) : Nat := 0x3C04 + 0x40 * i
def BC_SCALE.fs (d : Dev) (i : Nat) : Nat := d.field (BC_SCALE.reg i) 0 24

/-- Offset of BC_LIMIT (08_branch_channels.md, 8-10). -/
def BC_LIMIT.reg (i : Nat) : Nat := 0x3C08 + 0x40 * i
def BC_LIMIT.ilim (d : Dev) (i : Nat) : Nat := d.field (BC_LIMIT.reg i) 22 10
def BC_LIMIT.mult (d : Dev) (i : Nat) : Nat := d.field (BC_LIMIT.reg i) 16 6
def BC_LIMIT.lim_time (d : Dev) (i : Nat) : Nat := d.field (BC_LIMIT.reg i) 8 8

/-- Offset of BC_RAMP (08_branch_channels.md, 8-11). -/
def BC_RAMP.reg (i : Nat) : Nat := 0x3C0C + 0x40 * i
def BC_RAMP.ramp_rate (d : Dev) (i : Nat) : Nat := d.field (BC_RAMP.reg i) 16 16
def BC_RAMP.on_dv (d : Dev) (i : Nat) : Nat := d.field (BC_RAMP.reg i) 8 8
def BC_RAMP.ramp_timeout (d : Dev) (i : Nat) : Nat := d.field (BC_RAMP.reg i) 0 8

/-- Offset of BC_RETRY (08_branch_channels.md, 8-12). -/
def BC_RETRY.reg (i : Nat) : Nat := 0x3C10 + 0x40 * i
def BC_RETRY.retry_max (d : Dev) (i : Nat) : Nat := d.field (BC_RETRY.reg i) 28 4
def BC_RETRY.backoff (d : Dev) (i : Nat) : Nat := d.field (BC_RETRY.reg i) 26 2
def BC_RETRY.retry_clear (d : Dev) (i : Nat) : Nat := d.field (BC_RETRY.reg i) 16 8
def BC_RETRY.holdoff (d : Dev) (i : Nat) : Nat := d.field (BC_RETRY.reg i) 0 16

/-- Offset of BC_TH_R (08_branch_channels.md, 8-13). -/
def BC_TH_R.reg (i : Nat) : Nat := 0x3C14 + 0x40 * i
def BC_TH_R.r1 (d : Dev) (i : Nat) : Nat := d.field (BC_TH_R.reg i) 16 16
def BC_TH_R.r2 (d : Dev) (i : Nat) : Nat := d.field (BC_TH_R.reg i) 0 16

/-- Offset of BC_TH_R3 (08_branch_channels.md, 8-14). -/
def BC_TH_R3.reg (i : Nat) : Nat := 0x3C18 + 0x40 * i
def BC_TH_R3.r3 (d : Dev) (i : Nat) : Nat := d.field (BC_TH_R3.reg i) 16 16
def BC_TH_R3.rds (d : Dev) (i : Nat) : Nat := d.field (BC_TH_R3.reg i) 0 16

/-- Offset of BC_TH_K1 (08_branch_channels.md, 8-15). -/
def BC_TH_K1.reg (i : Nat) : Nat := 0x3C1C + 0x40 * i
def BC_TH_K1.k (d : Dev) (i : Nat) : Nat := d.field (BC_TH_K1.reg i) 0 24

/-- Offset of BC_TH_K2 (08_branch_channels.md, 8-15). -/
def BC_TH_K2.reg (i : Nat) : Nat := 0x3C20 + 0x40 * i
def BC_TH_K2.k (d : Dev) (i : Nat) : Nat := d.field (BC_TH_K2.reg i) 0 24

/-- Offset of BC_TH_K3 (08_branch_channels.md, 8-15). -/
def BC_TH_K3.reg (i : Nat) : Nat := 0x3C24 + 0x40 * i
def BC_TH_K3.k (d : Dev) (i : Nat) : Nat := d.field (BC_TH_K3.reg i) 0 24

/-- Offset of BC_TH_T (08_branch_channels.md, 8-16). -/
def BC_TH_T.reg (i : Nat) : Nat := 0x3C28 + 0x40 * i
def BC_TH_T.tj_trip (d : Dev) (i : Nat) : Nat := d.field (BC_TH_T.reg i) 24 8
def BC_TH_T.tj_restart (d : Dev) (i : Nat) : Nat := d.field (BC_TH_T.reg i) 16 8
def BC_TH_T.tref_fix (d : Dev) (i : Nat) : Nat := d.field (BC_TH_T.reg i) 8 8

/-- Offset of BC_BANK_CFG (08_branch_channels.md, 8-17). -/
def BC_BANK_CFG.reg (i : Nat) : Nat := 0x4200 + 0x10 * i
def BC_BANK_CFG.en (d : Dev) (i : Nat) : Nat := d.field (BC_BANK_CFG.reg i) 31 1
def BC_BANK_CFG.bus_conv (d : Dev) (i : Nat) : Nat := d.field (BC_BANK_CFG.reg i) 24 6
def BC_BANK_CFG.sum_conv (d : Dev) (i : Nat) : Nat := d.field (BC_BANK_CFG.reg i) 18 6
def BC_BANK_CFG.tol (d : Dev) (i : Nat) : Nat := d.field (BC_BANK_CFG.reg i) 8 10
def BC_BANK_CFG.bank_persist (d : Dev) (i : Nat) : Nat := d.field (BC_BANK_CFG.reg i) 0 8

/-- Offset of BSM_STR_CFG (09_battery_shelf.md, 9-4). -/
def BSM_STR_CFG.reg (i : Nat) : Nat := 0x4400 + 0x40 * i
def BSM_STR_CFG.auto_conn (d : Dev) (i : Nat) : Nat := d.field (BSM_STR_CFG.reg i) 25 1
def BSM_STR_CFG.aux_en (d : Dev) (i : Nat) : Nat := d.field (BSM_STR_CFG.reg i) 24 1
def BSM_STR_CFG.aux_grp (d : Dev) (i : Nat) : Nat := d.field (BSM_STR_CFG.reg i) 20 4
def BSM_STR_CFG.bus_conv (d : Dev) (i : Nat) : Nat := d.field (BSM_STR_CFG.reg i) 14 6
def BSM_STR_CFG.cc_pol (d : Dev) (i : Nat) : Nat := d.field (BSM_STR_CFG.reg i) 13 1
def BSM_STR_CFG.th_idx (d : Dev) (i : Nat) : Nat := d.field (BSM_STR_CFG.reg i) 10 3
def BSM_STR_CFG.dec_auto (d : Dev) (i : Nat) : Nat := d.field (BSM_STR_CFG.reg i) 9 1

/-- Offset of BSM_STR_CC (09_battery_shelf.md, 9-5). -/
def BSM_STR_CC.reg (i : Nat) : Nat := 0x4404 + 0x40 * i
def BSM_STR_CC.lo_i (d : Dev) (i : Nat) : Nat := d.field (BSM_STR_CC.reg i) 24 8
def BSM_STR_CC.fs_cc (d : Dev) (i : Nat) : Nat := d.field (BSM_STR_CC.reg i) 0 24

/-- Offset of BSM_STR_PRE (09_battery_shelf.md, 9-6). -/
def BSM_STR_PRE.reg (i : Nat) : Nat := 0x4408 + 0x40 * i
def BSM_STR_PRE.pre_ohm (d : Dev) (i : Nat) : Nat := d.field (BSM_STR_PRE.reg i) 20 12
def BSM_STR_PRE.pre_dv (d : Dev) (i : Nat) : Nat := d.field (BSM_STR_PRE.reg i) 12 8
def BSM_STR_PRE.pre_timeout (d : Dev) (i : Nat) : Nat := d.field (BSM_STR_PRE.reg i) 4 8

/-- Offset of BSM_STR_K (09_battery_shelf.md, 9-7). -/
def BSM_STR_K.reg (i : Nat) : Nat := 0x440C + 0x40 * i
def BSM_STR_K.close_time (d : Dev) (i : Nat) : Nat := d.field (BSM_STR_K.reg i) 24 8
def BSM_STR_K.pc_overlap (d : Dev) (i : Nat) : Nat := d.field (BSM_STR_K.reg i) 16 8
def BSM_STR_K.pull_in (d : Dev) (i : Nat) : Nat := d.field (BSM_STR_K.reg i) 8 8
def BSM_STR_K.hold_duty (d : Dev) (i : Nat) : Nat := d.field (BSM_STR_K.reg i) 0 8

/-- Offset of BSM_STR_OPEN (09_battery_shelf.md, 9-8). -/
def BSM_STR_OPEN.reg (i : Nat) : Nat := 0x4410 + 0x40 * i
def BSM_STR_OPEN.open_time (d : Dev) (i : Nat) : Nat := d.field (BSM_STR_OPEN.reg i) 24 8
def BSM_STR_OPEN.open_wait (d : Dev) (i : Nat) : Nat := d.field (BSM_STR_OPEN.reg i) 16 8
def BSM_STR_OPEN.open_i (d : Dev) (i : Nat) : Nat := d.field (BSM_STR_OPEN.reg i) 8 8
def BSM_STR_OPEN.pre_gap (d : Dev) (i : Nat) : Nat := d.field (BSM_STR_OPEN.reg i) 0 8

/-- Offset of BSM_STR_VLIM (09_battery_shelf.md, 9-9). -/
def BSM_STR_VLIM.reg (i : Nat) : Nat := 0x4414 + 0x40 * i
def BSM_STR_VLIM.full_v (d : Dev) (i : Nat) : Nat := d.field (BSM_STR_VLIM.reg i) 16 16
def BSM_STR_VLIM.empty_v (d : Dev) (i : Nat) : Nat := d.field (BSM_STR_VLIM.reg i) 0 16

/-- Offset of BSM_STR_CUT (09_battery_shelf.md, 9-10). -/
def BSM_STR_CUT.reg (i : Nat) : Nat := 0x4418 + 0x40 * i
def BSM_STR_CUT.cut_v (d : Dev) (i : Nat) : Nat := d.field (BSM_STR_CUT.reg i) 16 16
def BSM_STR_CUT.cut_time (d : Dev) (i : Nat) : Nat := d.field (BSM_STR_CUT.reg i) 8 8
def BSM_STR_CUT.empty_time (d : Dev) (i : Nat) : Nat := d.field (BSM_STR_CUT.reg i) 0 8

/-- Offset of BSM_STR_ANCH (09_battery_shelf.md, 9-11). -/
def BSM_STR_ANCH.reg (i : Nat) : Nat := 0x441C + 0x40 * i
def BSM_STR_ANCH.full_time (d : Dev) (i : Nat) : Nat := d.field (BSM_STR_ANCH.reg i) 24 8
def BSM_STR_ANCH.full_i (d : Dev) (i : Nat) : Nat := d.field (BSM_STR_ANCH.reg i) 16 8
def BSM_STR_ANCH.empty_i (d : Dev) (i : Nat) : Nat := d.field (BSM_STR_ANCH.reg i) 8 8
def BSM_STR_ANCH.ramp (d : Dev) (i : Nat) : Nat := d.field (BSM_STR_ANCH.reg i) 0 8

/-- Offset of BSM_STR_EST (09_battery_shelf.md, 9-12). -/
def BSM_STR_EST.reg (i : Nat) : Nat := 0x4420 + 0x40 * i
def BSM_STR_EST.floor (d : Dev) (i : Nat) : Nat := d.field (BSM_STR_EST.reg i) 22 10
def BSM_STR_EST.unc_limit (d : Dev) (i : Nat) : Nat := d.field (BSM_STR_EST.reg i) 12 10
def BSM_STR_EST.learn_lim (d : Dev) (i : Nat) : Nat := d.field (BSM_STR_EST.reg i) 3 9

/-- Offset of BSM_STR_UNC (09_battery_shelf.md, 9-13). -/
def BSM_STR_UNC.reg (i : Nat) : Nat := 0x4424 + 0x40 * i
def BSM_STR_UNC.gain_err (d : Dev) (i : Nat) : Nat := d.field (BSM_STR_UNC.reg i) 16 16
def BSM_STR_UNC.anc_unc (d : Dev) (i : Nat) : Nat := d.field (BSM_STR_UNC.reg i) 0 8

/-- Offset of BSM_STR_IDLE (09_battery_shelf.md, 9-14). -/
def BSM_STR_IDLE.reg (i : Nat) : Nat := 0x4428 + 0x40 * i
def BSM_STR_IDLE.idle_drain (d : Dev) (i : Nat) : Nat := d.field (BSM_STR_IDLE.reg i) 16 16
def BSM_STR_IDLE.depot_unc (d : Dev) (i : Nat) : Nat := d.field (BSM_STR_IDLE.reg i) 6 10

/-- Offset of BSM_STR_CHG (09_battery_shelf.md, 9-15). -/
def BSM_STR_CHG.reg (i : Nat) : Nat := 0x442C + 0x40 * i
def BSM_STR_CHG.chg_max (d : Dev) (i : Nat) : Nat := d.field (BSM_STR_CHG.reg i) 16 16
def BSM_STR_CHG.chg_tmin (d : Dev) (i : Nat) : Nat := d.field (BSM_STR_CHG.reg i) 8 8
def BSM_STR_CHG.chg_tmax (d : Dev) (i : Nat) : Nat := d.field (BSM_STR_CHG.reg i) 0 8

/-- Offset of BSM_STR_CAP (09_battery_shelf.md, 9-16). -/
def BSM_STR_CAP.reg (i : Nat) : Nat := 0x4430 + 0x40 * i
def BSM_STR_CAP.cap_nom (d : Dev) (i : Nat) : Nat := d.field (BSM_STR_CAP.reg i) 0 24

/-- Offset of BSM_SHELF (09_battery_shelf.md, 9-17). -/
def BSM_SHELF.reg : Nat := 0x4500
def BSM_SHELF.ckpt_period (d : Dev) : Nat := d.field (BSM_SHELF.reg) 24 8
def BSM_SHELF.holdup_i (d : Dev) : Nat := d.field (BSM_SHELF.reg) 16 8
def BSM_SHELF.depot_auto (d : Dev) : Nat := d.field (BSM_SHELF.reg) 15 1
def BSM_SHELF.wear_lim (d : Dev) : Nat := d.field (BSM_SHELF.reg) 0 8

/-- Offset of TT_CTRL (10_timetable.md, 10-7). -/
def TT_CTRL.reg : Nat := 0x4800
def TT_CTRL.auto_up (d : Dev) : Nat := d.field (TT_CTRL.reg) 23 1
def TT_CTRL.halt_out (d : Dev) : Nat := d.field (TT_CTRL.reg) 22 1
def TT_CTRL.halt_in (d : Dev) : Nat := d.field (TT_CTRL.reg) 21 1
def TT_CTRL.last_step (d : Dev) : Nat := d.field (TT_CTRL.reg) 17 4
def TT_CTRL.off_min (d : Dev) : Nat := d.field (TT_CTRL.reg) 9 8

/-- Offset of TT_BELL (10_timetable.md, 10-8). -/
def TT_BELL.reg : Nat := 0x4804
def TT_BELL.en (d : Dev) : Nat := d.field (TT_BELL.reg) 31 1
def TT_BELL.head (d : Dev) : Nat := d.field (TT_BELL.reg) 30 1
def TT_BELL.bell_timeout (d : Dev) : Nat := d.field (TT_BELL.reg) 16 14
def TT_BELL.halt_min (d : Dev) : Nat := d.field (TT_BELL.reg) 8 8

/-- Offset of TT_STEP (10_timetable.md, 10-10). -/
def TT_STEP.reg (i : Nat) : Nat := 0x4810 + 4 * i
def TT_STEP.gap_up (d : Dev) (i : Nat) : Nat := d.field (TT_STEP.reg i) 24 8
def TT_STEP.gap_down (d : Dev) (i : Nat) : Nat := d.field (TT_STEP.reg i) 16 8

/-- Offset of TT_RAIL_CFG (10_timetable.md, 10-11). -/
def TT_RAIL_CFG.reg (i : Nat) : Nat := 0x4880 + 0x20 * i
def TT_RAIL_CFG.en (d : Dev) (i : Nat) : Nat := d.field (TT_RAIL_CFG.reg i) 28 1
def TT_RAIL_CFG.step (d : Dev) (i : Nat) : Nat := d.field (TT_RAIL_CFG.reg i) 24 4
def TT_RAIL_CFG.ctl (d : Dev) (i : Nat) : Nat := d.field (TT_RAIL_CFG.reg i) 22 2
def TT_RAIL_CFG.mon (d : Dev) (i : Nat) : Nat := d.field (TT_RAIL_CFG.reg i) 20 2
def TT_RAIL_CFG.pol_en (d : Dev) (i : Nat) : Nat := d.field (TT_RAIL_CFG.reg i) 19 1
def TT_RAIL_CFG.pol_mon (d : Dev) (i : Nat) : Nat := d.field (TT_RAIL_CFG.reg i) 18 1
def TT_RAIL_CFG.dis_en (d : Dev) (i : Nat) : Nat := d.field (TT_RAIL_CFG.reg i) 17 1
def TT_RAIL_CFG.lost_act (d : Dev) (i : Nat) : Nat := d.field (TT_RAIL_CFG.reg i) 16 1
def TT_RAIL_CFG.bus (d : Dev) (i : Nat) : Nat := d.field (TT_RAIL_CFG.reg i) 14 2
def TT_RAIL_CFG.avs_en (d : Dev) (i : Nat) : Nat := d.field (TT_RAIL_CFG.reg i) 13 1
def TT_RAIL_CFG.avs (d : Dev) (i : Nat) : Nat := d.field (TT_RAIL_CFG.reg i) 12 1
def TT_RAIL_CFG.avs_sel (d : Dev) (i : Nat) : Nat := d.field (TT_RAIL_CFG.reg i) 8 4
def TT_RAIL_CFG.inrush (d : Dev) (i : Nat) : Nat := d.field (TT_RAIL_CFG.reg i) 0 8

/-- Offset of TT_RAIL_TIM (10_timetable.md, 10-12). -/
def TT_RAIL_TIM.reg (i : Nat) : Nat := 0x4884 + 0x20 * i
def TT_RAIL_TIM.pg_timeout (d : Dev) (i : Nat) : Nat := d.field (TT_RAIL_TIM.reg i) 20 12
def TT_RAIL_TIM.off_timeout (d : Dev) (i : Nat) : Nat := d.field (TT_RAIL_TIM.reg i) 12 8
def TT_RAIL_TIM.dis_time (d : Dev) (i : Nat) : Nat := d.field (TT_RAIL_TIM.reg i) 4 8
def TT_RAIL_TIM.pg_filt (d : Dev) (i : Nat) : Nat := d.field (TT_RAIL_TIM.reg i) 0 4

/-- Offset of TT_RAIL_PMB (10_timetable.md, 10-13). -/
def TT_RAIL_PMB.reg (i : Nat) : Nat := 0x4888 + 0x20 * i
def TT_RAIL_PMB.addr (d : Dev) (i : Nat) : Nat := d.field (TT_RAIL_PMB.reg i) 25 7
def TT_RAIL_PMB.page (d : Dev) (i : Nat) : Nat := d.field (TT_RAIL_PMB.reg i) 17 8
def TT_RAIL_PMB.vout_exp (d : Dev) (i : Nat) : Nat := d.field (TT_RAIL_PMB.reg i) 12 5

/-- Offset of TT_RAIL_VOUT (10_timetable.md, 10-14). -/
def TT_RAIL_VOUT.reg (i : Nat) : Nat := 0x488C + 0x20 * i
def TT_RAIL_VOUT.vout (d : Dev) (i : Nat) : Nat := d.field (TT_RAIL_VOUT.reg i) 16 16
def TT_RAIL_VOUT.fault_mask (d : Dev) (i : Nat) : Nat := d.field (TT_RAIL_VOUT.reg i) 0 16

/-- Offset of TT_RAIL_VLIM (10_timetable.md, 10-15). -/
def TT_RAIL_VLIM.reg (i : Nat) : Nat := 0x4890 + 0x20 * i
def TT_RAIL_VLIM.vmax (d : Dev) (i : Nat) : Nat := d.field (TT_RAIL_VLIM.reg i) 16 16
def TT_RAIL_VLIM.vmin (d : Dev) (i : Nat) : Nat := d.field (TT_RAIL_VLIM.reg i) 0 16

/-- Offset of PB_CFG (10_timetable.md, 10-16). -/
def PB_CFG.reg (i : Nat) : Nat := 0x4C00 + 0x10 * i
def PB_CFG.en (d : Dev) (i : Nat) : Nat := d.field (PB_CFG.reg i) 31 1
def PB_CFG.rate (d : Dev) (i : Nat) : Nat := d.field (PB_CFG.reg i) 29 2
def PB_CFG.pec (d : Dev) (i : Nat) : Nat := d.field (PB_CFG.reg i) 28 1
def PB_CFG.alert_en (d : Dev) (i : Nat) : Nat := d.field (PB_CFG.reg i) 27 1
def PB_CFG.retries (d : Dev) (i : Nat) : Nat := d.field (PB_CFG.reg i) 24 3
def PB_CFG.poll_ms (d : Dev) (i : Nat) : Nat := d.field (PB_CFG.reg i) 16 8
def PB_CFG.tele_ms (d : Dev) (i : Nat) : Nat := d.field (PB_CFG.reg i) 8 8

/-- Offset of AV_CFG (10_timetable.md, 10-18). -/
def AV_CFG.reg (i : Nat) : Nat := 0x4C40 + 0x10 * i
def AV_CFG.en (d : Dev) (i : Nat) : Nat := d.field (AV_CFG.reg i) 31 1
def AV_CFG.clk_div (d : Dev) (i : Nat) : Nat := d.field (AV_CFG.reg i) 0 8

/-- Offset of TO_CAP_SURGE (11_token_office.md, 11-6). -/
def TO_CAP_SURGE.reg : Nat := 0x5000
def TO_CAP_SURGE.recover (d : Dev) : Nat := d.field (TO_CAP_SURGE.reg) 24 8
def TO_CAP_SURGE.cap (d : Dev) : Nat := d.field (TO_CAP_SURGE.reg) 0 24

/-- Offset of TO_CAP (11_token_office.md, 11-7). -/
def TO_CAP.reg : Nat := 0x5004
def TO_CAP.gate (d : Dev) : Nat := d.field (TO_CAP.reg) 22 10
def TO_CAP.core (d : Dev) : Nat := d.field (TO_CAP.reg) 10 12
def TO_CAP.mram (d : Dev) : Nat := d.field (TO_CAP.reg) 6 4

/-- Offset of TO_DECL (11_token_office.md, 11-8). -/
def TO_DECL.reg : Nat := 0x5008
def TO_DECL.pump_ma (d : Dev) : Nat := d.field (TO_DECL.reg) 24 8
def TO_DECL.coil_ma (d : Dev) : Nat := d.field (TO_DECL.reg) 16 8
def TO_DECL.sweep (d : Dev) : Nat := d.field (TO_DECL.reg) 4 12

/-- Offset of TO_WAIT (11_token_office.md, 11-9). -/
def TO_WAIT.reg : Nat := 0x500C
def TO_WAIT.wait0 (d : Dev) : Nat := d.field (TO_WAIT.reg) 24 8
def TO_WAIT.wait1 (d : Dev) : Nat := d.field (TO_WAIT.reg) 16 8
def TO_WAIT.wait2 (d : Dev) : Nat := d.field (TO_WAIT.reg) 8 8
def TO_WAIT.wait3 (d : Dev) : Nat := d.field (TO_WAIT.reg) 0 8

/-- Offset of IL_CFG (12_interlocking.md, 12-11). -/
def IL_CFG.reg : Nat := 0x5400
def IL_CFG.sirq_b (d : Dev) : Nat := d.field (IL_CFG.reg) 31 1
def IL_CFG.shed_gap (d : Dev) : Nat := d.field (IL_CFG.reg) 8 8
def IL_CFG.settle (d : Dev) : Nat := d.field (IL_CFG.reg) 0 8

/-- Offset of IL_HB (12_interlocking.md, 12-12). -/
def IL_HB.reg : Nat := 0x5404
def IL_HB.hb_act (d : Dev) : Nat := d.field (IL_HB.reg) 30 2
def IL_HB.sp_act (d : Dev) : Nat := d.field (IL_HB.reg) 28 2
def IL_HB.sp_timeout (d : Dev) : Nat := d.field (IL_HB.reg) 16 12
def IL_HB.hb_timeout (d : Dev) : Nat := d.field (IL_HB.reg) 0 16

/-- Offset of IL_SLW_BR (12_interlocking.md, 12-18). -/
def IL_SLW_BR.reg : Nat := 0x5440
def IL_SLW_BR.br_keep (d : Dev) : Nat := d.field (IL_SLW_BR.reg) 0 24

/-- Offset of IL_SLW_RL (12_interlocking.md, 12-19). -/
def IL_SLW_RL.reg : Nat := 0x5444
def IL_SLW_RL.rl_keep (d : Dev) : Nat := d.field (IL_SLW_RL.reg) 0 16

/-- Offset of IL_RX (12_interlocking.md, 12-21). -/
def IL_RX.reg (i : Nat) : Nat := 0x5500 + 4 * i
def IL_RX.class (d : Dev) (i : Nat) : Nat := d.field (IL_RX.reg i) 22 2
def IL_RX.action (d : Dev) (i : Nat) : Nat := d.field (IL_RX.reg i) 16 4

/-- Offset of TR_CTRL (13_train_register.md, 13-8). -/
def TR_CTRL.reg : Nat := 0x5800
def TR_CTRL.ckpt (d : Dev) : Nat := d.field (TR_CTRL.reg) 24 8
def TR_CTRL.early (d : Dev) : Nat := d.field (TR_CTRL.reg) 16 8

/-- Offset of SYS_PATTERN (18_register_map.md, 18-4). -/
def SYS_PATTERN.reg : Nat := 0x0014
def SYS_PATTERN.pattern (d : Dev) : Nat := d.field (SYS_PATTERN.reg) 0 2

/-- Offset of SYS_AUTO_GRP (18_register_map.md, 18-5). -/
def SYS_AUTO_GRP.reg : Nat := 0x0018
def SYS_AUTO_GRP.auto_groups (d : Dev) : Nat := d.field (SYS_AUTO_GRP.reg) 0 16

/-- Offset of SYS_PAT_DIV (18_register_map.md, 18-6). -/
def SYS_PAT_DIV.reg (i : Nat) : Nat := 0x0040 + 4 * i
def SYS_PAT_DIV.div_express (d : Dev) (i : Nat) : Nat := d.field (SYS_PAT_DIV.reg i) 4 2
def SYS_PAT_DIV.div_mixed (d : Dev) (i : Nat) : Nat := d.field (SYS_PAT_DIV.reg i) 2 2
def SYS_PAT_DIV.div_freight (d : Dev) (i : Nat) : Nat := d.field (SYS_PAT_DIV.reg i) 0 2

/-- Offset of ELE_PACE (18_register_map.md, 18-7). -/
def ELE_PACE.reg : Nat := 0x2228
def ELE_PACE.pace_floor (d : Dev) : Nat := d.field (ELE_PACE.reg) 0 12

/-- Offset of BGE_INT (18_register_map.md, 18-8). -/
def BGE_INT.reg (i : Nat) : Nat := 0x6000 + 4 * i
def BGE_INT.interval (d : Dev) (i : Nat) : Nat := d.field (BGE_INT.reg i) 0 24


end Sys2Proof.Machine
end

