-- ==== Sys2Proof/Machine/Office.lean ====
section
/-! DEFINITION. The Token Office: budgets, request slots, grants, returns, wait limits (spec/11_token_office.md
R295 to R309). -/
namespace Sys2Proof.Machine

/-- First slot numbers of Table 11-3. -/
def slotGroup (g : Nat) : Nat := g
def slotLeg (k : Nat) : Nat := 16 + k
def slotFeed (f : Nat) : Nat := 40 + f
def slotBranch (n : Nat) : Nat := 44 + n
def slotString (s : Nat) : Nat := 68 + s
def slotTimetable : Nat := 72
def slotSweep : Nat := 73
def slotMode : Nat := 74
def slotCommit : Nat := 75
def slotClear : Nat := 76
def slotFlush : Nat := 77
def slotFuse : Nat := 78

/-- The second request of slot 78, by the number the model gives it inside. -/
def slotSecond : Nat := 79

/-- The budgets of Table 11-1 by position. -/
def budSurge : Nat := 0
def budGate : Nat := 1
def budCore : Nat := 2
def budMram : Nat := 3
def budProg : Nat := 4

/-- Whether requests of a slot name a budget (Table 11-2). -/
def slotNames (slot b : Nat) : Bool :=
  if b = budSurge then slot < 73
  else if b = budGate then 44 ≤ slot && slot < 72
  else if b = budCore then slot == 73 || slot == 74
  else if b = budMram then 75 ≤ slot && slot < 78
  else slot == 78 || slot == slotSecond

/-- Slot `i`, or the second request of slot 78. -/
def Dev.slot (d : Dev) (i : Nat) : Slot :=
  if i = slotSecond then d.office.second else fileGet d.office.slots i default

/-- Change slot `i`, or the second request of slot 78. -/
def Dev.modSlot (d : Dev) (i : Nat) (f : Slot → Slot) : Dev :=
  { d with office := if i = slotSecond then { d.office with second := f d.office.second }
                     else { d.office with slots := fileMod d.office.slots i f } }

/-- The amount of a budget that a request declares. -/
def Slot.amount (s : Slot) (b : Nat) : Nat :=
  if b = budSurge then s.surge else if b = budGate then s.gate else if b = budCore then s.core
  else if b = budMram then s.mram else s.prog

/-- Capacity of a budget (Table 11-1). -/
def Dev.capacity (d : Dev) (b : Nat) : Nat :=
  if b = budSurge then TO_CAP_SURGE.cap d else if b = budGate then TO_CAP.gate d
  else if b = budCore then TO_CAP.core d else if b = budMram then TO_CAP.mram d else 1

/-- Sum of what holding slots hold of a budget. -/
def slotsHeld (b : Nat) : List Slot → Nat
  | [] => 0
  | s :: ss => (if s.state = .holding then s.amount b else 0) + slotsHeld b ss

/-- SURGE amounts released and not yet available (R302). -/
def recoveringSum : List Recovering → Nat
  | [] => 0
  | r :: rs => r.amount + recoveringSum rs

/-- The held amount of a budget: granted tokens, and 1.1 mA of CORE for every channel charged as Express, less what a
reduced request was spared (R295, R301, R306; log entry 104).
SURGE on its way back is held no more (DEDUCED, log entry 18). -/
def Dev.heldOf (d : Dev) (b : Nat) : Nat :=
  slotsHeld b d.office.slots.toList + (if b = budCore then 11 * popcount 128 d.trip.charged - d.trip.spared else 0)

/-- What a budget cannot give now: its held amount, and SURGE released and not yet available (R302). -/
def Dev.takenOf (d : Dev) (b : Nat) : Nat :=
  d.heldOf b + (if b = budSurge then recoveringSum d.office.recovering else 0)

/-- A budget is overdrawn while its held amount exceeds its capacity (R306). -/
def Dev.overdrawn (d : Dev) (b : Nat) : Bool := d.capacity b < d.heldOf b

/-- The event of R306. -/
def Dev.raiseOverdrawn (d : Dev) (b : Nat) : Dev :=
  if d.overdrawn b then d.raise 0x0176 clsC 164 (b * 2 ^ 24 + held 0xFFFFFF (d.heldOf b)) (d.capacity b) else d

/-- The wait limit of a rank, in ticks (R303). -/
def Dev.waitLimit (d : Dev) (rank : Nat) : Nat :=
  10 * ticksPerMs *
    (if rank = 0 then TO_WAIT.wait0 d else if rank = 1 then TO_WAIT.wait1 d
     else if rank = 2 then TO_WAIT.wait2 d else TO_WAIT.wait3 d)

/-- The rank a command takes from its ring (R299). -/
def ringRank (n : Nat) : Nat := if n = 0 then 1 else if n = 1 then 2 else 3

/-- What a requester asks for. -/
structure Ask where
  rank   : Nat
  surge  : Nat := 0
  gate   : Nat := 0
  core   : Nat := 0
  mram   : Nat := 0
  prog   : Nat := 0
  span   : Nat := 0
  tagged : Bool := false

/-- The slot already holds a waiting request (R305). -/
def Dev.slotBusy (d : Dev) (i : Nat) : Bool := (d.slot i).state == .waiting

/-- An amount reduced to the capacity of its budget (R301). -/
def Dev.lowered (d : Dev) (b v : Nat) : Nat := min v (d.capacity b)

/-- The amounts of a request, each reduced to the capacity of its budget (R301). -/
def Dev.reduced (d : Dev) (s : Slot) : Slot :=
  { s with surge := d.lowered budSurge s.surge, gate := d.lowered budGate s.gate, core := d.lowered budCore s.core,
           mram := d.lowered budMram s.mram, prog := d.lowered budProg s.prog }

/-- A request arrives (R296, R299), and grants are evaluated. -/
def Dev.request (d : Dev) (i : Nat) (a : Ask) : Dev :=
  let put := fun (_ : Slot) => ({
    state := .waiting, rank := a.rank, surge := a.surge, gate := a.gate, core := a.core, mram := a.mram,
    prog := a.prog, arrival := d.now, serial := d.office.serial, limit := d.now + d.waitLimit a.rank, span := a.span, lapses := 0,
    tagged := a.tagged } : Slot)
  let d1 := d.modSlot i put
  { d1 with office := { d1.office with serial := d.office.serial + 1 } }.owe .office

/-- A held token returns, its SURGE after the recovery time (R302), or a waiting request is withdrawn (R304). -/
def Dev.release (d : Dev) (i : Nat) : Dev :=
  let s := d.slot i
  match s.state with
  | .empty => d
  | .waiting => (d.modSlot i (fun _ => default)).owe .office
  | .holding =>
    let d1 := d.modSlot i (fun _ => default)
    let wait := TO_CAP_SURGE.recover d * 10 * ticksPerUs
    let d2 := if s.surge = 0 ∨ wait = 0 then d1
      else { d1 with office := { d1.office with recovering := d1.office.recovering ++ [⟨s.surge, d.now + wait⟩] } }
    d2.owe .office

/-- Whether a request, reduced to the capacity as it stands now, fits one budget (R295, R301). -/
def Dev.fits (d : Dev) (i b : Nat) : Bool := d.takenOf b + d.lowered b ((d.slot i).amount b) ≤ d.capacity b

/-- Whether a request fits every budget it names. -/
def Dev.fitsAll (d : Dev) (i : Nat) : Bool := [0, 1, 2, 3, 4].all (fun b => !slotNames i b || d.fits i b)

/-- The waiting slots in order of rank, then of arrival (R300): insertion into a sorted list. -/
def insertSlot (d : Dev) (i : Nat) : List Nat → List Nat
  | [] => [i]
  | j :: js =>
    let a := d.slot i
    let b := d.slot j
    if a.rank < b.rank ∨ (a.rank = b.rank ∧ a.serial < b.serial) then i :: j :: js else j :: insertSlot d i js

/-- Every waiting slot in the order of R300. -/
def Dev.waitingSlots (d : Dev) : List Nat :=
  ((indices 80).filter (fun i => (d.slot i).state == .waiting)).foldr (insertSlot d) []

/-- Grant one request: it holds its whole amounts, reduced to the capacities, from now for its duration (R296, R298,
R301). The second request of slot 78 takes that slot. -/
def Dev.grant (d : Dev) (i : Nat) : Dev :=
  let s := d.slot i
  let held := { d.reduced s with state := .holding, lapses := if s.span = 0 then 0 else d.now + s.span }
  let k := if i = slotSecond then slotFuse else i
  let d1 := if i = slotSecond then d.modSlot i (fun _ => default) else d
  (d1.modSlot k (fun _ => held)).owe (.granted k)

/-- Visit waiting requests in order: grant what fits; what is not granted blocks every budget it names (R300).
`blocked` lists the blocked budgets. -/
def grantPass (blocked : List Nat) : List Nat → Dev → Dev
  | [], d => d
  | i :: is, d =>
    let names := [0, 1, 2, 3, 4].filter (slotNames i)
    if names.any (fun b => blocked.contains b) || !d.fitsAll i then grantPass (blocked ++ names) is d
    else grantPass blocked is (d.grant i)

/-- One evaluation of grants (R300). Before step 6 of a start has ended no output may leave its safe state (R416): the
requests on SURGE, which are those of outputs, are visited from then on (log entry 14). -/
def Dev.evaluate (d : Dev) : Dev :=
  grantPass [] (d.waitingSlots.filter (fun i => d.core.phase != .testing || !slotNames i budSurge)) d

/-- The budgets that do not fit a waiting request, as a mask (LEAVE_TIMEOUT, Table 15-10). -/
def Dev.misfits (d : Dev) (i : Nat) : Nat := maskOf 5 (fun b => slotNames i b && !d.fits i b)

/-- A request is given up (R303): an untagged one raises LEAVE_TIMEOUT, and the requester is told. -/
def Dev.giveUp (d : Dev) (i : Nat) : Dev :=
  let s := d.slot i
  let misfit := d.misfits i
  let d1 := d.modSlot i (fun _ => default)
  let d2 := if s.tagged then d1 else d1.raise 0x0175 clsC 164 i misfit
  (d2.owe (.gaveUp i)).owe .office

end Sys2Proof.Machine
end

