-- ==== Sys2Proof/Machine/Interlock.lean ====
section
/-! DEFINITION. The slow half of the Interlocking: detections, classes, actions, settle windows, merging, the
first-error capture, fault records and events (spec/12_interlocking.md R310 to R323, R337). -/
namespace Sys2Proof.Machine

/-- Access types of R322. -/
def accRead : Nat := 0
def accWrite : Nat := 1
def accCompute : Nat := 2
def accMeasure : Nat := 3
def accDrive : Nat := 4

/-- Table 12-1: an address with its kind in bits [31:24]. -/
def detAddr (kind low : Nat) : Nat := kind * 2 ^ 24 + low % 2 ^ 24

/-- The group a leg belongs to (R97). -/
def Dev.groupOfLeg (d : Dev) (k : Nat) : Option Nat := (indices 16).find? (fun g => bitOf (ELE_GRP_LEGS.legs d g) k)

/-- The resources of an event source (R315). -/
def Dev.resourcesOf (d : Dev) (src : Nat) : List Res :=
  if src < 16 then [.group src]
  else if 32 ≤ src ∧ src < 56 then
    match d.groupOfLeg (src - 32) with
    | some g => [.group g]
    | none => []
  else if 64 ≤ src ∧ src < 88 then [.branch (src - 64)]
  else if 88 ≤ src ∧ src < 92 then
    ((indices 24).filter (fun n => BC_CTRL.bank d n == src - 88)).map .branch
  else if 96 ≤ src ∧ src < 100 then [.feed (src - 96)]
  else if 104 ≤ src ∧ src < 108 then [.string (src - 104)]
  else if 128 ≤ src ∧ src < 144 then [.timetable]
  else []

/-- The feed of a group, or the supplying groups of a feed (Table 12-6, touched set of NONE). -/
def Dev.partners (d : Dev) : Res → List Res
  | .group g => if ELE_GRP_CFG.feed_en d g = 1 then [.feed (ELE_GRP_CFG.feed d g)] else []
  | .feed f => ((indices 16).filter (fun g => ELE_GRP_CFG.feed_en d g == 1 && ELE_GRP_CFG.feed d g == f)).map .group
  | _ => []

/-- The touched set of NONE, STOP and REFILL: the source's resource and its feed or supplying group. -/
def Dev.touchedBy (d : Dev) (src : Nat) : List Res :=
  let rs := d.resourcesOf src
  rs ++ rs.flatMap d.partners

/-- The group is marked safety-critical: bit g of fuse row 25 as the last start took it (R422). -/
def Dev.safetyCrit (d : Dev) (g : Nat) : Bool := bitOf d.fuse.critical g

/-- Class and action of MEM_UNCORRECTABLE by memory (Table 12-4). -/
def Dev.memReaction (d : Dev) (mem src : Nat) : Nat × Action :=
  if mem = 0x01 then (clsB, .refill)
  else if mem = 0x02 then if d.safetyCrit src then (clsA, .singleLine) else (clsB, .stopReset)
  else if mem = 0x03 then (clsB, .none)
  else if mem = 0x04 then (clsB, .stopReset)
  else if mem = 0x12 ∨ mem = 0x13 ∨ mem = 0x14 then (clsB, .none)
  else (clsC, .none)

/-- Class and action of CORE_STALL by master (Table 12-5). A lane's retirement is its owner's own action. -/
def stallReaction (master : Nat) : Nat × Action :=
  if 0x10 ≤ master ∧ master ≤ 0x15 then (clsB, .none)
  else if master = 0x41 then (clsA, .singleLine)
  else if master = 0x40 ∨ master = 0x42 then (clsA, .restart)
  else (clsB, .blockReset)

/-- The action IL_RX.action codes (Table 12-21). -/
def actionOf (code : Nat) : Action :=
  if code = 1 then .stop else if code = 2 then .blockReset else if code = 3 then .singleLine
  else if code = 4 then .restart else if code = 5 then .refill else .none

/-- How a record shows an action (Table 13-4). -/
def Action.code : Action → Nat
  | .none => 0 | .stop => 1 | .blockReset => 2 | .singleLine => 3 | .restart => 4 | .refill => 5 | .stopReset => 1

/-- Class and action of a detection (R311, R312, R331, R332). -/
def Dev.reaction (d : Dev) (x : Detection) : Nat × Action :=
  if x.code = 0x01 then (FTA_CP_CFG.cls d (x.addr % 2 ^ 24), .none)
  else if x.code = 0x41 then d.memReaction (x.addr / 2 ^ 24) x.source
  else if x.code = 0x40 then stallReaction x.master
  else if x.code = 0x42 then (clsC, if IL_HB.hb_act d = 2 then .singleLine else .none)
  else if x.code = 0x43 then (clsC, if IL_HB.sp_act d = 2 then .singleLine else .none)
  else
    let w := d.reg (0x5500 + 4 * x.code)
    (bitsOf w 22 2, actionOf (bitsOf w 16 4))

/-- IL_STATUS.slw_cause for a detection (Table 12-13). -/
def slwCauseOf (code : Nat) : Nat :=
  if code = 0x16 then 1
  else if code = 0x14 ∨ code = 0x15 ∨ code = 0x40 ∨ code = 0x41 then 2
  else if code = 0x45 then 3 else if code = 0x42 then 4 else if code = 0x43 then 5 else 6

/-- The detection counts of IL_RX.count. -/
def Interlocking.countOf (il : Interlocking) (code : Nat) : Nat :=
  ((il.counts.find? (fun p => p.1 == code)).map (·.2)).getD 0

/-- One more detection of a code, held at 65,535. -/
def Interlocking.bump (il : Interlocking) (code : Nat) : Interlocking :=
  { il with counts := (code, held 65535 (il.countOf code + 1)) :: il.counts.filter (fun p => p.1 != code) }

/-- The injection under observation expects this detection (Table 12-9, R337). -/
def Injection.expects (i : Injection) (x : Detection) : Bool :=
  if i.kind = 1 then x.code == 0x41 && x.addr == i.word0 % 256 * 2 ^ 24 + i.word1 % 2 ^ 24
  else if i.kind = 2 then
    (x.code == 0x01 && x.addr % 2 ^ 24 == i.word0) || (x.code == 0x02 && x.addr / 2 ^ 12 % 2 ^ 12 == i.word0)
  else if i.kind = 4 then x.code == 0x40 && x.master == 0x20 + i.word0
  else if i.kind = 5 then x.code == i.word0 && x.source == i.word1
  else false

/-- An injection is still under observation. -/
def Dev.observing (d : Dev) (i : Injection) : Bool := decide (d.now ≤ i.endAt)

/-- The injected flag of a detection that arrives now (R337). -/
def Dev.isInjected (d : Dev) (x : Detection) : Bool := d.il.watched.any (fun i => d.observing i && i.expects x)

/-- The injections that expect a detection have been seen; one without a fault identifier takes `ident` (R337). -/
def Dev.noteInjected (d : Dev) (x : Detection) (ident : Nat) : Dev :=
  let note := fun (i : Injection) =>
    if d.observing i && i.expects x then { i with seen := true, ident := if i.ident = 0 then ident else i.ident } else i
  { d with il := { d.il with watched := d.il.watched.map note } }

/-- The oldest open fault whose touched set holds one of the resources (R318, R319). -/
def Dev.windowFor (d : Dev) (rs : List Res) : Option OpenFault :=
  d.il.faults.find? (fun f => !rs.isEmpty && (f.all || rs.any (fun r => f.touched.contains r)))

/-- The reaction of a fault runs through a transfer (Table 12-6): a block reset or a refill. -/
def Action.transfers : Action → Bool
  | .blockReset | .stopReset | .refill => true
  | _ => false

/-- The newest open fault with a reaction that runs through a transfer, for a detection that arose in that transfer. -/
def Dev.newestFault (d : Dev) : Option OpenFault := (d.il.faults.filter (fun f => f.action.transfers)).getLast?

/-- Change the open fault of an identifier. -/
def Dev.modFault (d : Dev) (ident : Nat) (f : OpenFault → OpenFault) : Dev :=
  { d with il := { d.il with faults := d.il.faults.map (fun x => if x.ident = ident then f x else x) } }

/-- The capture follows its fault's secondary count while its window is open (R321). -/
def Dev.captureSecs (d : Dev) (ident n : Nat) : Dev :=
  if d.il.capture.valid ∧ d.il.capture.ident = ident then
    { d with il := { d.il with capture := { d.il.capture with sec := held 15 n } } }
  else d

/-- Whether a CP_CROSSING takes the primary place of a fault its own row's column latch opened (R318). -/
def OpenFault.yieldsTo (f : OpenFault) (x : Detection) : Bool :=
  x.code == 0x01 && f.det.code == 0x02 && f.det.addr / 2 ^ 12 % 2 ^ 12 == x.addr % 2 ^ 24

/-- The higher of two classes: A above B above C. -/
def higherClass (a b : Nat) : Nat := if a = 0 then b else if b = 0 then a else min a b

/-- A consequential detection joins a fault as a secondary entry, or counts as overflow (R318). -/
def Dev.merge (d : Dev) (f : OpenFault) (x : Detection) (cls : Nat) (nested : Bool) : Dev :=
  let off := held 0xFFFF (d.now - f.opened.up)
  if f.yieldsTo x then
    let f' := { f with det := x, cls := higherClass f.cls cls, secs := (⟨f.det, 0, false⟩ :: f.secs).take 15,
                       overflow := if f.secs.length < 15 then f.overflow else held 0xFFFF (f.overflow + 1) }
    let d1 := d.modFault f.ident (fun _ => f')
    let c := d1.il.capture
    let c' : Capture := ⟨c.valid, x.injected, f'.cls, c.sec, x.code, x.source, x.master, x.access, c.ident, x.addr, c.stamp⟩
    let d2 := if c.valid ∧ c.ident = f.ident then { d1 with il := { d1.il with capture := c' } } else d1
    d2.captureSecs f.ident f'.secs.length
  else if f.secs.length < 15 then
    (d.modFault f.ident (fun g => { g with secs := g.secs ++ [⟨x, off, nested⟩] })).captureSecs f.ident
      (f.secs.length + 1)
  else d.modFault f.ident (fun g => { g with overflow := held 0xFFFF (g.overflow + 1) })

/-- The bytes of a secondary entry (Table 13-4). -/
def Secondary.bytes (s : Secondary) : List Byte :=
  leBytes s.det.code 1 ++ leBytes s.det.source 1 ++ leBytes s.det.master 1
  ++ leBytes (s.det.access % 8 + 128 * flag s.nested) 1 ++ leBytes s.det.addr 4 ++ leBytes s.offset 2

/-- FAULT_CONT records a fault with `k` secondary entries takes (R341). -/
def contRecords (k : Nat) : Nat := ceilDiv (k - 2) 3

/-- The payload of the FAULT record (Table 13-4). -/
def OpenFault.payload (f : OpenFault) : List Byte :=
  let k := f.secs.length
  leBytes f.ident 2 ++ leBytes f.det.code 1
  ++ leBytes (f.cls + 4 * f.action.code + 32 * flag f.escalated + 64 * flag f.det.injected) 1
  ++ leBytes f.det.source 1 ++ leBytes f.det.master 1 ++ leBytes f.det.access 1
  ++ leBytes (k % 16 + 16 * contRecords k) 1 ++ leBytes f.det.addr 4 ++ leBytes f.overflow 2 ++ zeros 2
  ++ fit 20 ((f.secs.take 2).flatMap Secondary.bytes)

/-- The payload of FAULT_CONT record number `p`, 1 to 5. -/
def OpenFault.contPayload (f : OpenFault) (p : Nat) : List Byte :=
  leBytes f.ident 2 ++ leBytes p 1 ++ zeros 1 ++ fit 30 (((f.secs.drop (3 * p - 1)).take 3).flatMap Secondary.bytes)

/-- All records of a fault, as one unit with the fault's time stamp (R341). -/
def OpenFault.drafts (f : OpenFault) : List Draft :=
  ⟨recFault, f.opened, f.payload⟩
  :: (List.range (contRecords f.secs.length)).map (fun j => ⟨recFaultCont, f.opened, f.contPayload (j + 1)⟩)

/-- A fault is written down (R322): its records as one unit, then its event. -/
def Dev.writeFault (d : Dev) (f : OpenFault) : Dev :=
  let rs := f.drafts
  let took := d.tr.takes true rs.length
  let seq := d.tr.next + flag (took && d.tr.dropRun != 0)
  let d1 := d.record true rs
  d1.postEvent f.det.source f.cls f.det.code (seq % 2 ^ 16) (!took) f.det.injected f.opened
    (f.det.master % 256 * 2 ^ 24 + f.det.access % 256 * 2 ^ 16 + f.ident) f.det.addr

/-- SIRQ_N is asserted for a written fault of class A, or B with sirq_b (R323). -/
def Dev.holdSirq (d : Dev) (f : OpenFault) : Dev :=
  if f.cls = clsA ∨ (f.cls = clsB ∧ IL_CFG.sirq_b d = 1) then
    { d with il := { d.il with sirq := d.il.sirq ++ [f.ident] } }
  else d

/-- Start or extend a flush of every record now in the buffer (R347), asking no leave. -/
def Dev.flushNow (d : Dev) : Dev :=
  if d.tr.buffer.isEmpty then d else { d with tr := { d.tr with flushTo := some (d.tr.next - 1) } }

/-- A settle window closes (R322, R323, R347). -/
def Dev.closeFault (d : Dev) (f : OpenFault) : Dev :=
  let d1 := { d with il := { d.il with faults := d.il.faults.filter (fun x => x.ident != f.ident) } }
  ((d1.writeFault f).holdSirq f).flushNow

/-- A Background Engine as a block of its own (Table 12-5): the engines share the base 0x6000, to which its number is
added here. -/
def engineBlock (e : Nat) : Nat := 0x6000 + e

/-- The base of the block a CORE_STALL's master belongs to (Table 12-5, Table 18-1). -/
def masterBlock (m : Nat) : Nat :=
  if m = 0x00 then 0x0100 else if m = 0x01 then 0x7000 else if m = 0x30 then 0x4800 else if m = 0x31 then 0x5000
  else if m = 0x32 then 0x5800 else if m = 0x33 then 0x5C00 else engineBlock (m - 0x20)

/-- The block whose block reset a detection's action asks for (Table 12-4, Table 12-5, Table 12-6). -/
def Dev.resetTargets (d : Dev) (x : Detection) : List Res :=
  if x.code = 0x40 then [.block (masterBlock x.master)] else d.resourcesOf x.source

/-- The touched set of a block reset (Table 12-6): the block, with the resource the block is. -/
def Dev.blockTouched (d : Dev) (x : Detection) : List Res :=
  d.resetTargets x ++ if x.code = 0x40 ∧ x.master = 0x30 then [.timetable] else []

/-- The work an action owes (Table 12-6, R315, R316, R324, R333). -/
def Dev.actionWork (d : Dev) (x : Detection) : Action → List Work
  | .none => []
  | .stop => (d.resourcesOf x.source).map (fun r => .stopLine r x.code)
  | .stopReset => (d.resourcesOf x.source).map (fun r => .stopLine r x.code)
      ++ (d.resetTargets x).map .blockReset
  | .blockReset => (d.resetTargets x).map .blockReset
  | .refill => [.refill x.source]
  | .singleLine => [.enterSlw (slwCauseOf x.code)]
  | .restart => [.restart (x.code == 0x46)]

/-- Times of earlier reports within the last second. -/
def Dev.recent (d : Dev) (ts : List Nat) : List Nat := ts.filter (fun t => d.now < t + ticksPerS)

/-- Escalation of repeated faults (R320): the action, whether it was escalated, and the device that has noted the
report. A stall injected by kind 4 never escalates (R337). -/
def Dev.escalate (d : Dev) (x : Detection) (a : Action) : Action × Bool × Dev :=
  if x.code = 0x14 then
    let ts := d.recent d.il.voteFails
    let d1 := { d with il := { d.il with voteFails := d.now :: ts } }
    if 2 ≤ ts.length then (.singleLine, true, d1) else (a, false, d1)
  else if x.code = 0x40 ∧ a = .blockReset ∧ !(decide (0x20 ≤ x.master) && decide (x.master ≤ 0x23)) then
    let ts := d.recent d.il.stalls
    let d1 := { d with il := { d.il with stalls := d.now :: ts } }
    if 1 ≤ ts.length ∧ !x.injected then (.singleLine, true, d1) else (a, false, d1)
  else (a, false, d)

/-- A fault opens (R317, R321): class C is written at once and opens no window. -/
def Dev.openFault (d : Dev) (x : Detection) (cls : Nat) (a : Action) (esc : Bool) : Dev :=
  let ident := (d.il.faultId + 1) % 2 ^ 16
  let wide := a == .singleLine || a == .restart
  let touched := if a = .blockReset then d.blockTouched x else d.touchedBy x.source
  let closes := d.now + IL_CFG.settle d * ticksPerUs
  let f : OpenFault := ⟨ident, x, cls, a, esc, d.stamp, closes, wide, touched, [], 0⟩
  let hard := if wide then some d.now else d.il.lastHard
  let d1 := { d with il := { d.il with faultId := ident, lastHard := hard } }
  let d2 := d1.noteInjected x ident
  let d3 := if cls < clsC ∧ d2.il.capture.valid = false then
      { d2 with il := { d2.il with capture :=
        ⟨true, x.injected, cls, 0, x.code, x.source, x.master, x.access, ident, x.addr, f.opened⟩ } }
    else d2
  let d4 := if cls < clsC then { d3 with il := { d3.il with faults := d3.il.faults ++ [f] } } else d3.writeFault f
  d4.oweAll (d4.actionWork x a)

/-- Report a detection to the Interlocking (R310 to R321). `inReaction` marks one that arose in the transfer carrying
the newest open fault's reaction. -/
def Dev.reportIn (d : Dev) (y : Detection) (inReaction : Bool) : Dev :=
  let x := { y with injected := d.isInjected y }
  let d0 := { d with il := d.il.bump x.code }
  let r := d0.reaction x
  let e := d0.escalate x r.2
  let a := e.1
  let d1 := e.2.2
  if a = .singleLine ∨ a = .restart then d1.openFault x r.1 a e.2.1
  else if inReaction then
    match d1.newestFault with
    | some f => (d1.merge f x r.1 true).noteInjected x f.ident
    | none => d1.openFault x r.1 a e.2.1
  else
    match d1.windowFor (d1.resourcesOf x.source) with
    | some f => (d1.merge f x r.1 false).noteInjected x f.ident
    | none => d1.openFault x r.1 a e.2.1

/-- Report a detection. -/
def Dev.report (d : Dev) (x : Detection) : Dev := d.reportIn x false

/-- A detection record. -/
def det (code source master access addr : Nat) : Detection := ⟨code, source, master, access, addr, false⟩

end Sys2Proof.Machine
end

