-- ==== Sys2Proof/Machine/Trip.lean ====
section
/-! DEFINITION. The trip matrix: rows, columns, latches and their release (spec/03_measurement_and_catch_points.md
R88 to R94, R139's live masks). -/
namespace Sys2Proof.Machine

/-- The columns of Table 3-14. -/
def colLeg (k : Nat) : Nat := k
def colBranch (n : Nat) : Nat := 24 + n
def colFeed (f : Nat) : Nat := 48 + f
def colString (s : Nat) : Nat := 52 + s

/-- The event source of a column's owner (Table 12-3, COLUMN_LATCH). -/
def colSource (c : Nat) : Nat :=
  if c < 24 then 32 + c else if c < 48 then 64 + (c - 24) else if c < 52 then 96 + (c - 48) else 104 + (c - 52)

/-- The configured mask of a row (R88). -/
def Dev.rowConfigured (d : Dev) (r : Nat) : Nat := FTA_TM_ROW_LO.col_lo d r + FTA_TM_ROW_HI.col_hi d r * 2 ^ 32

/-- The columns removed from the live mask of a row (R139). -/
def Dev.rowRemoved (d : Dev) (r : Nat) : Nat := ((d.trip.removed.find? (fun p => p.1 == r)).map (·.2)).getD 0

/-- `a` less the bits of `b`. -/
def without (a b : Nat) : Nat := a - Nat.land a b

/-- The live mask of a row: the one the trip matrix uses. -/
def Dev.rowMask (d : Dev) (r : Nat) : Nat := without (d.rowConfigured r) (d.rowRemoved r)

/-- DRVFLT input `k` is asserted: its line stands at the level FTA_DF_CFG.pol selects, or it is still treated as
asserted since a start (R94). -/
def Dev.inputAsserted (d : Dev) (k : Nat) : Bool :=
  let x := fileGet d.drv k default
  x.treated || x.level == (FTA_DF_CFG.pol d k == 1)

/-- A row drives while its channel is fault-side, or while its enabled DRVFLT input is asserted (R81, R88, R94). -/
def Dev.rowDrives (d : Dev) (r : Nat) : Bool :=
  if r < 128 then (fileGet d.cps r default).side == .fault
  else FTA_DF_CFG.en d (r - 128) == 1 && d.inputAsserted (r - 128)

/-- A row acts cycle by cycle on leg columns (R91). -/
def Dev.rowCycles (d : Dev) (r : Nat) : Bool := FTA_TM_ROW_HI.cycle d r == 1

/-- The columns a row latches while it drives: all it names, less the leg columns of a cycle row (R88, R91). -/
def Dev.rowLatches (d : Dev) (r : Nat) : Nat :=
  if d.rowCycles r then d.rowMask r / 2 ^ 24 * 2 ^ 24 else d.rowMask r

/-- The columns every driving row latches. -/
def Dev.drivenCols (d : Dev) : Nat :=
  (indices 152).foldl (fun acc r => if d.rowDrives r then Nat.lor acc (d.rowLatches r) else acc) 0

/-- The trip matrix is a combinational network (R88): whatever a command did, each column that a driving row names is
latched when it is over. -/
def Dev.latchStep (d : Dev) : Dev := { d with trip := { d.trip with latches := Nat.lor d.trip.latches d.drivenCols } }

/-- Column `c` is latched. -/
def Dev.isLatched (d : Dev) (c : Nat) : Bool := bitOf d.trip.latches c

/-- A row naming column `c` drives: the latch holds against every restart (R18, R90). -/
def Dev.colHeld (d : Dev) (c : Nat) : Bool := (indices 152).any (fun r => d.rowDrives r && bitOf (d.rowMask r) c)

/-- The owner of column `c` clears its latch during a restart, which it can only while no naming row drives (R90). -/
def Dev.clearLatch (d : Dev) (c : Nat) : Dev :=
  if d.colHeld c then d else { d with trip := { d.trip with latches := putBit d.trip.latches c false } }

/-- Row `r` sets the latch of column `c` (R88, R90): unless silent it is reported as COLUMN_LATCH, and the owner is
told. -/
def latchOne (r : Nat) (silent : Bool) (c : Nat) (d : Dev) : Dev :=
  if d.isLatched c then d
  else
    let d1 := { d with trip := { d.trip with latches := putBit d.trip.latches c true } }
    let d2 := if silent then d1
      else d1.report (det 0x02 (colSource c) 0x41 accDrive (detAddr 0x02 (r % 2 ^ 12 * 2 ^ 12 + c)))
    d2.owe (.latched c r)

/-- Row `r` ends the active interval of leg column `c` until the leg's next period start (R91, R192). -/
def cycleOne (c : Nat) (d : Dev) : Dev :=
  if bitOf d.trip.cycled c then d
  else { d with trip := { d.trip with cycled := putBit d.trip.cycled c true } }.owe (.cycled c)

/-- A row starts to drive, or drives on while columns are added: every column it names acts. -/
def Dev.driveRow (d : Dev) (r : Nat) (silent : Bool) : Dev :=
  if d.rowDrives r then
    let d1 := forAll (latchOne r silent) (bitsIn 56 (d.rowLatches r)) d
    if d.rowCycles r then forAll cycleOne (bitsIn 24 (d.rowMask r)) d1 else d1
  else d

/-- A row's latch settings go unreported while its channel has been fault-side since its start, or while its DRVFLT
input, treated as asserted at a start, has not been seen deasserted since (R90, R94). -/
def Dev.rowSilent (d : Dev) (r : Nat) : Bool :=
  if r < 128 then (fileGet d.cps r default).neverGood else (fileGet d.drv (r - 128) default).treated

/-- Change catch point `n`. -/
def Dev.modCp (d : Dev) (n : Nat) (f : CatchPoint → CatchPoint) : Dev := { d with cps := fileMod d.cps n f }

/-- Catch point `n`. -/
def Dev.cp (d : Dev) (n : Nat) : CatchPoint := fileGet d.cps n default

/-- The channel reports its crossing (R82): nothing with class 0b00. -/
def Dev.reportCrossing (d : Dev) (n : Nat) : Dev :=
  if FTA_CP_CFG.cls d n = 0 then d
  else d.report (det 0x01 (FTA_CP_CFG.evsrc d n) 0x41 accMeasure (detAddr 0x01 n))

/-- A good-side channel becomes fault-side: it drives its row and reports (Table 3-12). The crossing precedes its
column latches in the record (R318, R321). -/
def Dev.toFault (d : Dev) (n : Nat) : Dev :=
  ((d.modCp n (fun c => { c with side := .fault })).reportCrossing n).driveRow n false

/-- A channel becomes fault-side without having been good: it drives its row and reports nothing (Table 3-12). -/
def Dev.toFaultSilent (d : Dev) (n : Nat) : Dev :=
  (d.modCp n (fun c => { c with side := .fault, neverGood := true })).driveRow n true

/-- A channel becomes good-side: its row releases and no latch does (Table 3-12, R84). -/
def Dev.toGood (d : Dev) (n : Nat) : Dev := d.modCp n (fun c => { c with side := .good, neverGood := false })

end Sys2Proof.Machine
end

