-- ==== Sys2Proof/Machine/Queue.lean ====
section
/-! DEFINITION. Fetching, checking and beginning commands (spec/14_host_queue_interface.md R365 to R387,
spec/15_command_reference.md R393 to R398). -/
namespace Sys2Proof.Machine

/-- What the Command Reference gives one opcode (Table 15-1), as the shared fetch path needs it. -/
structure OpSpec where
  /-- The opcode. -/
  code    : Nat
  /-- Its target class and the number of indexes of that class (Table 14-5). -/
  cls     : Nat
  count   : Nat
  /-- Whether it admits the Standard and the Expert level. -/
  stdOk   : Bool
  expOk   : Bool
  /-- stages_total, counted from the parameters and the device state. -/
  total   : Desc → Dev → Nat
  /-- Check 5 in a lifecycle state other than Withdrawn. -/
  life    : Desc → Dev → Bool := fun _ _ => true
  /-- Withdrawn admits it (R398). -/
  inWithdrawn : Bool := false
  /-- Check 6: Single-Line Working admits it (R328). -/
  inSlw   : Desc → Bool := fun _ => false
  /-- Check 7. -/
  params  : Desc → Dev → Bool
  /-- Exempt from the order of R378. -/
  preempt : Desc → Bool := fun _ => false
  /-- Takes a ledger entry (R381). -/
  ledger  : Bool := true
  /-- The first stage begins. -/
  begin   : OpenCmd → Dev → Dev
  /-- Continue after committed stages, or none when the target has left the path (R387). -/
  resume  : OpenCmd → Dev → Option Dev := fun _ _ => none

/-- Used slots of a ring. -/
def Ring.used (r : Ring) : Nat := (r.devIdx + r.entries - r.dbIdx) % r.entries

/-- Completions of CQ `n` that D3hot holds back. -/
def Hqi.heldFor (h : Hqi) (n : Nat) : Nat :=
  (h.heldBack.filter (fun w => match w with
    | .completion r _ _ _ => r == n
    | .event .. => false)).length

/-- Staged commands of CQ `n`. -/
def Hqi.stagedOf (h : Hqi) (n : Nat) : Nat := (h.staged.filter (fun c => c.desc.ring.val == n)).length

/-- A staging slot is free for CQ `n`: 64 slots, 8 of them kept for CQ0 (R377). -/
def Hqi.slotFree (h : Hqi) (n : Nat) : Bool :=
  h.staged.length < 64 && (n == 0 || h.staged.length - h.stagedOf 0 < 56)

/-- CCn has a free slot for one more completion (R377). -/
def Dev.ccRoom (d : Dev) (n : Nat) : Bool :=
  let cc := d.ring (ringCC n)
  cc.used + d.hqi.stagedOf n + d.hqi.heldFor n + 1 < cc.entries

/-- The HQI may fetch from CQn now (R360, R361, R365, R377). -/
def Dev.fetchable (d : Dev) (n : Nat) : Bool :=
  let cq := d.ring n
  cq.en && (d.ring (ringCC n)).en && !cq.stopped && cq.devIdx != cq.dbIdx && d.hqi.slotFree n && d.ccRoom n

/-- The ring of place `p` in the rotation of 4, 2 and 1 descriptors of R377. -/
def rotationRing (p : Nat) : Nat := if p < 4 then 1 else if p < 6 then 2 else 3

/-- The first place of the rotation, from `p` on, whose ring can be fetched from. -/
def Dev.rotationFrom (d : Dev) : Nat → Nat → Option Nat
  | 0, _ => none
  | k + 1, p => if d.fetchable (rotationRing p) then some p else d.rotationFrom k ((p + 1) % 7)

/-- The ring the HQI fetches from next: CQ0 whenever it holds a descriptor, else the rotation (R377). None while the
core is off, while the link is down or in D3hot. -/
def Dev.fetchTurn (d : Dev) : Option Nat :=
  if !d.coreRuns || d.hqi.d3hot || d.hqi.speed == 0 then none
  else if d.fetchable 0 then some 0
  else (d.rotationFrom 7 d.hqi.rotation).map rotationRing

/-- A fetch takes one descriptor off CQn, moves the rotation, counts, and refreshes the host heartbeat (R331). -/
def Dev.takeOff (d : Dev) (n : Nat) : Dev :=
  let rot := if n = 0 then d.hqi.rotation
    else match d.rotationFrom 7 d.hqi.rotation with
      | some p => (p + 1) % 7
      | none => d.hqi.rotation
  let d1 := { d with hqi := { d.hqi with rotation := rot, fetches := (d.hqi.fetches + 1) % 2 ^ 32 },
                     il := { d.il with hostBeat := d.now, hostSilent := false } }
  d1.modRing n (fun r => { r with devIdx := (r.devIdx + 1) % r.entries })

/-- A new ledger entry of a command. -/
def newEntry (d : Dev) (op : Nat) (c : Desc) (opened : Bool) (status total : Nat) : LedgerEntry :=
  { tag := c.tag.toNat, op := op, ring := c.ring.val, opened := opened, resumed := false, expert := c.expert,
    target := c.target, status := status, done := 0, total := total, fetch := d.hqi.fetches, pcrc := c.pcrc,
    uptime := d.now }

/-- A command completes at a fetch check: stages_done 0, nothing else changes (R370). -/
def Dev.refuse (d : Dev) (op : Nat) (ledger : Bool) (c : Desc) (status total : Nat) : Dev :=
  let d1 := if ledger then d.addEntry (newEntry d op c false status total) else d
  d1.postCompletion op c false status 0 total []

/-- The outcome of check 4 (Table 14-11). -/
inductive Resumption where
  | fresh
  | atOnce (status done total : Nat)
  | go (e : LedgerEntry)
  deriving DecidableEq, Repr

/-- Check 4: match a RESUME descriptor against the newest ledger entry with its tag (R386). -/
def Dev.resumption (d : Dev) (op : Nat) (c : Desc) (total : Nat) : Resumption :=
  if !c.resume then .fresh
  else match d.entryOf c.tag.toNat with
    | none => .fresh
    | some e =>
      if e.op ≠ op ∨ e.target ≠ c.target ∨ e.pcrc ≠ c.pcrc then .atOnce stBadParam 0 total
      else if e.opened then .atOnce stRejected 0 total
      else if e.status = stDone ∨ e.status = stPartial ∨ e.status = stSuperseded ∨ e.status = stBadParam
          ∨ e.status = stDenied ∨ e.status = stAuthFailed then .atOnce e.status e.done e.total
      else .go e

/-- The EXPERT record of an accepted Expert command (R13). -/
def expertPayload (op : Nat) (c : Desc) : List Byte :=
  leBytes op 1 ++ leBytes c.flags 1 ++ leBytes c.tag.toNat 2 ++ leBytes c.target 4 ++ fit 28 c.params

/-- A staged command may begin its first stage (R378, R379). `preempt` is the exemption of R378. -/
def Dev.mayBegin (d : Dev) (preempt : Bool) (c : OpenCmd) : Bool :=
  let earlier := d.hqi.staged.takeWhile (fun e => e.fetch != c.fetch)
  (preempt || earlier.all (fun e => e.desc.target != c.desc.target || 1 ≤ e.done))
  && earlier.all (fun e => e.desc.ring != c.desc.ring || (!e.desc.fence && !c.desc.fence))

/-- The stages of a command, where it is open still, and of its entry are counted again (R398). -/
def Dev.recount (d : Dev) (k : Option Nat) (total : Nat) : Dev :=
  match k.bind d.cmd with
  | none => d
  | some c =>
    let d1 := d.modCmd c.fetch (fun x => { x with total := total })
    match c.entry with
    | none => d1
    | some e => d1.setTotal e total

/-- A command begins: its stages_total is counted again and fixed, and its first stage runs, or, where a resumed
command has committed stages, it continues, or leaves with REJECTED_STATE off the path (R387). -/
def Dev.beginCmd (d : Dev) (sp : OpSpec) (c : OpenCmd) : Dev :=
  if 1 ≤ c.done then
    let c' := { c with begun := true }
    let d1 := d.modCmd c.fetch (fun _ => c')
    match sp.resume c' d1 with
    | some d' => d'
    | none => d1.finish c.fetch stRejected []
  else
    let c' := { c with begun := true, total := sp.total c.desc d }
    let d1 := d.modCmd c.fetch (fun _ => c')
    let d2 := match c.entry with
      | none => d1
      | some e => d1.setTotal e c'.total
    sp.begin c' d2

/-- An accepted command takes its staging slot and its ledger entry (R377, R381), an Expert command its record (R13);
it begins at once when nothing holds it back. -/
def Dev.accept (d : Dev) (sp : OpSpec) (c : Desc) (old : Option LedgerEntry) (total : Nat) : Dev :=
  let d1 := if c.expert then d.recordNow recExpert (expertPayload sp.code c) else d
  let k := d1.hqi.fetches
  let o : OpenCmd :=
    match old with
    | some e => ⟨k, some e.fetch, sp.code, c, false, e.total, e.done, true, []⟩
    | none => ⟨k, if sp.ledger then some k else none, sp.code, c, false, total, 0, false, []⟩
  let d2 := match old with
    | some e => d1.modEntry e.fetch (fun l => { l with opened := true, resumed := true, status := 0xFF })
    | none => if sp.ledger then d1.addEntry (newEntry d1 sp.code c true 0xFF total) else d1
  let d3 := { d2 with hqi := { d2.hqi with staged := d2.hqi.staged ++ [o] } }
  if d3.mayBegin (sp.preempt c) o then d3.beginCmd sp o else d3

/-- The checks of Table 14-6 on a fetched descriptor, in order (R370). -/
def Dev.check (d : Dev) (sp : OpSpec) (c : Desc) : Dev :=
  let total := sp.total c d
  let no := fun st => d.refuse sp.code sp.ledger c st total
  if c.cls.toNat ≠ sp.cls ∨ sp.count ≤ c.idx then no stBadParam
  else if (c.expert && !d.hqi.expertEn) || (!c.expert && !sp.stdOk) then no stRejected
  else
    let rest := fun (old : Option LedgerEntry) =>
      if (d.withdrawn && !sp.inWithdrawn) || (!d.withdrawn && !sp.life c d) then no stDenied
      else if d.il.slw && !sp.inSlw c then no stRejected
      else if (c.expert && !sp.expOk) || c.buffer.toNat % 8 ≠ 0 || !sp.params c d then no stBadParam
      else d.accept sp c old total
    match d.resumption sp.code c total with
    | .atOnce st done tot => d.postCompletion sp.code c false st done tot []
    | .go e => rest (some e)
    | .fresh => rest none

/-- A descriptor with a known opcode is fetched (R377) when its ring is the one the HQI fetches from next; otherwise
it stays in its ring and nothing happens. -/
def Dev.fetch (d : Dev) (sp : OpSpec) (c : Desc) : Dev :=
  if d.fetchTurn = some c.ring.val then (d.takeOff c.ring.val).check sp c else d

/-- A descriptor with an unknown opcode: BAD_PARAM with stages_total 0 (R370). -/
def Dev.fetchUnknown (d : Dev) (op : Nat) (c : Desc) : Dev :=
  if d.fetchTurn = some c.ring.val then (d.takeOff c.ring.val).refuse op true c stBadParam 0 else d

/-- Staged commands that have not begun, in fetch order. -/
def Dev.unbegun (d : Dev) : List OpenCmd := d.hqi.staged.filter (fun c => !c.begun)

/-- Begin the first staged command that may begin, by the table of opcodes given. -/
def Dev.beginNext (d : Dev) (specOf : OpenCmd → Option OpSpec) : Dev :=
  let ready := d.unbegun.find? (fun c =>
    match specOf c with
    | some sp => d.mayBegin (sp.preempt c.desc) c
    | none => false)
  match ready with
  | none => d
  | some c =>
    match specOf c with
    | some sp => (d.beginCmd sp c).owe .begin
    | none => d

end Sys2Proof.Machine
end

