-- ==== Sys2Proof/Machine/Host.lean ====
section
/-! DEFINITION. The Host Queue Interface beside its commands: doorbells, ring setup, link events, D3hot, DMA errors,
message moderation, NOP and LEDGER_QUERY (spec/14_host_queue_interface.md R358 to R387, spec/15 R396). -/
namespace Sys2Proof.Machine

/-- Resource classes of Table 14-5. -/
def clsDevice : Nat := 0x00
def clsGroup : Nat := 0x01
def clsLeg : Nat := 0x02
def clsBranch : Nat := 0x03
def clsFeed : Nat := 0x04
def clsShare : Nat := 0x05
def clsString : Nat := 0x06
def clsTimetable : Nat := 0x07
def clsPmbus : Nat := 0x08
def clsAvs : Nat := 0x09
def clsCp : Nat := 0x0A
def clsFuse : Nat := 0x0B
def clsEngine : Nat := 0x0C
def clsStream : Nat := 0x0E
def clsRecorder : Nat := 0x0F

/-! ### NOP and LEDGER_QUERY -/

/-- NOP (R396): no stage; it completes at once. -/
def specNop : OpSpec where
  code := 0x00
  cls := clsDevice
  count := 1
  stdOk := true
  expOk := false
  total := fun _ _ => 0
  inWithdrawn := true
  inSlw := fun _ => true
  params := fun _ _ => true
  ledger := false
  begin := fun c d => d.finish c.fetch stDone []

/-- The 8,192 bytes LEDGER_QUERY writes: entries in fetch order, oldest first, unused entries as 0 (R383). -/
def ledgerImage (es : List LedgerEntry) : List Byte := fit 8192 (es.flatMap LedgerEntry.bytes)

/-- LEDGER_QUERY (R383). -/
def specLedgerQuery : OpSpec where
  code := 0x02
  cls := clsDevice
  count := 1
  stdOk := true
  expOk := false
  total := fun _ _ => 1
  inWithdrawn := true
  inSlw := fun _ => true
  params := fun c _ => 8192 ≤ c.length.toNat
  ledger := false
  begin := fun c d =>
    let newest := (d.ledger.getLast?.map (·.fetch)).getD 0
    (d.toBuffer c.desc (ledgerImage d.ledger)).commitAll c.fetch stDone [d.ledger.length, newest]

/-! ### Doorbells (R366, R367) -/

/-- The BAR2 offset of a ring's doorbell (Table 14-3). -/
def doorbellOffset (r : Nat) : Nat :=
  if r < 4 then 0x10 * r else if r < 8 then 0x100 + 0x10 * (r - 4) else if r = 8 then 0x200
  else 0x300 + 0x10 * (r - 9)

/-- A doorbell write: ignored on a disabled ring; an index at or above the ring's size is ignored, counted and told
at most once per second; otherwise it is the ring's index (R366). -/
def Dev.doorbell (d : Dev) (r : Nat) (value : Word) : Dev :=
  let ring := d.ring r
  let idx := value.toNat % 2 ^ 16
  if !d.coreRuns || !ring.en then d
  else if ring.entries ≤ idx then
    let d1 := { d with hqi := { d.hqi with dbErr := held 255 (d.hqi.dbErr + 1) } }
    d1.raiseLimited 0x017C clsC 166 (doorbellOffset r) idx
  else d.modRing r (fun x => { x with dbIdx := idx })

/-- DB_CQ_WRITE: the tail of a command ring (R367). -/
def dbCqWrite (n : Fin 4) (value : Word) (d : Dev) : Dev := d.doorbell n.val value

/-- DB_HEAD_WRITE: the head of a device-written ring frees slots (R367); a free slot of EQ takes EQ_OVERFLOW first
when events were lost (R373). `r` counts CC0 to CC3, EQ, TQ0, TQ1. -/
def dbHeadWrite (r : Fin 7) (value : Word) (d : Dev) : Dev := (d.doorbell (4 + r.val) value).postOverflow

/-! ### Ring setup (R364, R365, Table 14-24 to 14-26) -/

/-- The sizes Table 14-26 allows for a ring. -/
def sizeLegal (r n : Nat) : Bool := if r = ringEQ then 6 ≤ n && n ≤ 16 else 4 ≤ n && n ≤ 12

/-- The region of a ring lies below 2^64 (R365). -/
def Ring.baseLegal (x : Ring) (r : Nat) : Bool := x.base + x.entries * entrySize r ≤ 2 ^ 64

/-- HQI_RING_CFG.vec is writable for CCn and TQt only. -/
def ringHasVec (r : Nat) : Bool := (4 ≤ r && r < 8) || 9 ≤ r

/-- A write of HQI_RING_CFG (R365, R441): log2n while the ring is stopped (a CC takes the size of its CQ), then vec,
then en with its effect. -/
def Dev.writeRingCfg (d : Dev) (r : Nat) (value : Word) : Dev :=
  let v := value.toNat
  let n := bitsOf v 16 5
  let sized := if !(d.ring r).en && !(4 ≤ r && r < 8) && sizeLegal r n then
      let d1 := d.modRing r (fun x => { x with log2n := n })
      if r < 4 then d1.modRing (ringCC r) (fun x => { x with log2n := n }) else d1
    else d
  let vecd := if ringHasVec r then sized.modRing r (fun x => { x with vec := bitsOf v 8 5 }) else sized
  let ring := vecd.ring r
  if bitOf v 31 then
    if ring.en then vecd
    else if sizeLegal r ring.log2n && ring.baseLegal r then
      vecd.modRing r (fun x =>
        { x with en := true, devIdx := 0, dbIdx := 0, lap := decide (4 ≤ r), stopped := false })
    else vecd
  else vecd.modRing r (fun x => { x with en := false })

/-- HQI_RING_ENABLE: a write of HQI_RING_CFG with en 1 (R365). A write without en is HQI_RING_DISABLE. -/
def hqiRingEnable (r : Fin 11) (value : Word) (d : Dev) : Dev :=
  if d.coreRuns then (d.writeRingCfg r.val (value ||| 0x80000000)).postOverflow else d

/-- HQI_RING_DISABLE: a write of HQI_RING_CFG with en 0 (R365): fetching stops, or entries are discarded. -/
def hqiRingDisable (r : Fin 11) (value : Word) (d : Dev) : Dev :=
  if d.coreRuns then d.writeRingCfg r.val (value &&& 0x7FFFFFFF) else d

/-! ### Link events (R384, R385, Table 14-12) -/

/-- The HQI's ring items return to their defaults (Table 14-12, first column). -/
def Hqi.ringDefaults (h : Hqi) : Hqi :=
  { h with rings := ringsReset, staged := [], heldBack := [], rotation := 0 }

/-- HQI_CTRL, HQI_EVT_VEC and the MSI-X table return to their defaults (Table 14-12, second column). -/
def Hqi.ctrlDefaults (h : Hqi) : Hqi :=
  { h with expertEn := false, imod := 0, evtVec := evtVecsReset, msix := Vector.replicate 32 msixReset }

/-- What a link event does to configuration space (Table 14-12, third column): its defaults, nothing, or, as the PCI
Express Base Specification has it for a function-level reset, all defaults but Max_Payload_Size, ASPM Control and the
AER status (PRESUMED, log entry 8). -/
inductive ConfigReset where
  | defaults | kept | function
  deriving DecidableEq, Repr

/-- Configuration space after a link event; the power state is part of it. -/
def Hqi.configAfter (h : Hqi) (r : ConfigReset) : Hqi :=
  match r with
  | .defaults => { h with d3hot := false, func := functionReset, aer := 0 }
  | .kept => h
  | .function => { h with d3hot := false, func :=
      { functionReset with payload256 := h.func.payload256, aspmL1 := h.func.aspmL1 } }

/-- Stages that wait for a sample boundary belong to a command. -/
def Pend.ofCommand : Pend → Bool
  | .target .. | .coeffs .. | .model .. => true
  | .health .. | .rom _ | .rate _ | .write .. => false

/-- With every command closed no stage of one commits any more (R385): those that wait for a boundary, and transactions
that have not begun, are dropped. A park and a sweep find their commands closed when their turn comes. -/
def Dev.dropStages (d : Dev) : Dev :=
  let bus := fun (x : BusItem) => match x.use with
    | .user _ => false
    | _ => true
  let avs := fun (x : AvsItem) => match x.use with
    | .user _ => false
    | _ => true
  { d with groups := d.groups.map (fun x => { x with pend := x.pend.filter (fun p => !p.ofCommand) }),
           pmbus := d.pmbus.map (fun m => { m with queue := m.queue.filter bus }),
           avs := d.avs.map (fun m => { m with queue := m.queue.filter avs }) }

/-- Close the ledger entry of every open command with a status (R382, R385). -/
def Dev.closeOpen (d : Dev) (status : Nat) : Dev :=
  { d with ledger := d.ledger.map (fun e =>
      if e.opened then { e with opened := false, status := status, uptime := d.now } else e) }

/-- Events D3hot held back find EQ gone at a link event: they count as not posted (R373). -/
def Dev.loseHeld (d : Dev) : Dev :=
  let lost := d.hqi.heldBack.filterMap (fun w => match w with
    | .event _ _ _ seq _ => some seq
    | .completion .. => none)
  match lost with
  | [] => d
  | s :: _ =>
    let first := if d.hqi.eqLost = 0 then s else d.hqi.eqLostSeq
    { d with hqi := { d.hqi with eqLost := held 0xFFFFFFFF (d.hqi.eqLost + lost.length), eqLostSeq := first } }

/-- A link event: open commands close with LINK_RESET and no completion, the HQI's items return to their defaults,
and HQI_LINK_RESET is raised with the kind of event and the commands closed (R384, R385). -/
def Dev.linkReset (d : Dev) (kind : Nat) (ctrl link : Bool) (config : ConfigReset) : Dev :=
  let closed := d.hqi.staged.length
  let d1 := (d.closeOpen stLinkReset).dropStages.loseHeld
  let h := d1.hqi.ringDefaults
  let h1 := if ctrl then h.ctrlDefaults else h
  let h2 := if link then { h1 with speed := 0, width := 0 } else h1
  { d1 with hqi := h2.configAfter config }.raise 0x017E clsC 166 (Config.linkKind kind) closed

/-- PERST_N asserted (R384). -/
def perstN (d : Dev) : Dev := if d.coreRuns then d.linkReset 0 true true .defaults else d
/-- Hot reset (R384). -/
def hotReset (d : Dev) : Dev := if d.coreRuns then d.linkReset 1 true true .defaults else d
/-- Link down, including a PHY supply failure (R384, R470). -/
def linkDown (d : Dev) : Dev := if d.coreRuns then d.linkReset 2 true true .defaults else d
/-- Function-level reset (R384): HQI_CTRL, HQI_EVT_VEC, the MSI-X table and the trained link are kept. -/
def functionLevelReset (d : Dev) : Dev := if d.coreRuns then d.linkReset 3 false false .function else d

/-- The link trains to L0 (R358): `rate` 0 to 2 for 2.5, 5 and 8 GT/s. The host then sets up the function, and vectors
that may send now send what is pending (R359, R375). -/
def linkTrained (rate : Fin 3) (up : LinkUp) (d : Dev) : Dev :=
  if d.coreRuns then
    forAll (fun v d => d.sendPending v) (indices 32)
      { d with hqi := { d.hqi with speed := rate.val + 1, width := if up.two then 2 else 1, func := up.setup } }
  else d

/-- D3hot entry (R360): nothing is fetched, written or sent until D0. -/
def d3hotEntry (d : Dev) : Dev :=
  if d.coreRuns && d.hqi.speed != 0 then { d with hqi := { d.hqi with d3hot := true } } else d

/-- Write one entry D3hot held back. -/
def writeHeld (w : HeldWrite) (d : Dev) : Dev :=
  match w with
  | .completion n word0 body announce => d.putCompletion n word0 body announce
  | .event src word0 body seq urgent => d.writeEvent src word0 body seq urgent

/-- Return to D0 (R360): the HQI continues from the state it held: EQ_OVERFLOW first where events were lost and EQ has
room (R373), then the entries held back, then messages that pend. -/
def d3hotExit (d : Dev) : Dev :=
  if d.hqi.d3hot then
    let ws := d.hqi.heldBack
    let d1 := { d with hqi := { d.hqi with d3hot := false, heldBack := [] } }
    forAll (fun v d => d.sendPending v) (indices 32) (forAll writeHeld ws d1.postOverflow)
  else d

/-- End of a vector's moderation interval (R376): one message for the entries written during it. -/
def msixModerationEnd (vec : Fin 32) (d : Dev) : Dev :=
  let v := d.hqi.msix[vec]
  if v.owed && !d.hqi.d3hot then ((d.until v.hushed).modVec vec.val (fun x => { x with owed := false })).announce vec.val false
  else d

/-! ### DMA errors (R361) -/

/-- A DMA error is counted, reported by AER, and raised as HQI_DMA_ERROR. -/
def Dev.dmaError (d : Dev) (what aer : Nat) : Dev :=
  let d1 := { d with hqi := { d.hqi with dmaErr := held 255 (d.hqi.dmaErr + 1), aer := d.hqi.aer ||| aer } }
  (d1.emit (.uncorrectedAer aer)).raise 0x017B clsB 166 what aer

/-- A failed descriptor fetch stops fetching from its ring until the ring is enabled again. The descriptor's slot is
passed: the BK4824 never reads a descriptor twice. -/
def Dev.fetchFailed (d : Dev) (n aer : Nat) : Dev :=
  if d.fetchTurn = some n then
    let d1 := d.modRing n (fun r => { r with stopped := true, devIdx := (r.devIdx + 1) % r.entries })
    d1.dmaError n aer
  else d

/-- A failed read of a host buffer completes its command with ABORTED_FAULT. -/
def Dev.bufferFailed (d : Dev) (k aer : Nat) : Dev :=
  match d.cmd k with
  | none => d
  | some c => (d.dmaError c.desc.tag.toNat aer).finish k stAborted []

/-- A discarded access is counted in HQI_STATUS.bad_access, held at 255. -/
def Dev.badAccess (d : Dev) : Dev :=
  { d with hqi := { d.hqi with badAccess := held 255 (d.hqi.badAccess + 1) } }

end Sys2Proof.Machine
end

