-- ==== Sys2Proof/Machine/Image.lean ====
section
/-! DEFINITION. Register images and field lists: which fields of a register a write reaches, whether a value is
allowed, and how commands carry registers (spec/15_command_reference.md R394, R395; spec/18_register_map.md R441). -/
namespace Sys2Proof.Machine

/-- The fields of the Rule Book register at `off`. -/
def fieldsAt (off : Nat) : List Field :=
  match regAt off with
  | some r => r.fields
  | none => []

/-- Fields a host write or a command image may set: all but the read-only ones (R394). -/
def Field.settable (f : Field) : Bool :=
  match f.access with
  | .ro => false
  | _ => true

/-- The value a word gives a field. -/
def Field.of (f : Field) (v : Nat) : Nat := bitsOf v f.lo f.width

/-- The field may hold what the word gives it (R441). -/
def Field.ok (f : Field) (v : Nat) : Bool := f.allow.admits f.width (f.of v)

/-- Every settable field of an image holds an allowed value (R395). -/
def imageOk (off v : Nat) : Bool := (fieldsAt off).all (fun f => !f.settable || f.ok v)

/-- `old` with the fields of a list taken from `v`. -/
def mergeFields (old v : Nat) : List Field → Nat
  | [] => old
  | f :: fs => mergeFields (putBits old f.lo f.width (f.of v)) v fs

/-- A register with every settable field taken from an image, its read-only fields kept (R394). -/
def imageMerge (off old v : Nat) : Nat := mergeFields old v ((fieldsAt off).filter Field.settable)

/-- Set a register from an image. -/
def Dev.setImage (d : Dev) (off v : Nat) : Dev := d.setReg off (imageMerge off (d.reg off) v)

/-- Set several registers from images. -/
def Dev.setImages (d : Dev) : List (Nat × Nat) → Dev
  | [] => d
  | (off, v) :: rest => (d.setImage off v).setImages rest

/-- The settable fields of some registers, registers in address order and fields from high bits to low (R394). -/
def fieldList (offs : List Nat) : List (Nat × Field) :=
  offs.flatMap (fun off => ((fieldsAt off).filter Field.settable).map (fun f => (off, f)))

/-- One word of a field list: 0xFFFFFFFF leaves the field unchanged. -/
inductive Given where
  | unchanged
  | value (v : Nat)
  deriving DecidableEq, Repr

/-- Word `i` of a Standard field list. -/
def Desc.given (c : Desc) (i : Nat) : Given :=
  let w := c.bufWord i
  if w = 0xFFFFFFFF then .unchanged else .value w

/-- A field list gives the field of a register with lowest bit `lo`: the images of the Expert level give every field. -/
def Desc.gives (p : Desc) (fl : List (Nat × Field)) (off lo : Nat) : Bool :=
  p.expert || (indices fl.length).any (fun i =>
    (fl[i]?).any (fun x => x.1 == off && x.2.lo == lo) && p.given i != .unchanged)

/-- The images of an Expert field list: one word for each register, in order. -/
def Desc.images (c : Desc) (offs : List Nat) : List (Nat × Nat) :=
  (indices offs.length).map (fun i => (offs.getD i 0, c.bufWord i))

/-- The registers an Expert image list names hold only allowed values. -/
def imagesOk (ims : List (Nat × Nat)) : Bool := ims.all (fun p => imageOk p.1 p.2)

/-- The images hold only allowed values where the command gives them: a field the Standard level leaves unchanged is not
judged (R394, R395). -/
def Desc.imagesFit (p : Desc) (ims : List (Nat × Nat)) : Bool := !p.expert || imagesOk ims

/-- A Standard field word as a code: `f` gives the field's code for a word, `none` outside its range. -/
def codeIn (f : Field) (z : Int) : Option Nat :=
  match f.allow with
  | .signedSpan lo hi => if lo ≤ z ∧ z ≤ hi then some (unsignedOf f.width z) else none
  | _ => if 0 ≤ z ∧ z < 2 ^ f.width ∧ f.allow.admits f.width z.toNat = true then some z.toNat else none

/-- Apply a Standard field list: `conv` turns a field's word into a number of field codes, before the range check.
`none` when any word falls outside its field. -/
def standardImages (conv : Nat → Field → Nat → Option Int) (reg : Nat → Nat) :
    Nat → (Nat → Given) → List (Nat × Field) → List (Nat × Nat) → Option (List (Nat × Nat))
  | _, _, [], acc => some acc
  | i, word, (off, f) :: rest, acc =>
    match word i with
    | .unchanged => standardImages conv reg (i + 1) word rest acc
    | .value v =>
      match (conv off f v).bind (codeIn f) with
      | none => none
      | some code =>
        let old := ((acc.find? (fun p => p.1 == off)).map (·.2)).getD (reg off)
        let acc' := (off, putBits old f.lo f.width code) :: acc.filter (fun p => p.1 != off)
        standardImages conv reg (i + 1) word rest acc'

/-- Write several whole registers of the live configuration. -/
def Dev.setRegs (d : Dev) : List (Nat × Nat) → Dev
  | [] => d
  | (off, v) :: rest => ((d.setReg off v).storedReg off).setRegs rest

end Sys2Proof.Machine
end

