-- ==== Sys2Proof/Machine/Groups.lean ====
section
/-! DEFINITION. Regulation groups: their legs, phases and converters, live rates, references, entering and leaving
the states of Table 4-3 (spec/04_loop_engine.md R97 to R101, R114 to R123; spec/05 R142, R148 to R150, R166;
spec/06 R180, R194; spec/18 R446). -/
namespace Sys2Proof.Machine

/-! ### Group, leg and converter files -/

/-- Group `g`. -/
def Dev.group (d : Dev) (g : Nat) : Group := fileGet d.groups g groupReset
/-- Change group `g`. -/
def Dev.modGroup (d : Dev) (g : Nat) (f : Group → Group) : Dev := { d with groups := fileMod d.groups g f }
/-- Change the watches of group `g`. -/
def Dev.modWatch (d : Dev) (g : Nat) (f : GroupWatch → GroupWatch) : Dev :=
  d.modGroup g (fun x => { x with watch := f x.watch })
/-- Leg `k`. -/
def Dev.leg (d : Dev) (k : Nat) : Leg := fileGet d.legs k default
/-- Change leg `k`. -/
def Dev.modLeg (d : Dev) (k : Nat) (f : Leg → Leg) : Dev := { d with legs := fileMod d.legs k f }
/-- Converter `n`. -/
def Dev.sar (d : Dev) (n : Nat) : Sar := fileGet d.sars n default
/-- Channel `i` of a group. -/
def Group.chan (x : Group) (i : Nat) : Channel := fileGet x.ch i channelReset
/-- Change channel `i` of a group. -/
def Group.modChan (x : Group) (i : Nat) (f : Channel → Channel) : Group := { x with ch := fileMod x.ch i f }

/-- A group is stopped in OFF and FAULTED (R101). -/
def GroupState.stopped : GroupState → Bool
  | .off => true
  | .faulted => true
  | _ => false

/-- Coding of ELE_GRP_CTRL.state. -/
def GroupState.code : GroupState → Nat
  | .off => 0 | .starting => 1 | .softStart => 2 | .run => 3 | .stopping => 4 | .faulted => 5

/-- Coding of PTU_LEG_STATUS.state. -/
def LegState.code : LegState → Nat
  | .idle => 0 | .switching => 1 | .shed => 2 | .parked => 3 | .joining => 4 | .discharging => 5

/-- Coding of ELE_LEG_HEALTH.health. -/
def Health.code : Health → Nat
  | .good => 0 | .legOpen => 1 | .substituted => 2 | .saturated => 3

/-- Legs of a group switch as pairs (R97, Table 6-1). -/
def Dev.isShift (d : Dev) (g : Nat) : Bool := ELE_GRP_CFG.act d g != 0
/-- Regulator `i` is enabled; VREG always is (R98). -/
def Dev.regOn (d : Dev) (g i : Nat) : Bool := i == 0 || bitOf (ELE_GRP_CTRL.reg_en d g) i
/-- The legs ELE_GRP_LEGS gives a group. -/
def Dev.legsOf (d : Dev) (g : Nat) : List Nat := bitsIn 24 (ELE_GRP_LEGS.legs d g)
/-- The phases of a group by their leg, or lower leg: what m counts (R99). -/
def Dev.phasesOf (d : Dev) (g : Nat) : List Nat :=
  if d.isShift g then (d.legsOf g).filter (fun k => k % 2 == 0) else d.legsOf g
/-- The number m of phases. -/
def Dev.phaseCount (d : Dev) (g : Nat) : Nat := (d.phasesOf g).length
/-- The legs of a phase. -/
def Dev.legsOfPhase (d : Dev) (g p : Nat) : List Nat := if d.isShift g then [p, p + 1] else [p]
/-- The phase leg `k` belongs to. -/
def Dev.phaseOfLeg (d : Dev) (k : Nat) : Nat :=
  match d.groupOfLeg k with
  | some g => if d.isShift g then k / 2 * 2 else k
  | none => k
/-- Phases of a group that are not parked (R181). -/
def Dev.presentPhases (d : Dev) (g : Nat) : List Nat := (d.phasesOf g).filter (fun p => (d.leg p).state != .parked)
/-- Active phases: in SWITCHING or JOINING (R186). -/
def Dev.activePhases (d : Dev) (g : Nat) : List Nat :=
  (d.phasesOf g).filter (fun p => (d.leg p).state == .switching || (d.leg p).state == .joining)

/-- Change both legs of a phase. -/
def Dev.modPhase (d : Dev) (g p : Nat) (f : Leg → Leg) : Dev :=
  forAll (fun k d => d.modLeg k f) (d.legsOfPhase g p) d

/-- Converters of group `g` with a role and role index, running or not (R100). -/
def Dev.convsOf (d : Dev) (g role idx : Nat) : List Nat :=
  (indices 48).filter (fun n => MA_CH_CFG.grp_en d n == 1 && MA_CH_CFG.grp d n == g
    && MA_CH_CFG.role d n == role && MA_CH_CFG.role_idx d n == idx)
/-- The one converter with an assignment, if exactly one carries it (R100, R493). -/
def Dev.convOf (d : Dev) (g role idx : Nat) : Option Nat :=
  match d.convsOf g role idx with
  | [n] => some n
  | _ => none
/-- Exactly one converter carries the assignment and it runs. -/
def Dev.convRuns (d : Dev) (g role idx : Nat) : Bool :=
  match d.convOf g role idx with
  | some n => MA_CH_CFG.en d n == 1
  | none => false
/-- Full scale of a converter. -/
def Dev.fsOf (d : Dev) (n : Nat) : Nat := MA_CH_SCALE.fs d n
/-- A converter's result in Q20.20: X × 32 (R103 step 1). -/
def Dev.quantity (d : Dev) (n : Nat) : Int := (d.sar n).result * 32
/-- Output voltage converter of a group. -/
def Dev.voutConv (d : Dev) (g : Nat) : Option Nat := d.convOf g 2 g
/-- Input voltage converter of a group. -/
def Dev.vinConv (d : Dev) (g : Nat) : Option Nat := d.convOf g 3 g
/-- Current converter of a phase. -/
def Dev.phaseConv (d : Dev) (g p : Nat) : Option Nat := d.convOf g 1 p
/-- The full scale of the phase converters, which are alike (R100): none unless every phase that is not parked has
exactly one (R181, R493). -/
def Dev.phaseFs (d : Dev) (g : Nat) : Option Nat :=
  let ps := d.presentPhases g
  if ps.all (fun p => (d.phaseConv g p).isSome) then (ps.head?.bind (d.phaseConv g)).map d.fsOf else none
/-- Full scale of the ICAP quantity (R99). -/
def Dev.icapFs (d : Dev) (g : Nat) : Option Nat :=
  if ELE_GRP_CFG.icap_src d g = 0 then (d.phaseFs g).map (fun fs => fs * d.phaseCount g)
  else if ELE_GRP_CFG.icap_src d g = 1 then (d.convOf g 4 (ELE_GRP_CFG.feed d g)).map d.fsOf
  else some (d.fsOf (ELE_GRP_CFG.icap_idx d g))
/-- Full scale of the output voltage. -/
def Dev.voutFs (d : Dev) (g : Nat) : Option Nat := (d.voutConv g).map d.fsOf
/-- Strings the registers assign to a group's charge limit (R261). -/
def Dev.auxAssigned (d : Dev) (g : Nat) : List Nat :=
  (indices 4).filter (fun s => BSM_STR_CFG.aux_en d s == 1 && BSM_STR_CFG.aux_grp d s == g)
/-- Strings of a group's charge limit: those assigned, fixed while the group runs (R261). -/
def Dev.auxStrings (d : Dev) (g : Nat) : List Nat :=
  if (d.group g).state.stopped then d.auxAssigned g else (d.group g).strings
/-- The role-6 converter of a string. -/
def Dev.stringConv (d : Dev) (s : Nat) : Option Nat :=
  match (indices 48).filter (fun n => MA_CH_CFG.role d n == 6 && MA_CH_CFG.role_idx d n == s) with
  | [n] => some n
  | _ => none
/-- The common full scale of the role-6 converters of a group's strings. -/
def Dev.auxStringFs (d : Dev) (g : Nat) : Nat :=
  (((d.auxStrings g).filterMap d.stringConv).head?.map d.fsOf).getD 1
/-- Full scale of the AUX quantity where a converter gives it. -/
def Dev.auxFs (d : Dev) (g : Nat) : Option Nat :=
  if ELE_GRP_CFG.aux_src d g = 0 then some ((d.auxStrings g).length * d.auxStringFs g)
  else if ELE_GRP_CFG.aux_src d g = 1 then (d.vinConv g).map d.fsOf
  else some (d.fsOf (ELE_GRP_CFG.aux_idx d g))

/-! ### Conditions of a start (R100, R121, R130, R147, R261) -/

/-- R100. -/
def Dev.r100 (d : Dev) (g : Nat) : Bool :=
  d.convRuns g 2 g && d.convRuns g 3 g
  && (ELE_GRP_CFG.icap_src d g != 0 ||
      ((d.presentPhases g).all (fun p => d.convRuns g 1 p)
       && (d.presentPhases g).all (fun p => (d.phaseConv g p).map (fun n => d.reg (MA_CH_SCALE.reg n))
            == ((d.presentPhases g).head?.bind (d.phaseConv g)).map (fun n => d.reg (MA_CH_SCALE.reg n)))))
  && (ELE_GRP_CFG.icap_src d g != 1 || d.convRuns g 4 (ELE_GRP_CFG.feed d g))

/-- R130 and R147: what a model or following-error mode needs. -/
def Dev.modelReady (d : Dev) (g : Nat) : Bool :=
  if ELE_MDL_CFG.model_en d g = 0 then true
  else ELE_MDL_CFG.fe_mode d g == 0 && (d.presentPhases g).all (fun p => d.convRuns g 1 p)

/-- R261: what the charge limit of a group needs. -/
def Dev.auxReady (d : Dev) (g : Nat) : Bool :=
  if ELE_GRP_CFG.aux_src d g ≠ 0 then true
  else
    let ss := d.auxStrings g
    let cs := ss.filterMap d.stringConv
    !ss.isEmpty && ELE_GRP_CFG.aux_dir d g == 1 && cs.length == ss.length
      && cs.all (fun n => d.fsOf n == d.auxStringFs g && MA_CH_CFG.en d n == 1 && MA_CH_CFG.grp_en d n == 1
          && MA_CH_CFG.grp d n == g)

/-- No row naming a column of the group's legs is fault-side; a parked leg is not one of them (R121, R181). -/
def Dev.legsClear (d : Dev) (g : Nat) : Bool :=
  (d.legsOf g).all (fun k => (d.leg k).state == .parked || !d.colHeld (colLeg k))

/-- A group may enter STARTING (Table 4-3). -/
def Dev.canStart (d : Dev) (g : Nat) : Bool := d.r100 g && d.modelReady g && d.auxReady g && d.legsClear g

/-! ### Targets in the Rule Book (R409): pseudo-registers beyond the BAR0 offsets -/

/-- Low word of the target of channel `i`; the high word follows. -/
def targetReg (g i : Nat) : Nat := 0x10000 + 0x40 * g + 8 * i
/-- The VREG step. -/
def stepReg (g : Nat) : Nat := 0x10000 + 0x40 * g + 0x20

/-- A target in Q20.28 that a configuration holds. -/
def Regs.target (r : Regs) (g i : Nat) : Int :=
  signedOf 48 ((r.get (targetReg g i)).toNat + (r.get (targetReg g i + 4)).toNat * 2 ^ 32)

/-- The target of a channel as a command or the Rule Book last gave it. -/
def Dev.target (d : Dev) (g i : Nat) : Int := d.cfg.target g i

/-- Store a target. -/
def Dev.setTarget (d : Dev) (g i : Nat) (t : Int) : Dev :=
  let n := unsignedOf 48 t
  (d.setReg (targetReg g i) (n % 2 ^ 32)).setReg (targetReg g i + 4) (n / 2 ^ 32)

/-! ### Live rate (R166, R174, R446) -/

/-- The coefficient codes the registers hold, 7 for each regulator. -/
def Dev.regCodes (d : Dev) (g : Nat) : List Int :=
  (indices 28).map (fun j => signedOf 24 (d.field (0x2800 + 0x80 * g + 0x20 * (j / 7) + 4 * (j % 7)) 0 24))

/-- The codes of regulator `i`. -/
def GroupRate.of (r : GroupRate) (i : Nat) : List Int := (r.codes.drop (7 * i)).take 7

/-- The codes with those of regulator `i` replaced. -/
def GroupRate.put (r : GroupRate) (i : Nat) (cs : List Int) : GroupRate :=
  { r with codes := r.codes.take (7 * i) ++ cs ++ r.codes.drop (7 * i + 7) }

/-- The zeros and poles of a design. -/
def Design.zeros (x : Design) : List Nat := if x.third then [x.fz1, x.fz2] else [x.fz1]
/-- The poles of a design. -/
def Design.poles (x : Design) : List Nat := if x.third then [x.fp1, x.fp2] else [x.fp1]
/-- The codes of a design at a sample period. -/
def Design.codes (x : Design) (ticks : Nat) : Option (List Int) :=
  designCodes x.third ticks x.fI x.zeros x.poles
/-- R127 at a sample period. -/
def Design.fits (x : Design) (ticks : Nat) : Bool := frequenciesOk ticks x.fI (x.zeros ++ x.poles)

/-- The codes redesigned at a period; a regulator without a design keeps its codes. -/
def GroupRate.redesign (r : GroupRate) (ticks : Nat) : GroupRate :=
  (indices 4).foldl (fun r i =>
    match (r.designs.getD i none).bind (fun x => x.codes ticks) with
    | some cs => r.put i cs
    | none => r) { r with period := ticks }

/-- spp and pps of a halved or restored rate (R174). -/
def GroupRate.splitDown (r : GroupRate) : Option (Nat × Nat) :=
  if r.spp % 2 = 0 then some (r.spp / 2, r.pps)
  else if r.spp = 1 ∧ r.pps ≤ 32 then some (1, r.pps * 2)
  else none

/-- The period may be doubled (R166 without its conditions on RUN and safety-critical groups, R174). -/
def Dev.mayDouble (d : Dev) (g : Nat) (r : GroupRate) : Bool :=
  r.period * 2 ≤ 800 && r.splitDown.isSome
  && (indices 4).all (fun i => !d.regOn g i || (match r.designs.getD i none with
      | some x => x.fits (2 * r.period) && (x.codes (2 * r.period)).isSome
      | none => false))

/-- One doubling of the period. -/
def GroupRate.double (r : GroupRate) : GroupRate :=
  match r.splitDown with
  | some (s, p) => { r.redesign (2 * r.period) with spp := s, pps := p, doubled := r.doubled + 1 }
  | none => r

/-- One doubling undone. -/
def GroupRate.halve (r : GroupRate) : GroupRate :=
  let r1 := r.redesign (r.period / 2)
  if 1 < r.pps then { r1 with pps := r.pps / 2, doubled := r.doubled - 1 }
  else { r1 with spp := r.spp * 2, doubled := r.doubled - 1 }

/-- The doublings SYS_PAT_DIV asks for in the pattern in force (Table 18-6). -/
def Dev.patternDiv (d : Dev) (g : Nat) : Nat :=
  d.field (0x0040 + 4 * g) (4 - 2 * d.field 0x0014 0 2) 2

/-- Up to `k` doublings while the next one is admitted (R446). -/
def Dev.doublings (d : Dev) (g : Nat) : Nat → GroupRate → GroupRate
  | 0, r => r
  | k + 1, r => if d.mayDouble g r then d.doublings g k r.double else r

/-- The live rate at an entry to STARTING (R446): the codes its registers hold, redesigned by each doubling alone. A
regulator has a design while the codes it holds are those of its last Standard COEFF_LOAD (log entry 105). -/
def Dev.startRate (d : Dev) (g : Nat) : GroupRate :=
  let ds := (d.group g).rate.designs
  let period := MA_GRP_SAMP.period d g
  let r : GroupRate := ⟨period, PTU_GRP_TIM.spp d g, PTU_GRP_TIM.pps d g, period, 0, d.regCodes g, ds⟩
  let r1 := d.doublings g (d.patternDiv g) r
  { r1 with base := r1.period }

/-- The switching period P in edge codes (R171). -/
def GroupRate.switchPeriod (r : GroupRate) : Nat := r.period * 400 * r.spp / r.pps

/-- A soft-start or limit step from a Q0.16 rate per ms (Table 4-11, R115, R118), doubled with the period (R166). -/
def Dev.stepOf (d : Dev) (g rate : Nat) : Nat :=
  let s := roundDivN (rate * 4096 * MA_GRP_SAMP.period d g) 40000
  (if rate ≠ 0 ∧ s = 0 then 1 else s) * 2 ^ (d.group g).rate.doubled

/-- The value a register will hold once the writes and model loads that wait for a group's boundary have taken
effect. -/
def Dev.waitingWord (d : Dev) (g off : Nat) : Nat :=
  (d.group g).pend.foldl (fun w p => match p with
    | .write o v => if o = off then v else w
    | .model _ ims => ((ims.find? (fun x => x.1 == off)).map (·.2)).getD w
    | _ => w) (d.reg off)

/-! ### The ICAP target and κ (R142) -/

/-- Weight of a phase in tenths (R142, R182): none while it is parked, and until the first sample boundary after it
entered JOINING. -/
def Dev.weight (d : Dev) (p : Nat) : Nat :=
  if (d.leg p).state = .parked ∨ (d.leg p).unweighed = true then 0
  else match (d.leg p).health with
    | .good => 10 | .substituted => 8 | .legOpen => 0 | .saturated => 10

/-- Sum of the weights of a group's phases, in tenths; in following-error mode κ stays 1 (R147). -/
def Dev.weights (d : Dev) (g : Nat) : Nat :=
  if ELE_MDL_CFG.fe_mode d g = 1 then 10 * d.phaseCount g
  else ((d.phasesOf g).map d.weight).sum

/-- κ as the State Mirror shows it, Q0.16 (R142, R492). -/
def Dev.kappa (d : Dev) (g : Nat) : Nat :=
  if d.phaseCount g = 0 then 65536 else (divUp (d.weights g * 65536) (10 * d.phaseCount g)).toNat

/-- The ICAP target in Q20.28: the limit times κ, bounded by the saturation knee (R142). -/
def Dev.icapTarget (d : Dev) (g : Nat) : Int :=
  let m := d.phaseCount g
  let t := if m = 0 then d.target g 1 else divUp (d.target g 1 * d.weights g) (10 * m)
  if (d.phasesOf g).any (fun p => (d.leg p).health == .saturated) then
    let full := ((d.phasesOf g).filter (fun p => d.weight p == 10)).length
    let fs := (d.icapFs g).getD 1
    let cap := divUp ((ELE_MDL_SAT.sat_knee d g * full * (d.phaseFs g).getD 1 * 4096 : Nat) : Int) fs
    if cap < t then cap else t
  else t

/-- The AUX target: the charge limits of the group's strings where they form it (R262), else the one set. -/
def Dev.auxTarget (d : Dev) (g : Nat) : Int :=
  if ELE_GRP_CFG.aux_src d g = 0 then
    let ss := d.auxStrings g
    let sum := (ss.map (fun s => (fileGet d.strings s default).limit)).sum
    if ss.isEmpty then d.target g 3 else (roundDivN (sum * 2 ^ 28) (ss.length * d.auxStringFs g) : Nat)
  else d.target g 3

/-- A limit channel takes a target (R118): at once while the group is stopped, by slewing otherwise. -/
def Group.limit (x : Group) (i : Nat) (t : Int) : Group :=
  x.modChan i (fun c => { c with t := t, r := if x.state.stopped then t else c.r })

/-- Limit channels take their targets (R118). With aux_src 0 the AUX target is the Battery Shelf Manager's. -/
def Dev.refreshLimits (d : Dev) (g : Nat) : Dev :=
  d.modGroup g (fun x =>
    let y := (x.limit 1 (d.icapTarget g)).limit 2 (d.target g 2)
    if ELE_GRP_CFG.aux_src d g = 0 then y else y.limit 3 (d.target g 3))

/-- The Battery Shelf Manager updates the AUX target of a group whose charge it limits (R262, R493). -/
def Dev.refreshAux (d : Dev) (g : Nat) : Dev :=
  if ELE_GRP_CFG.aux_src d g = 0 then d.modGroup g (fun x => x.limit 3 (d.auxTarget g)) else d

/-- The ICAP limit last set, in mA: what a start declares (Table 11-2). -/
def Dev.icapLimit (d : Dev) (g : Nat) : Nat :=
  if d.regOn g 1 then (roundDiv (d.target g 1 * ((d.icapFs g).getD 0 : Nat)) (2 ^ 28)).toNat else 0

/-! ### Leaving the states of Table 4-3 -/

/-- A phase leaves JOINING other than by a join that is complete: its token returns (R304, Table 11-2). -/
def Dev.leaveJoining (d : Dev) (p : Nat) : Dev := if (d.leg p).state = .joining then d.release (slotLeg p) else d

/-- A leg at its safe levels in IDLE. -/
def Leg.idled (l : Leg) : Leg :=
  { l with state := .idle, next := .none, edges := default, joinBegun := false, unweighed := false, run := .waiting }

/-- A phase's legs go to their safe levels at once and become IDLE; a parked phase stays parked (Table 6-3). -/
def Dev.idleLegs (d : Dev) (g : Nat) : Dev :=
  forAll (fun k d => if (d.leg k).state = .parked then d.modLeg k (fun l => { l with next := .none })
      else (d.leaveJoining k).modLeg k Leg.idled)
    (d.legsOf g) d

/-- The commands whose park of a leg waits for its period start. -/
def Leg.parks (l : Leg) : List Nat :=
  match l.next with
  | .park fs => fs
  | _ => []

/-- Parks that wait for a period start commit when the legs are safe (R183); one whose commands a link event has closed
does not (R385). -/
def Dev.pendingParks (d : Dev) (g : Nat) : List (Nat × List Nat) :=
  ((d.phasesOf g).map (fun k => (k, (d.leg k).parks))).filter (fun x => x.2.any d.isOpen)

/-- The legs whose unpark is in flight end it with a status. A request that waits is withdrawn; the token of a leg in
JOINING stays with it until it leaves that state (R183, R304, Table 11-2). -/
def Dev.endUnparks (d : Dev) (g status : Nat) : Dev :=
  forAll (fun k d =>
    let d1 := if (d.leg k).state = .joining then d else d.release (slotLeg k)
    match (d.leg k).unpark with
    | none => d1
    | some f => (d1.modLeg k (fun l => { l with unpark := none })).finish f status [])
    (d.phasesOf g) d

/-- Several commands end with a status. -/
def Dev.finishAll (d : Dev) (ks : List Nat) (status : Nat) : Dev := forAll (fun k d => d.finish k status []) ks d

/-- Several commands commit all their stages. -/
def Dev.doneAll (d : Dev) (ks : List Nat) : Dev := forAll (fun k d => d.commitAll k stDone []) ks d

/-- The GROUP_TARGET that slews, and those that wait, end with a status; other waiting stages stay. -/
def Dev.endTargets (d : Dev) (g status : Nat) : Dev :=
  let x := d.group g
  let waiting := x.pend.filterMap (fun p => match p with
    | .target f _ _ _ _ => some f
    | _ => none)
  let keep := x.pend.filter (fun p => match p with
    | .target .. => false
    | _ => true)
  let slewing := match x.watch.targeting with
    | some k => [k]
    | none => []
  let results := fun k => ((d.cmd k).map (·.results)).getD []
  let d1 := d.modGroup g (fun x => { x with pend := keep, watch := { x.watch with targeting := none } })
  forAll (fun k d => d.finish k status (results k)) (slewing ++ waiting) d1

/-- The channels of a stopped group stand at their targets, and a GROUP_TARGET that slewed commits (R116, R118). -/
def Dev.restTargets (d : Dev) (g : Nat) : Dev :=
  let t := d.target g 0
  let k := (d.group g).watch.targeting
  let results := ((k.bind d.cmd).map (·.results)).getD []
  let d1 := d.modGroup g (fun x =>
    { x.modChan 0 (fun c => { c with t := t, r := t }) with watch := { x.watch with targeting := none } })
  (d1.refreshLimits g).commitAllOpt k stDone results

/-- A change to the ROM loop. -/
def Pend.isRom : Pend → Bool
  | .rom _ => true
  | _ => false

/-- A change of the live rate. -/
def Pend.isRate : Pend → Bool
  | .rate _ => true
  | _ => false

/-- What every way out of the running states does: nothing runs on its own account any more. -/
def Group.rest (x : Group) (s : GroupState) : Group :=
  { x with state := s, pend := x.pend.filter (fun p => !p.isRom), floor := false, trim := 0, waiting := false, rom := false,
           clampHi := false, clampLo := false, item := none, modelItem := none,
           watch := { x.watch with nonVreg := none, vregSince := none, limiting := false, warnSince := none,
                                   feSince := none, feTold := false, enables := [], automatic := false, overrun := 0,
                                   itemRuns := false } }

/-- Parks still waiting when the legs have become idle take effect and commit. -/
def Dev.takeParks (d : Dev) (g : Nat) (parks : List (Nat × List Nat)) : Dev :=
  forAll (fun (p : Nat × List Nat) d =>
    let d1 := d.modPhase g p.1 (fun l => { l with state := .parked, parkCause := 1 })
    (d1.raise 0x0120 clsC (32 + p.1) 1 0).doneAll p.2) parks d

/-- After a fault of its own, or a failed automatic restart, a group waits hiccup_off, or has no restart left
(R149). -/
def Dev.scheduleRestart (d : Dev) (g : Nat) : Dev :=
  let most := ELE_HICCUP.hiccup_max d g
  let n := (d.group g).watch.hiccups
  if n < most then
    d.modWatch g (fun w => { w with restartAt := some (d.now + ELE_HICCUP.hiccup_off d g * ticksPerMs) })
  else if 0 < most ∧ n = most then d.raise 0x0115 clsB g 0 0
  else d

/-- A group that stops no longer runs at a reduced rate (Table 5-10). -/
def Dev.unreduce (d : Dev) (g : Nat) : Dev :=
  { d with sup := { d.sup with reduced := d.sup.reduced.filter (fun h => h != g) } }

/-- The group enters OFF. -/
def Dev.enterOff (d : Dev) (g : Nat) : Dev :=
  let offs := (d.group g).watch.disables
  let parks := d.pendingParks g
  let d1 := (d.idleLegs g).takeParks g parks
  let d2 := d1.modGroup g (fun x => { (x.rest .off) with watch := { (x.rest .off).watch with disables := [] } })
  ((d2.unreduce g).doneAll offs).owe (.groupMoved g)

/-- The group enters FAULTED (Table 4-3, R122, R143, R148, R149). `retry` is a cause of R148; none calls for a retry in
Single-Line Working. -/
def Dev.groupFault (d : Dev) (g : Nat) (retry : Bool) : Dev :=
  let x := d.group g
  if x.state.stopped then d
  else
    let again := retry && x.watch.disables.isEmpty && !d.il.slw
    let parks := d.pendingParks g
    let d1 := (d.idleLegs g).takeParks g parks
    let d2 := d1.modGroup g (fun x =>
      { (x.rest .faulted) with watch := { (x.rest .faulted).watch with restartAt := none, disables := [] } })
    let d4 := ((d2.unreduce g).release (slotGroup g)).endUnparks g stAborted
    let d5 := ((d4.finishAll x.watch.enables stAborted).finishAll x.watch.disables stAborted).endTargets g stAborted
    let d6 := if again then d5.scheduleRestart g else d5
    d6.owe (.groupMoved g)

/-- The target of an output voltage in Q20.20, and whether the output lies within pgood of it (Table 4-11). -/
def Dev.inPgood (d : Dev) (g : Nat) (v : Int) : Bool :=
  let t := shiftRound ((d.group g).chan 0).t 8
  let w := ELE_GRP_SS.pgood d g
  1000 * v ≤ t * (1000 + w) && t * (1000 - w) ≤ 1000 * v

/-- The output lies below the lower pgood bound (R189). -/
def Dev.belowPgood (d : Dev) (g : Nat) (v : Int) : Bool :=
  1000 * v < shiftRound ((d.group g).chan 0).t 8 * (1000 - ELE_GRP_SS.pgood d g)

/-! ### Starting (R121, R123, R133, R149) -/

/-- The rank of a group's request (R299). -/
def Dev.groupRank (d : Dev) (g : Nat) (ring : Option Nat) : Nat :=
  if d.safetyCrit g then 0
  else match ring with
    | some n => ringRank n
    | none => 1

/-- The group asks for leave. -/
def Dev.groupAsks (d : Dev) (g : Nat) (fetch : Option Nat) : Dev :=
  let ring := (fetch.bind d.cmd).map (fun c => c.desc.ring.val)
  d.request (slotGroup g) {
    rank := d.groupRank g ring, surge := d.icapLimit g, span := ELE_GRP_SS.ss_timeout d g * ticksPerMs,
    tagged := fetch.isSome }

/-- The group enters STARTING, with its live rate taken anew (R446), and asks for leave when `ask`. -/
def Dev.enterStarting (d : Dev) (g : Nat) (fetch : Option Nat) (ask restart : Bool) : Dev :=
  let r := d.startRate g
  let ks := match fetch with
    | some k => [k]
    | none => []
  let own := d.reg (stepReg g) * 2 ^ r.doubled
  let d1 := (d.refreshLimits g).modGroup g (fun x =>
    { x with state := .starting, rate := r, ownStep := own, waiting := false, strings := d.auxAssigned g,
             watch := { x.watch with enables := ks, automatic := restart } })
  let d2 := d1.owe (.groupMoved g)
  if ask then d2.groupAsks g fetch else d2

/-- No automatic start of a group: its stop line is driven or, for a group that is not safety-critical, the device is
in Single-Line Working (R494). -/
def Dev.noAutoStart (d : Dev) (g : Nat) : Bool := d.withdrawn || d.il.stopAll || (d.il.slw && !d.safetyCrit g)

/-- An automatic start of a group under auto_groups (R417): without a command tag. -/
def Dev.autoStart (d : Dev) (g : Nat) : Dev :=
  if !d.noAutoStart g && (d.group g).state.stopped && d.canStart g then d.enterStarting g none true false else d

/-- A hiccup restart (R149). -/
def Dev.hiccupStart (d : Dev) (g : Nat) : Dev :=
  if d.canStart g then d.enterStarting g none true true else d.scheduleRestart g

/-- Means of the pre-bias samples: the sum of eight results times 4 is the mean in Q20.20. -/
def meanOf (xs : List Int) : Int := 4 * xs.foldl (· + ·) 0

/-- Mean current of a phase over the pre-bias samples. -/
def preCurrent (ss : List PreSample) (p : Nat) : Int :=
  meanOf (ss.map (fun s => ((s.cur.find? (fun c => c.1 == p)).map (·.2)).getD 0))

/-- The pre-bias demand in Q20.20 (R123): Vpb / (Vin × gdc) in physical units, clamped to umin and umax. -/
def Dev.prebias (d : Dev) (g : Nat) (vpb vin : Int) : Int :=
  let lo := (ELE_GRP_DLIM.umin d g * 16 : Nat)
  let hi := (ELE_GRP_DLIM.umax d g * 16 : Nat)
  if vin ≤ 0 then lo
  else
    let vfs := ((d.voutFs g).getD 1 : Nat)
    let ifs := (((d.vinConv g).map d.fsOf).getD 1 : Nat)
    clampI lo hi (divUp (vpb * vfs * 2 ^ 40) (vin * ifs * (ELE_GRP_RATIO.gdc d g : Nat)))

/-! ### Offsets after a change of the active phases (R186) -/

/-- New target offsets of the active phases, by R186's formula: its first is O_0, also where the lowest active phase
is not the group's lowest and would keep another offset by R186's last sentence (DESIGN CHOICE, log entry 106). -/
def Dev.retarget (d : Dev) (g : Nat) : Dev :=
  let act := d.activePhases g
  let p := (d.group g).rate.switchPeriod
  let o0 := PTU_LEG_OFS.ofs d ((d.phasesOf g).headD 0)
  if p = 0 then d
  else forAll (fun (j : Nat) d =>
    d.modLeg (act.getD j 24) (fun l => { l with target := (o0 + j * p / act.length) % p })) (indices act.length) d

/-- Live offsets at the start of switching: the configured ones with every phase present, otherwise those of R186. -/
def Dev.startOffsets (d : Dev) (g : Nat) : Dev :=
  let d1 := d.retarget g
  if d.presentPhases g = d.phasesOf g then
    forAll (fun p d => d.modLeg p (fun l => { l with offset := PTU_LEG_OFS.ofs d p, target := PTU_LEG_OFS.ofs d p }))
      (d.phasesOf g) d1
  else forAll (fun p d => d.modLeg p (fun l => { l with offset := l.target })) (d.phasesOf g) d1

/-- Pre-bias capture and the start of switching (R123, R133; Table 4-3, Table 6-3). ihat of a substituted phase is the mean
of its measured results too: no prediction belongs to the samples before the start (DESIGN CHOICE, log entry 143). -/
def Dev.capture (d : Dev) (g : Nat) : Dev :=
  let x := d.group g
  let vpb := meanOf (x.samples.map (·.vout))
  let vin := meanOf (x.samples.map (·.vin))
  let dp := d.prebias g vpb vin
  let t := (x.chan 0).t
  let low := decide (vpb * 256 < t)
  let f := fun (x : Group) =>
    let clear := fun (i : Nat) (x : Group) => x.modChan i (fun c => { c with e1 := 0, e2 := 0, e3 := 0 })
    let x1 := clear 0 (clear 1 (clear 2 (clear 3 x)))
    let x2 := x1.modChan 0 (fun c =>
      { c with r := if low then vpb * 256 else t, s := d.stepOf g (ELE_GRP_SS.ss_rate d g) })
    let dq := (shiftRound dp 4).toNat
    let md : GroupModel := ⟨vpb, 0, 0, dp, vin, vpb, dp, vin, vpb, [], false, x.model.steps⟩
    { x2 with state := .softStart, y1 := dp, y2 := dp, y3 := dp, applied := dq, dpb := dp, floor := low,
              waiting := false, model := md, item := none, modelItem := none,
              watch := { x2.watch with ssSince := d.now, overrun := 0, lastCheck := d.now, lastModel := d.now,
                                       lateTold := false, feTold := false } }
  let ks := x.watch.enables
  let d1 := d.modGroup g f
  let d2 := forAll (fun p d =>
    let i := preCurrent x.samples p
    (d.modPhase g p (fun l => { l with state := .switching, next := .begin, run := .waiting })).modLeg p (fun l =>
      { l with model := { l.model with ihat := i, pred := i, i0 := i, i1 := i, rho := 0, delta := 0, count := 0,
                                       inside := none } })) (d1.presentPhases g) d1
  (forAll (fun k d => d.commit k 2) ks (d2.startOffsets g)).owe (.groupMoved g)

/-- Leave has arrived for a group (Table 4-3). -/
def Dev.groupGranted (d : Dev) (g : Nat) : Dev :=
  let x := d.group g
  if x.state ≠ .starting then d.release (slotGroup g)
  else
    let d1 := forAll (fun k d => d.commit k 1) x.watch.enables d
    if d1.canStart g then
      let d2 := forAll (fun k d => if (d.leg k).state = .parked then d else d.clearLatch (colLeg k)) (d1.legsOf g) d1
      if 8 ≤ x.samples.length then d2.capture g else d2.modGroup g (fun x => { x with waiting := true })
    else
      let dest := if x.watch.automatic then GroupState.faulted else .off
      let d2 := ((d1.modGroup g (fun x => x.rest dest)).release (slotGroup g)).finishAll x.watch.enables stRejected
      (if x.watch.automatic then d2.scheduleRestart g else d2).owe (.groupMoved g)

/-- No leave within the timeout (Table 4-3, R149). -/
def Dev.groupGaveUp (d : Dev) (g : Nat) : Dev :=
  let x := d.group g
  if x.state ≠ .starting then d
  else
    let dest := if x.watch.automatic then GroupState.faulted else .off
    let d1 := (d.modGroup g (fun x => x.rest dest)).finishAll x.watch.enables stTokenTimeout
    (if x.watch.automatic then d1.scheduleRestart g else d1).owe (.groupMoved g)

/-! ### Stopping (R189, R194, R195) -/

/-- A leg of the group still produces edges, or waits for its first ones. -/
def Dev.driving (d : Dev) (g : Nat) : Bool :=
  (d.legsOf g).any (fun k => (d.leg k).state == .switching || (d.leg k).state == .joining)

/-- Legs of the group discharge. -/
def Dev.discharging (d : Dev) (g : Nat) : Bool := (d.legsOf g).any (fun k => (d.leg k).state == .discharging)

/-- A phase enters DISCHARGING from its next period start on; parks that wait keep their place (R183, R195). Table 6-3
names SWITCHING alone; R195's "each leg" takes JOINING and SHED legs with it (DEDUCED, log entry 107). -/
def Dev.dischargePhase (d : Dev) (g p : Nat) : Dev :=
  let l := d.leg p
  if l.state = .parked then d
  else (d.leaveJoining p).modPhase g p (fun l =>
    { l with state := .discharging, next := if l.parks.isEmpty then .none else l.next, joinBegun := false,
             unweighed := false })

/-- A leg stops at its next period start: one that switches or joins goes to its safe levels, and a shed one that was to
return stays at them (R194). A park that waits stands. -/
def Leg.stopNext (l : Leg) : Leg :=
  match l.state, l.next with
  | .switching, .park _ | .joining, .park _ => l
  | .switching, _ | .joining, _ => { l with next := .stop }
  | .shed, .restore => { l with next := .none }
  | _, _ => l

/-- Soft stop is complete (R194, R195): with dis_en in a duty group every leg discharges; otherwise the legs reach their
safe levels at their next period start, and the group enters OFF when all have (log entry 76). -/
def Dev.softStopDone (d : Dev) (g : Nat) : Dev :=
  if PTU_GRP_STOP.dis_en d g = 1 ∧ !d.isShift g then
    let d1 := forAll (fun p d => d.dischargePhase g p) (d.phasesOf g) d
    if d1.discharging g then d1.modWatch g (fun w => { w with disSince := d.now }) else d1.enterOff g
  else if d.driving g then
    forAll (fun p d => d.modPhase g p Leg.stopNext) ((d.phasesOf g).filter (fun p => (d.leg p).state != .parked)) d
  else d.enterOff g

/-- Shed phases return at their next period start, and no shedding waits any more (R189); a park that waits stands. -/
def Dev.returnAll (d : Dev) (g : Nat) : Dev :=
  forAll (fun p d => d.modPhase g p (fun l =>
      { l with next := match l.state, l.next with
                       | .shed, .none => .restore
                       | .switching, .shed => .none
                       | _, n => n })) (d.phasesOf g) d

/-- Output B of every leg of a duty group with de is inactive from the entry to STOPPING on (R195). -/
def Dev.silenceB (d : Dev) (g : Nat) : Dev :=
  if PTU_GRP_STOP.de d g = 1 ∧ !d.isShift g then
    forAll (fun k d => d.modLeg k (fun l => { l with edges := { l.edges with bOn := false } })) (d.legsOf g) d
  else d

/-- The group enters STOPPING (Table 4-3, R189, R195, R196). -/
def Dev.enterStopping (d : Dev) (g k : Nat) : Dev :=
  let x := d.group g
  let d1 := d.modGroup g (fun x =>
    { x with state := .stopping, floor := false, trim := 0, stopCeil := x.applied * 40000,
             watch := { x.watch with enables := [], disables := [k] } })
  let d2 := ((d1.release (slotGroup g)).finishAll x.watch.enables stSuperseded).endUnparks g stSuperseded
  let d3 := if PTU_GRP_STOP.dis_en d g = 1 ∧ !d.isShift g then d2.returnAll g else d2
  let d4 := ((d3.silenceB g).commit k 1).owe (.groupMoved g)
  if PTU_GRP_STOP.stop_rate d g = 0 then d4.softStopDone g else d4

/-- Discharge ends (R195). -/
def Dev.endDischarge (d : Dev) (g : Nat) : Dev := d.enterOff g

end Sys2Proof.Machine
end

