-- ==== Sys2Proof/Machine/Loop.lean ====
section
/-! DEFINITION. The sample item of a group: its instants and their placing, command stages at the boundary, references,
errors, compensators, the Junction, soft start and soft stop, overrun (spec/02 R35; spec/03 R61, R65, R66;
spec/04_loop_engine.md R98 to R125; spec/05 R138 to R144, R155, R156, R163, R168; spec/06 R186, R189, R194, R195;
spec/12 R326). -/
namespace Sys2Proof.Machine

/-! ### Edge positions, delay lines and sample instants (R35, R61, R65, R66) -/

/-- An edge position as a line with `taps` taps per tick places it (R35): E / 400 ticks, then round(F × N / 400) taps
for F = E mod 400, the quotient rounded to the nearest whole number. -/
def placedAt (taps : Nat) (e : Int) : Placed := ⟨(e / 400).toNat, roundDivN ((e % 400).toNat * taps) 400⟩

/-- An edge position as the active line of pair `i` places it. -/
def Dev.placeEdge (d : Dev) (i : Nat) (e : Int) : Placed := placedAt (fileGet d.bge.lines i default).taps e

/-- The line pair that places the instants of group `g` (R66: pairs 0 to 15 of the sample lines, numbered from 48). -/
def groupLine (g : Nat) : Nat := 48 + g

/-- The line pair that places the instants of converter `n` (R66: pairs 16 to 63 of the sample lines). -/
def converterLine (n : Nat) : Nat := 64 + n

/-- Uptime now as an edge position. -/
def Dev.edgeNow (d : Dev) : Int := (d.now * 400 : Nat)

/-- Time passes until an edge position. -/
def Dev.untilEdge (d : Dev) (e : Int) : Dev := d.until ((e + 399) / 400).toNat

/-- The instant a sample of a grid belongs to: of the positions `first + k * span`, k from 0, the latest that has
passed, or the next one where no new one has passed since `last`. -/
def gridInstant (first span now : Int) (last : Option Int) : Int :=
  let x := first + span * max 0 ((now - first) / span)
  match last with
  | none => x
  | some t => if t < x ∧ x ≤ now then x else first + span * max 0 ((t - first) / span + 1)

/-- The sample period in force for a group: live while it runs, else MA_GRP_SAMP.period. -/
def Dev.livePeriod (d : Dev) (g : Nat) : Nat :=
  if (d.group g).state.stopped then MA_GRP_SAMP.period d g else (d.group g).rate.period

/-- The next instant of a group (R65). -/
def Dev.groupInstant (d : Dev) (g : Nat) : Int :=
  gridInstant (MA_GRP_SAMP.phase d g) (d.livePeriod g * 400 : Nat) d.edgeNow (d.group g).instant

/-- The skew of a converter in edge codes. -/
def Dev.skewOf (d : Dev) (n : Nat) : Int := signedOf 20 (MA_CH_SKEW.skew d n)

/-- The grid of a converter's sample instants, its first and its span (R61, R65): its group's grid moved by its skew,
or the multiples of 8 × (fr_div + 1) ticks. A grid begins with the first instant that is not before uptime 0. -/
def Dev.converterGrid (d : Dev) (n : Nat) : Int × Int :=
  if MA_CH_CFG.grp_en d n = 1 then
    let g := MA_CH_CFG.grp d n
    let span : Int := (d.livePeriod g * 400 : Nat)
    let first := MA_GRP_SAMP.phase d g + d.skewOf n
    (if first < 0 then first + span else first, span)
  else (0, (8 * (MA_CH_CFG.fr_div d n + 1) * 400 : Nat))

/-- The next sample instant of a converter. -/
def Dev.converterInstant (d : Dev) (n : Nat) : Int :=
  gridInstant (d.converterGrid n).1 (d.converterGrid n).2 d.edgeNow (d.sar n).instant

/-- The running converters of a group. -/
def Dev.groupRunning (d : Dev) (g : Nat) : List Nat :=
  (indices 48).filter (fun n => MA_CH_CFG.grp_en d n == 1 && MA_CH_CFG.grp d n == g && MA_CH_CFG.en d n == 1)

/-- The group instant a converter has last delivered a result for. -/
def Dev.deliveredFor (d : Dev) (n : Nat) : Option Int := (d.sar n).instant.map (fun t => t - d.skewOf n)

/-- The instant whose sample is complete (R65): every running converter of the group has delivered its result for it,
and it follows the last one completed. A group none of whose converters runs completes by its own instants (R101). -/
def Dev.completeInstant (d : Dev) (g : Nat) : Option Int :=
  let ts := (d.groupRunning g).map d.deliveredFor
  match ts with
  | [] => some (d.groupInstant g)
  | t :: rest =>
    let least := rest.foldl (fun (a : Option Int) b => a.bind (fun x => b.map (min x))) t
    least.filter (fun x => match (d.group g).instant with
      | none => true
      | some l => l < x)

/-- Persistence counts of a group return to 0 at each shed or return (R191). -/
def Dev.clearCounts (d : Dev) (g : Nat) : Dev :=
  forAll (fun p d => d.modLeg p (fun l => { l with model := { l.model with count := 0 } })) (d.phasesOf g) d

/-! ### Health of a phase (R138 to R143) -/

/-- The catch points of a phase's converter: CP2j and CP2j+1 (R139). -/
def Dev.phaseRows (d : Dev) (g p : Nat) : List Nat :=
  match d.phaseConv g p with
  | some j => [2 * j, 2 * j + 1]
  | none => []

/-- Remove columns from the live mask of a row (R139). -/
def TripMatrix.remove (t : TripMatrix) (row cols : Nat) : TripMatrix :=
  let old := ((t.removed.find? (fun p => p.1 == row)).map (·.2)).getD 0
  { t with removed := (row, Nat.lor old cols) :: t.removed.filter (fun p => p.1 != row) }

/-- Restore columns to the live mask of a row (R144). -/
def TripMatrix.restoreCols (t : TripMatrix) (row cols : Nat) : TripMatrix :=
  let cut := t.removed.map (fun p => if p.1 = row then (p.1, without p.2 cols) else p)
  { t with removed := cut.filter (fun p => p.2 != 0) }

/-- The leg columns of a phase as a mask. -/
def Dev.phaseCols (d : Dev) (g p : Nat) : Nat := ((d.legsOfPhase g p).map (fun k => 2 ^ colLeg k)).sum

/-- Phases of health GOOD, but for `p`. -/
def Dev.goodOthers (d : Dev) (g p : Nat) : List Nat :=
  (d.phasesOf g).filter (fun q => q != p && (d.leg q).health == .good && (d.leg q).state != .parked
    && (d.leg q).state != .shed)

/-- A phase becomes LEG_OPEN (R138, R143, R185, Table 6-3). A park that waits commits: its legs have reached their safe
levels (R183). -/
def Dev.openLeg (d : Dev) (g p : Nat) : Dev :=
  let un := (d.leg p).unpark
  let parks := (d.leg p).parks
  let d1 := d.modPhase g p (fun l =>
    { l with health := .legOpen, state := .parked, parkCause := 3, next := .none, edges := default, unpark := none,
             unweighed := false })
  let d2 := ((d1.release (slotLeg p)).finishOpt un stAborted []).doneAll parks
  let d3 := (d2.raise 0x0112 clsB (32 + p) 0 0).raise 0x0120 clsC (32 + p) 3 0
  let d4 := (d3.refreshLimits g).retarget g
  if (d.phasesOf g).any (fun q => q != p && 0 < d.weight q) then d4
  else (d4.groupFault g true).raise 0x0112 clsB g 0 0

/-- A phase becomes SENSE_SUBSTITUTED (R139, R140). -/
def Dev.substitute (d : Dev) (g p : Nat) : Dev :=
  let others := d.goodOthers g p
  let mean := divUp ((others.map (fun q => (d.leg q).model.ihat)).foldl (· + ·) 0) (others.length : Int)
  let rows := d.phaseRows g p
  let cols := d.phaseCols g p
  let d1 := d.modPhase g p (fun l => { l with health := .substituted, cutRows := rows, cutCols := cols })
  let start := fun (m : PhaseModel) =>
    { m with ihat := if others.isEmpty then m.ihat else mean, above := false, below := false }
  let d2 := d1.modLeg p (fun l => { l with model := start l.model })
  let d3 := forAll (fun r d => { d with trip := d.trip.remove r cols }) rows d2
  (d3.raise 0x0113 clsB (32 + p) 0 0).refreshLimits g

/-- A phase becomes INDUCTOR_SAT (R141). -/
def Dev.saturate (d : Dev) (g p : Nat) : Dev :=
  let d1 := d.modPhase g p (fun l => { l with health := .saturated })
  let d2 := d1.modLeg p (fun l => { l with model := { l.model with inside := none } })
  (d2.raise 0x0114 clsB (32 + p) 0 0).refreshLimits g

/-- A classified phase enters its class at the sample boundary; codes as ELE_LEG_HEALTH.health. -/
def Dev.enterHealth (d : Dev) (g p code : Nat) : Dev :=
  if code = 1 then d.openLeg g p else if code = 2 then d.substitute g p else d.saturate g p

/-! ### The sample boundary (R116, R117, R120, R129, R145) -/

/-- The first stage of a GROUP_TARGET commits (R116, R117, R125). -/
def Dev.takeTarget (d : Dev) (g f : Nat) (t : Int) (s base res : Nat) : Dev :=
  let x := d.group g
  let old := x.watch.targeting
  let results := ((old.bind d.cmd).map (·.results)).getD []
  let d1 := d.finishOpt old stSuperseded results
  let give := fun (c : Channel) =>
    { c with t := t, r := if x.state.stopped then t else c.r, s := if x.state = .softStart then c.s else s }
  let d2 := d1.modGroup g (fun x =>
    let y := x.modChan 0 give
    { y with ownStep := s, watch := { x.watch with targeting := some f } })
  let d3 := (((d2.setTarget g 0 t).setReg (stepReg g) base).keepResults f [res, s]).commit f 1
  if ((d3.group g).chan 0).r = t then
    (d3.modWatch g (fun w => { w with targeting := none })).commitAll f stDone [res, s]
  else d3

/-- A COEFF_LOAD commits (R128, R129). -/
def Dev.takeCoeffs (d : Dev) (g f i : Nat) (cs : List Int) (design : Option Design) : Dev :=
  let regs := (indices 7).map (fun j => (0x2800 + 0x80 * g + 0x20 * i + 4 * j, unsignedOf 24 (cs.getD j 0)))
  let ds := fun (old : List (Option Design)) =>
    (indices 4).map (fun j => if j = i then design else old.getD j none)
  let d1 := (d.setRegs regs).modGroup g (fun x =>
    { x with rate := { x.rate.put i cs with designs := ds x.rate.designs } })
  d1.commitAll f stDone ((indices 4).map (fun j => unsignedOf 24 (cs.getD j 0)))

/-- A MODEL_LOAD commits (R145). -/
def Dev.takeModel (d : Dev) (g f : Nat) (ims : List (Nat × Nat)) : Dev :=
  let d1 := (d.setRegs ims).refreshLimits g
  d1.commitAll f stDone [ELE_MDL_KL.coef d1 g, ELE_MDL_KR.coef d1 g, ELE_MDL_KC.coef d1 g, ELE_MDL_GV.coef d1 g]

/-- The VREG target and limits of the Rule Book image, for the ROM loop (R326). -/
def Dev.bookField (d : Dev) (off lo width : Nat) : Nat := bitsOf (d.book.loaded.get off).toNat lo width

/-- A group changes to the ROM loop, or back to its live coefficients and references (R326, R329): back in SOFT_START
with the soft-start step of its live registers. -/
def Dev.takeRom (d : Dev) (g : Nat) (on : Bool) : Dev :=
  let t := if on then d.book.loaded.target g 0 else d.target g 0
  d.modGroup g (fun x =>
    let slow := d.stepOf g (if on then d.bookField (ELE_GRP_SS.reg g) 16 16 else ELE_GRP_SS.ss_rate d g)
    let give := fun (c : Channel) => { c with t := t, s := if on || x.state == .softStart then slow else x.ownStep }
    { (x.modChan 0 give) with rom := on })

/-- One doubling or halving of the live rate takes effect, the reference steps with it (R166, R167). -/
def Dev.takeRate (d : Dev) (g : Nat) (slower : Bool) : Dev :=
  let step := fun (s : Nat) => if slower then 2 * s else s / 2
  d.modGroup g (fun x =>
    let y := x.modChan 0 (fun c => { c with s := step c.s })
    { y with ownStep := step x.ownStep, rate := if slower then x.rate.double else x.rate.halve })

/-- PTU_GRP_SHED has changed: shed_en 0 returns every shed phase (Table 6-6), and a shed_thr that has come down
restarts the dwell of R188, for the current need not have stayed below the new one. -/
def Dev.shedWritten (d : Dev) (g oldThr : Nat) : Dev :=
  let d1 := if PTU_GRP_SHED.shed_en d g = 0 then d.returnAll g else d
  if PTU_GRP_SHED.shed_thr d g < oldThr then d1.modWatch g (fun w => { w with shedSince := d.now }) else d1

/-- A register that a group reads at each sample takes the value of a BAR0 write (R442). -/
def Dev.takeWrite (d : Dev) (g off v : Nat) : Dev :=
  let d1 := ((d.setReg off v).storedReg off).refreshLimits g
  if off = PTU_GRP_SHED.reg g then d1.shedWritten g (PTU_GRP_SHED.shed_thr d g) else d1

/-- One waiting stage takes effect. -/
def Dev.takePend (d : Dev) (g : Nat) : Pend → Dev
  | .target f t s base res => d.takeTarget g f t s base res
  | .coeffs f i cs design => d.takeCoeffs g f i cs design
  | .model f ims => d.takeModel g f ims
  | .health p code => d.enterHealth g p code
  | .rom on => d.takeRom g on
  | .rate slower => d.takeRate g slower
  | .write off v => d.takeWrite g off v

/-- Phases that have entered JOINING regain their weight (R182). -/
def Dev.weighJoined (d : Dev) (g : Nat) : Dev :=
  if (d.phasesOf g).any (fun p => (d.leg p).unweighed) then
    (forAll (fun p d => d.modPhase g p (fun l => { l with unweighed := false })) (d.phasesOf g) d).refreshLimits g
  else d

/-- The sample boundary: every waiting stage in order (R120), and the weights of joining phases. -/
def Dev.boundary (d : Dev) (g : Nat) : Dev :=
  let ps := (d.group g).pend
  (forAll (fun p d => d.takePend g p) ps (d.modGroup g (fun x => { x with pend := [] }))).weighJoined g

/-- A stage that needs a boundary: at once in a stopped group, else at the next sample (R116, R118, R120). -/
def Dev.atBoundary (d : Dev) (g : Nat) (p : Pend) : Dev :=
  if (d.group g).state.stopped then d.takePend g p
  else d.modGroup g (fun x => { x with pend := x.pend ++ [p] })

/-! ### Errors, compensators, Junction -/

/-- One step of a reference channel (R114). -/
def Channel.advance (c : Channel) (s : Nat) : Channel :=
  { c with s := s, r := if s = 0 then c.t else if c.r < c.t then min (c.r + s) c.t
                        else if c.t < c.r then max (c.r - s) c.t else c.r }

/-- All reference channels of a group advance (R114, R118, R163). -/
def Dev.advanceRefs (d : Dev) (g : Nat) : Dev :=
  let lim := d.stepOf g (ELE_GRP_SLEW.lim_slew d g)
  d.modGroup g (fun x =>
    let x0 := x.modChan 0 (fun c => c.advance c.s)
    ([1, 2, 3] : List Nat).foldl (fun x i => x.modChan i (fun c => c.advance lim)) x0)

/-- The measured current of a phase as the group uses it: 0 when LEG_OPEN, the prediction when substituted
(R138, R139). The sample item runs before its sample's model item (R105), so pred_p is the one the last evaluation
left, also in the first sample after the substitution (DESIGN CHOICE, log entry 108). -/
def Dev.phaseCurrent (d : Dev) (g p : Nat) : Int :=
  match (d.leg p).health with
  | .legOpen => 0
  | .substituted => (d.leg p).model.pred
  | _ => ((d.phaseConv g p).map d.quantity).getD 0

/-- A converter's result as the group uses it: that of a phase's converter as the phase's current (R138, R139). -/
def Dev.converterQuantity (d : Dev) (g n : Nat) : Int :=
  match (d.phasesOf g).find? (fun p => d.phaseConv g p == some n) with
  | some p => d.phaseCurrent g p
  | none => d.quantity n

/-- The ICAP quantity (R99, R492). -/
def Dev.icapQuantity (d : Dev) (g : Nat) : Int :=
  if ELE_GRP_CFG.icap_src d g = 0 then
    sat40 (divUp (((d.phasesOf g).map (d.phaseCurrent g)).foldl (· + ·) 0) (d.phaseCount g : Int))
  else if ELE_GRP_CFG.icap_src d g = 1 then ((d.convOf g 4 (ELE_GRP_CFG.feed d g)).map d.quantity).getD 0
  else d.converterQuantity g (ELE_GRP_CFG.icap_idx d g)

/-- The AUX quantity (R99, R261). -/
def Dev.auxQuantity (d : Dev) (g : Nat) : Int :=
  if ELE_GRP_CFG.aux_src d g = 0 then
    let cs := (d.auxStrings g).filterMap d.stringConv
    sat40 (divUp (-((cs.map d.quantity).foldl (· + ·) 0)) ((d.auxStrings g).length : Int))
  else if ELE_GRP_CFG.aux_src d g = 1 then ((d.vinConv g).map d.quantity).getD 0
  else d.converterQuantity g (ELE_GRP_CFG.aux_idx d g)

/-- The output voltage quantity. -/
def Dev.vout (d : Dev) (g : Nat) : Int := ((d.voutConv g).map d.quantity).getD 0
/-- The input voltage quantity. -/
def Dev.vin (d : Dev) (g : Nat) : Int := ((d.vinConv g).map d.quantity).getD 0

/-- The share trim a group adds to its VREG reference, in Q0.16 (R119). -/
def Dev.trimOf (d : Dev) (g : Nat) : Int :=
  let top : Int := ELE_GRP_SLEW.trim_max d g
  if ELE_GRP_CFG.feed_en d g = 1 then clampI (-top) top (d.group g).trim else 0

/-- The fixed codes of the ROM loop (Table 12-8). -/
def romCodes : List Int := [0x00FE44, 0x000650, 0xFF080C - 2 ^ 24, 0, 0x182704, 0xF7D8FC - 2 ^ 24, 0]

/-- The regulators a group computes: VREG alone in the ROM loop (R98, R326). -/
def Dev.computed (d : Dev) (g : Nat) : List Nat :=
  if (d.group g).rom then [0] else [0, 1, 2, 3].filter (d.regOn g)

/-- The error of regulator `i` (Table 4-1). -/
def ItemInput.error (n : ItemInput) (i : Nat) : Int :=
  let r := n.refs.getD i 0
  let x := n.quantities.getD i 0
  if i = 3 ∧ n.auxBelow = false then sat40 (x - r) else sat40 (r - x)

/-- Regulator `i`: its error, its proposal and the saturations of its additions (R102, R103), VREG's proposal raised to
the floor of R124. -/
def ItemInput.propose (n : ItemInput) (i : Nat) : Int × Int × Nat :=
  let e := n.error i
  let h := n.histories.getD i (0, 0, 0)
  let u := compensate (n.third.getD i false) (n.codes.getD i []) e h.1 h.2.1 h.2.2 n.y1 n.y2 n.y3
  let z := match n.floor with
    | some f => if i = 0 ∧ u.1 < f then f else u.1
    | none => u.1
  (e, z, u.2)

/-- The lowest proposal and its index, the lower index on a tie (R108, R110). -/
def lowest : List (Nat × Int) → Nat × Int
  | [] => (0, 0)
  | [p] => p
  | p :: q :: rest =>
    let r := lowest (q :: rest)
    if r.2 < p.2 then r else p

/-- The bounds of the demand in Q0.16 (R108, R326). -/
def Dev.demandBounds (d : Dev) (g : Nat) : Nat × Nat :=
  if (d.group g).rom then (d.bookField (ELE_GRP_DLIM.reg g) 0 16, d.bookField (ELE_GRP_DLIM.reg g) 16 16)
  else (ELE_GRP_DLIM.umin d g, ELE_GRP_DLIM.umax d g)

/-- The stop ceiling after one more sample, in Q0.16 times 40,000 (R194). -/
def Dev.lowerCeil (d : Dev) (g : Nat) : Nat :=
  (d.group g).stopCeil - PTU_GRP_STOP.stop_rate d g * (d.group g).rate.period

/-- The stop ceiling falls with a sample of STOPPING, whether its item runs or not (R163, R194). -/
def Dev.lowerStop (d : Dev) (g : Nat) : Dev :=
  if (d.group g).state = .stopping then d.modGroup g (fun x => { x with stopCeil := d.lowerCeil g }) else d

/-- Soft stop is complete: the ceiling has reached umin, or stop_rate is 0 (R194). -/
def Dev.softStopped (d : Dev) (g : Nat) : Bool :=
  PTU_GRP_STOP.stop_rate d g == 0 || decide ((d.group g).stopCeil ≤ (d.demandBounds g).1 * 40000)

/-- The upper bound in force in Q20.20 (R110, R194). -/
def Dev.upperBound (d : Dev) (g : Nat) : Int :=
  let hi : Int := (d.demandBounds g).2 * 16
  if (d.group g).state = .stopping then min hi (divUp ((d.group g).stopCeil * 16 : Nat) 40000) else hi

/-- The demand clamp (R108): between umin and the upper bound in force; the lower bound wins where they cross. -/
def clampDemand (lo hi z : Int) : Int := if z < lo then lo else if hi < z then max lo hi else z

/-- A sample item computed from its record (R102, R103, R108): bit for bit the same on every healthy lane. -/
def ItemInput.run (n : ItemInput) : ItemOutput :=
  let ps := n.regs.map (fun i => (i, n.propose i))
  let w := lowest (ps.map (fun p => (p.1, p.2.2.1)))
  let y := clampDemand n.lo n.hi w.2
  ⟨ps, w.1, w.2, y, (shiftRound y 4).toNat⟩

/-- What the sample item of a group reads (R98, R99, R114, R119, R156). -/
def Dev.itemInput (d : Dev) (g : Nat) : ItemInput :=
  let x := d.group g
  let is := [0, 1, 2, 3]
  let v := d.vout g
  let i := d.icapQuantity g
  { rom := x.rom, regs := d.computed g, quantities := [v, i, mulQ v i, d.auxQuantity g],
    refs := is.map (fun i => shiftRound (x.chan i).r 8 + if i = 0 then 16 * d.trimOf g else 0),
    auxBelow := ELE_GRP_CFG.aux_dir d g == 1,
    histories := is.map (fun i => ((x.chan i).e1, (x.chan i).e2, (x.chan i).e3)),
    codes := is.map (fun i => if x.rom then romCodes else x.rate.of i),
    third := is.map (fun i => !x.rom && bitOf (ELE_GRP_CTRL.order d g) i),
    y1 := x.y1, y2 := x.y2, y3 := x.y3, floor := if x.floor && x.state == .softStart then some x.dpb else none,
    lo := (d.demandBounds g).1 * 16, hi := d.upperBound g }

/-- The second lane of a ROM item (R326): where its applied demand differs, the lower one is used, with the y it stands
for. -/
def ItemOutput.lower (o : ItemOutput) (second : Option Nat) : ItemOutput :=
  match second with
  | some v => if v < o.applied then { o with applied := v, y := v * 16 } else o
  | none => o

/-- Every item of a lane that has taken a strike must be checked (R159): its record waits for a checker. -/
def Dev.mustCheck (d : Dev) (lane : Nat) (r : WorkRecord) : Dev :=
  if 0 < (fileGet d.sup.lanes lane default).toPass ∧ d.il.slw = false then
    { d with sup := { d.sup with queue := d.sup.queue ++ [r] } }
  else d

/-- Lanes that hold work: healthy and not in TESTING. -/
def Dev.workingLanes (d : Dev) : List Nat :=
  (indices 6).filter (fun l => match (fileGet d.sup.lanes l default).state with
    | .scheduled => true
    | .spare => true
    | _ => false)

/-- A second lane to run the items of the ROM loop (R326): healthy, and not in TESTING. -/
def Dev.secondLane (d : Dev) (second : Option Nat) : Option Nat := if 2 ≤ d.workingLanes.length then second else none

/-- Errors, compensators, Junction and histories of one sample (R98 to R110), run on `lane`. clamp_hi and clamp_lo say at
which bound y is held; where the stop ceiling lies below umin that is umin alone (R110). -/
def Dev.junction (d : Dev) (g lane : Nat) (second : Option Nat) : Dev :=
  let n := d.itemInput g
  let o := n.run.lower (if n.rom then d.secondLane second else none)
  let sats := (o.props.map (fun p => p.2.2.2)).sum
  let shift := fun (p : Nat × Int × Int × Nat) (c : Channel) =>
    let wins := if p.1 = o.winner then (c.wins + 1) % 2 ^ 32 else c.wins
    { c with e3 := c.e2, e2 := c.e1, e1 := p.2.1, u := p.2.2.1, wins := wins }
  let put := fun (x : Group) (p : Nat × Int × Int × Nat) => x.modChan p.1 (shift p)
  let since := fun (holds : Bool) (old : Option Nat) => if holds then some (old.getD d.now) else none
  let keep := fun (v : GroupWatch) =>
    { v with satCount := (v.satCount + sats) % 2 ^ 32, nonVreg := since (o.winner != 0) v.nonVreg,
             vregSince := since (o.winner == 0) v.vregSince, limWho := if o.winner = 0 then v.limWho else o.winner,
             warnSince := since (o.winner != 0 || o.y == n.hi) v.warnSince }
  let record : ItemRecord := ⟨g, lane, n, n.run⟩
  let d1 := d.modGroup g (fun x =>
    let z := o.props.foldl put x
    { z with y3 := x.y2, y2 := x.y1, y1 := o.y, applied := o.applied, winner := o.winner,
             clampHi := o.y == n.hi, clampLo := o.y == n.lo, item := some record,
             watch := keep x.watch })
  let d2 := match o.props.find? (fun p => 0 < p.2.2.2) with
    | some p => d1.raiseLimited 0x0110 clsC g p.1 0
    | none => d1
  (d2.mustCheck lane (.sample record)).owe (.groupMoved g)

/-- The values of sample n become those of n - 1 and the new ones are taken, for the model (R131, R165). -/
def Dev.feedModel (d : Dev) (g : Nat) : Dev :=
  let x := d.group g
  let gv := signedOf 24 (ELE_MDL_GV.coef d g)
  let vl := sat40 (mulQ gv (mulQ x.model.d0 x.model.vin0) - x.model.vout0)
  let next := fun (m : GroupModel) =>
    { m with d1 := m.d0, vin1 := m.vin0, vout1 := m.vout0, d0 := x.applied * 16, vin0 := d.vin g,
             vout0 := d.vout g, vls := vl :: m.vls.take 7, ready := true }
  let take := fun (p : Nat) (m : PhaseModel) =>
    { m with i1 := m.i0, i0 := ((d.phaseConv g p).map d.quantity).getD 0 }
  let d1 := d.modGroup g (fun x => { x with model := next x.model })
  forAll (fun p d1 => d1.modLeg p (fun l => { l with model := take p l.model })) (d.phasesOf g) d1

/-- The following-error timer (R146): when it began, `none` at 0. It has been told once until it returns to 0. The ROM
loop forms no following error (R325). -/
def Dev.followError (d : Dev) (g : Nat) : Dev :=
  let x := d.group g
  if ELE_MDL_CFG.fe_mode d g = 0 ∨ x.rom then d.modWatch g (fun w => { w with feSince := none, feTold := false })
  else
    let e := (shiftRound (x.chan 0).r 8 - d.vout g).natAbs
    let exceeds := ELE_FE.fe_limit d g * 16 < e && !(ELE_FE.ss_blank d g == 1 && x.state == .softStart)
    d.modWatch g (fun w =>
      { w with feSince := if exceeds then some (w.feSince.getD d.now) else none, feTold := exceeds && w.feTold })

/-- The group enters RUN (Table 4-3, R119, R125, R190). -/
def Dev.enterRun (d : Dev) (g : Nat) : Dev :=
  let ks := (d.group g).watch.enables
  let d1 := d.modGroup g (fun x =>
    let y := x.modChan 0 (fun c => { c with s := if x.rom then c.s else x.ownStep })
    let w := { x.watch with runSince := d.now, shedSince := d.now, enables := [], automatic := false }
    { y with state := .run, floor := false, trim := 0, watch := w })
  ((d1.release (slotGroup g)).doneAll ks).owe (.groupMoved g)

/-- A GROUP_TARGET whose reference has arrived commits its second stage (R116). -/
def Dev.arriveTarget (d : Dev) (g : Nat) : Dev :=
  let x := d.group g
  match x.watch.targeting with
  | none => d
  | some k =>
    if (x.chan 0).r = (x.chan 0).t ∧ x.rom = false then
      let rs := ((d.cmd k).map (·.results)).getD []
      (d.modWatch g (fun w => { w with targeting := none })).commitAll k stDone rs
    else d

/-- Shed phases return (R189): all below pgood, else one above add_thr. -/
def Dev.shedReturns (d : Dev) (g : Nat) : Dev :=
  let shed := (d.phasesOf g).filter (fun p => (d.leg p).state == .shed && (d.leg p).next == .none)
  let a := (d.activePhases g).length
  let back := fun p (d : Dev) => d.modPhase g p (fun l => { l with next := .restore })
  if d.belowPgood g (d.vout g) then forAll back shed d
  else if (a * PTU_GRP_SHED.add_thr d g * 2 ^ 20 : Int) < d.icapQuantity g * (d.phaseCount g : Int) * 256 then
    match shed with
    | p :: _ => back p d
    | [] => d
  else d

/-- I / (a - 1) is at or above shed_thr, so the dwell of R188 starts again. -/
def Dev.shedWatch (d : Dev) (g : Nat) : Dev :=
  let a := (d.activePhases g).length
  let light := 2 ≤ a ∧ d.icapQuantity g * (d.phaseCount g : Int) * 256
      < ((a - 1 : Nat) * PTU_GRP_SHED.shed_thr d g * 2 ^ 20 : Int)
  if light then d else d.modWatch g (fun w => { w with shedSince := d.now })

/-- What the state of the group makes of a computed sample (Table 4-3, R188, R189, R194). -/
def Dev.afterSample (d : Dev) (g : Nat) : Dev :=
  let x := d.group g
  match x.state with
  | .softStart =>
    if (x.chan 0).r = (x.chan 0).t ∧ d.inPgood g (d.vout g) = true then d.enterRun g else d
  | .run => (d.shedReturns g).shedWatch g
  | .stopping =>
    if d.softStopped g then (if d.discharging g then d else d.softStopDone g) else d.shedReturns g
  | _ => d

/-- Healthy lanes: not retired, and not retired ones under test (R151, R152). -/
def Dev.healthyLanes (d : Dev) : List Nat :=
  (indices 6).filter (fun l =>
    let x := fileGet d.sup.lanes l default
    x.state != .retired && !(x.state == .testing && x.back == .retired))

/-- Scheduled lanes. -/
def Dev.scheduledLanes (d : Dev) : List Nat :=
  (indices 6).filter (fun l => (fileGet d.sup.lanes l default).state == .scheduled)

/-- The lane an item runs on (R152, R155, R326): the scheduled lane that was free, else the lowest scheduled one; in the
ROM loop the lowest-numbered healthy lane that is not in TESTING. None where every such lane is gone. -/
def Dev.itemLane (d : Dev) (g free : Nat) : Option Nat :=
  if (d.group g).rom then d.workingLanes.head?
  else if d.scheduledLanes.contains free then some free else d.scheduledLanes.head?

/-- Groups whose rate an escalation step can reduce (R166); one whose change waits for its boundary is not asked
again. -/
def Dev.rateCandidates (d : Dev) : List Nat :=
  (indices 16).filter (fun g => (d.group g).state == .run && !d.safetyCrit g && d.mayDouble g (d.group g).rate
    && !(d.group g).pend.any Pend.isRate)

/-- No further escalation step can be taken (Table 5-5, R166). -/
def Dev.escalationSpent (d : Dev) : Bool := d.sup.defer == 3 && d.rateCandidates.isEmpty

/-- An overrun (R163, R168): the sample is skipped, the references advance and the stop ceiling falls, the event is raised
with the group as its first word, which no rule names (DESIGN CHOICE, log entry 109). The count of R168 is of consecutive overruns made
while no escalation step was left. -/
def Dev.overrunAt (d : Dev) (g : Nat) : Dev :=
  let d0 := d.lowerStop g
  let stops := (d0.group g).state == .stopping && d0.softStopped g && !d0.discharging g
  let d1 := ((if stops then d0.softStopDone g else d0).advanceRefs g).arriveTarget g
  let w := (d.group g).watch
  let n := if d.escalationSpent then w.overrun + 1 else 0
  let d2 := d1.modWatch g (fun w => { w with skipped := (w.skipped + 1) % 2 ^ 32, overrun := n, itemRuns := true })
  let d3 := { d2 with sup := { d2.sup with overrunAt := some d.now } }.raiseLimited 0x011A clsC 22 g 0
  if n = 16 ∧ d.safetyCrit g = true ∧ d.il.slw = false then
    d3.report (det 0x15 g (0x10 + w.lastLane) accCompute (detAddr 0x03 g))
  else d3

/-- The sample item of a running group (R105), on the lane R155 or R326 gives it. -/
def Dev.runItem (d : Dev) (g free : Nat) (second : Option Nat) : Dev :=
  let x := d.group g
  if x.rom && d.healthyLanes.isEmpty then (d.groupFault g false).raise 0x0171 clsA 161 g 0
  else match d.itemLane g free with
  | none => d.overrunAt g
  | some lane =>
    let d1 := ((d.lowerStop g).advanceRefs g).arriveTarget g
    let d2 := ((d1.junction g lane second).feedModel g).followError g
    let d3 := (d2.modWatch g (fun w => { w with overrun := 0, lastLane := lane, itemRuns := false })).stored 0x01 g
    d3.afterSample g

/-- Converters of the group that have stopped are reported once while they stay stopped (R101). -/
def Dev.missingSamples (d : Dev) (g : Nat) : Dev :=
  let mine := (indices 48).filter (fun n => MA_CH_CFG.grp_en d n == 1 && MA_CH_CFG.grp d n == g)
  let gone := mine.filter (fun n => MA_CH_CFG.en d n == 0)
  if (d.group g).state.stopped then d.modWatch g (fun w => { w with missing := [] })
  else
    let told := (d.group g).watch.missing
    let d1 := d.modWatch g (fun w => { w with missing := gone })
    forAll (fun n d => d.report (det 0x05 g 0x42 accMeasure (detAddr 0x01 n)))
      (gone.filter (fun n => !told.contains n)) d1

/-- The pre-bias history takes a sample (R123). -/
def Dev.preSample (d : Dev) (g : Nat) : Dev :=
  if d.convRuns g 2 g && d.convRuns g 3 g then
    let res := fun (n : Option Nat) => (n.map (fun n => (d.sar n).result)).getD 0
    let s : PreSample := ⟨res (d.voutConv g), res (d.vinConv g),
      (d.phasesOf g).map (fun p => (p, res (d.phaseConv g p)))⟩
    d.modGroup g (fun x => { x with samples := (x.samples ++ [s]).drop (x.samples.length + 1 - 8) })
  else d.modGroup g (fun x => { x with samples := [] })

/-- Converter `n` gives a group its output or its input voltage. -/
def Dev.givesVoltage (d : Dev) (g n : Nat) : Bool := d.voutConv g == some n || d.vinConv g == some n

/-- The group samples anew before its next pre-bias capture: its output or input voltage converter, as assigned before
the write or by it, has stopped (R123). -/
def Dev.forgetSamples (d old : Dev) (n : Nat) : Dev :=
  forAll (fun g d => if old.givesVoltage g n || d.givesVoltage g n then d.modGroup g (fun x => { x with samples := [] })
      else d) (indices 16) d

/-- A discharging group ends its discharge below dis_level (R195). -/
def Dev.dischargeWatch (d : Dev) (g : Nat) : Dev :=
  if d.discharging g && decide (d.vout g < (PTU_GRP_DIS.dis_level d g * 16 : Nat)) then d.endDischarge g else d

/-- The group instant of a completed sample, placed by the group's line (R35, R65, R66). -/
def Dev.takeInstant (d : Dev) (g : Nat) (t : Int) : Dev :=
  let p := d.placeEdge (groupLine g) t
  (d.untilEdge t).modGroup g (fun x => { x with instant := some t, hold := p })

/-- What a completed sample does in the group's state. Reference channels advance with every sample of a group that is
not stopped, those of STARTING among them, until the capture sets r (R114, R123). -/
def Dev.sampleDone (d : Dev) (g free : Nat) (late : Bool) (second : Option Nat) : Dev :=
  let d1 := (d.missingSamples g).preSample g
  match (d1.group g).state with
  | .off | .faulted => d1.boundary g
  | .starting =>
    let d2 := d1.boundary g
    let x := d2.group g
    if x.state ≠ .starting then d2
    else
      let d3 := (d2.advanceRefs g).arriveTarget g
      if x.waiting = true ∧ 8 ≤ x.samples.length then d3.capture g else d3
  | _ =>
    if late then (d1.overrunAt g).dischargeWatch g
    else
      let d2 := d1.boundary g
      if (d2.group g).state.stopped then d2 else (d2.runItem g free second).dischargeWatch g

/-- GROUP_SAMPLE_COMPLETE: the sample of group `g`'s next instant completes, once every running converter of the group
has delivered (R65); its item runs, `free` being the lane that was free, or, when the previous item has not handed
over (`late`), is skipped (R105, R163). `second` is the demand of a ROM item's second lane where it differs (R326). -/
def groupSampleComplete (g : Fin 16) (free : Fin 6) (late : Bool) (second : Option (BitVec 16)) (d : Dev) : Dev :=
  if !d.coreRuns then d
  else match d.completeInstant g with
  | none => d
  | some t => (d.takeInstant g t).sampleDone g free late (second.map (·.toNat))

end Sys2Proof.Machine
end

