-- ==== Sys2Proof/Machine/GroupCmds.lean ====
section
/-! DEFINITION. The regulation commands (spec/04_loop_engine.md R107, R116 to R118, R121, R122, R126 to R129, R493;
spec/05 R144, R145; spec/06 R171, R173, R183, R190; spec/15 Table 15-3). -/
namespace Sys2Proof.Machine

/-- A result the manual does not state on these operands is a free value (log entry 6). -/
def Dev.orFree (d : Dev) (r : Option Nat) : Nat × Dev :=
  match r with
  | some v => (v, d)
  | none => (d.free.1 % 2 ^ 32, d.free.2)

/-- A physical value as a fraction of a full scale in units of 2^-k (R395). -/
def ofScale (v fs k : Nat) : Nat := roundDivN (v * 2 ^ k) fs

/-- A signed physical value (Table 0-2) as a fraction of a full scale in units of 2^-k (R395). -/
def ofScaleI (v : Int) (fs k : Nat) : Int := roundDiv (v * 2 ^ k) fs

/-- A target fits its channel's 48 bits. -/
def targetFits (t : Int) : Bool := sat48 t == t

/-! ### GROUP_TARGET -/

/-- The step of a rate in units per ms (R115). -/
def rateStep (rate period fs : Nat) : Nat :=
  if rate = 0 then 0 else max 1 (roundDivN (rate * period * 2 ^ 28) (40000 * fs))

/-- The realised rate in µ-units per ms. -/
def realisedRate (s period fs : Nat) : Nat := roundDivN (s * fs * 1000 * 40000) (2 ^ 28 * period)

/-- A target in Q20.28 lies within an image of ELE_GRP_VWIN. -/
def windowHolds (vwin : Nat) (t : Int) : Bool :=
  decide (((bitsOf vwin 0 16 * 4096 : Nat) : Int) ≤ t) && decide (t ≤ ((bitsOf vwin 16 16 * 4096 : Nat) : Int))

/-- The target lies within ELE_GRP_VWIN. -/
def Dev.inWindow (d : Dev) (g : Nat) (t : Int) : Bool := windowHolds (d.reg (ELE_GRP_VWIN.reg g)) t

/-- A step fits the 32 bits of its word (R395). -/
def stepFits (s : Nat) : Bool := decide (s < 2 ^ 32)

/-- The first stage of a GROUP_TARGET: a target in Q20.28 and a step, checked and put to the next boundary. The window is
the one that the writes before it leave (R442). -/
def Dev.targetStage (d : Dev) (k g : Nat) (t : Int) (s : Nat) : Dev :=
  if !windowHolds (d.waitingWord g (ELE_GRP_VWIN.reg g)) t || !stepFits s then d.finish k stBadParam []
  else
    let base := if (d.group g).state.stopped then s else s / 2 ^ (d.group g).rate.doubled
    let r := d.orFree ((d.voutFs g).map (fun fs => realisedRate s (d.livePeriod g) fs))
    r.2.atBoundary g (.target k t s base r.1)

/-- A resumed GROUP_TARGET past its first stage goes on while the group's reference has arrived at, or still slews to,
the target it named, under no other command (R385, R387). -/
def Dev.targetRejoin (d : Dev) (c : OpenCmd) : Option Dev :=
  let g := c.desc.idx
  let x := d.group g
  let named : Option (Int × Nat) :=
    if c.desc.expert then some (c.desc.int 20 8 * 256, c.desc.num 28 4)
    else (d.voutFs g).map (fun fs =>
      (ofScaleI (c.desc.int 20 4) fs 28, rateStep (c.desc.num 24 4) (d.livePeriod g) fs))
  match named with
  | none => none
  | some (t, s) =>
    if (x.chan 0).t ≠ t ∨ d.gone x.watch.targeting = false then none
    else
      let r := d.orFree ((d.voutFs g).map (fun fs => realisedRate s (d.livePeriod g) fs))
      if (x.chan 0).r = t ∧ x.rom = false then some (r.2.commitAll c.fetch stDone [r.1, s])
      else some ((r.2.keepResults c.fetch [r.1, s]).modWatch g (fun w => { w with targeting := some c.fetch }))

/-- The step of a Standard GROUP_TARGET, where its full scale is known. Its rate is an unsigned number (DESIGN CHOICE,
log entry 142). -/
def Dev.targetStep (d : Dev) (p : Desc) : Option Nat :=
  (d.voutFs p.idx).map (fun fs => rateStep (p.num 24 4) (d.livePeriod p.idx) fs)

/-- GROUP_TARGET (R116, R117). A rate whose step does not fit its word is out of range (R395). -/
def specGroupTarget : OpSpec where
  code := 0x11
  cls := clsGroup
  count := 16
  stdOk := true
  expOk := true
  total := fun _ _ => 2
  params := fun c d => if c.expert then sat40 (c.int 20 8) == c.int 20 8 else (d.targetStep c).all stepFits
  begin := fun c d =>
    let g := c.desc.idx
    if c.desc.expert then d.targetStage c.fetch g (c.desc.int 20 8 * 256) (c.desc.num 28 4)
    else match d.voutFs g with
      | none => d.finish c.fetch stRejected []
      | some fs =>
        d.targetStage c.fetch g (ofScaleI (c.desc.int 20 4) fs 28)
          (rateStep (c.desc.num 24 4) (d.livePeriod g) fs)
  resume := fun c d => d.targetRejoin c

/-! ### GROUP_LIMITS -/

/-- A parameter whose every bit is 1 leaves its target unchanged (R399). -/
def Desc.opt (c : Desc) (off len : Nat) : Option Nat :=
  if c.num off len = 2 ^ (8 * len) - 1 then none else some (c.num off len)

/-- A signed parameter (Table 0-2) whose every bit is 1 leaves its target unchanged (R399). -/
def Desc.optI (c : Desc) (off len : Nat) : Option Int :=
  if c.num off len = 2 ^ (8 * len) - 1 then none else some (c.int off len)

/-- A limit that is given needs its full scale (R493). -/
def needs {α : Type} (v : Option α) (fs : Option Nat) : Bool := v.isNone || fs.isSome

/-- Full scale of the PCAP quantity in µW (R99). -/
def Dev.pcapFs (d : Dev) (g : Nat) : Option Nat :=
  match d.voutFs g, d.icapFs g with
  | some v, some i => some (v * i)
  | _, _ => none

/-- A target from a physical limit, or the one it had. -/
def givenTarget (old : Int) (v : Option Int) (fs : Option Nat) : Int :=
  match v, fs with
  | some v, some fs => ofScaleI v fs 28
  | _, _ => old

/-- A field code from a physical value, or the one it had. -/
def givenCode (old : Nat) (v : Option Int) (fs : Option Nat) (k : Nat) : Int :=
  match v, fs with
  | some v, some fs => ofScaleI v fs k
  | _, _ => old

/-- What a GROUP_LIMITS writes: three register images and three targets in Q20.28. -/
structure LimitWords where
  dlim : Nat
  vwin : Nat
  slew : Nat
  t1   : Int
  t2   : Int
  t3   : Int
  deriving DecidableEq, Repr

/-- The window of a Standard GROUP_LIMITS is in range whatever its full scale: no bound below 0, none above the other. -/
def Desc.windowShape (p : Desc) : Bool :=
  let lo := p.optI 32 4
  let hi := p.optI 36 4
  lo.all (fun v => decide (0 ≤ v)) && hi.all (fun v => decide (0 ≤ v))
    && (match lo, hi with
      | some a, some b => decide (a ≤ b)
      | _, _ => true)

/-- What a GROUP_LIMITS gives (R126): none where a Standard code lies outside its field. What it does not give stays as
the writes before it leave it (R442). -/
def Dev.limitWords (d : Dev) (p : Desc) : Option LimitWords :=
  let g := p.idx
  if p.expert then
    some ⟨p.num 20 4, p.num 24 4, p.num 28 4, p.int 32 8 * 256, p.int 40 8 * 256, p.int 48 8 * 256⟩
  else
    let win := d.waitingWord g (ELE_GRP_VWIN.reg g)
    let pace := d.waitingWord g (ELE_GRP_SLEW.reg g)
    let vmin := givenCode (bitsOf win 0 16) (p.optI 32 4) (d.voutFs g) 16
    let vmax := givenCode (bitsOf win 16 16) (p.optI 36 4) (d.voutFs g) 16
    let slew := givenCode (bitsOf pace 16 16) ((p.opt 40 2).map (fun v => (v : Int))) (some 10000) 16
    let trim := givenCode (bitsOf pace 0 16) ((p.opt 42 2).map (fun v => (v : Int))) (d.voutFs g) 16
    if [vmin, vmax, slew, trim].any (fun v => v < 0 || 65535 < v) || !p.windowShape then none
    else some ⟨d.waitingWord g (ELE_GRP_DLIM.reg g), vmax.toNat * 65536 + vmin.toNat, slew.toNat * 65536 + trim.toNat,
      givenTarget (d.target g 1) (p.optI 20 4) (d.icapFs g),
      givenTarget (d.target g 2) ((p.opt 24 4).map (fun v => ((v * 1000000 : Nat) : Int))) (d.pcapFs g),
      givenTarget (d.target g 3) (p.optI 28 4) (d.auxFs g)⟩

/-- The parameters of a GROUP_LIMITS are in range (R5): images and targets fit, and no lower bound lies above its upper
one (Tables 4-8 and 4-9). -/
def Dev.limitsFit (d : Dev) (p : Desc) : Bool :=
  match d.limitWords p with
  | none => false
  | some w =>
    imageOk (ELE_GRP_DLIM.reg p.idx) w.dlim && imageOk (ELE_GRP_VWIN.reg p.idx) w.vwin
    && imageOk (ELE_GRP_SLEW.reg p.idx) w.slew
    && bitsOf w.dlim 0 16 ≤ bitsOf w.dlim 16 16 && bitsOf w.vwin 0 16 ≤ bitsOf w.vwin 16 16
    && targetFits w.t1 && targetFits w.t2 && targetFits w.t3

/-- Registers of a GROUP_LIMITS whose earlier BAR0 writes still wait for the boundary: the command is the later one, and its
images hold what they wrote where it gives nothing else (R120, R442). -/
def Dev.dropWrites (d : Dev) (g : Nat) (offs : List Nat) : Dev :=
  d.modGroup g (fun x => { x with pend := x.pend.filter (fun p => match p with
    | .write off _ => !offs.contains off
    | _ => true) })

/-- Registers and targets of a GROUP_LIMITS take effect (R112, R118): one stage, its result the ICAP target. An Expert
AUX target stands, also with aux_src 0, until the Battery Shelf Manager's next update (R493). -/
def Dev.limitsStage (d : Dev) (k g : Nat) (w : LimitWords) (expert : Bool) : Dev :=
  let t0 := d.target g 0
  if t0 < (bitsOf w.vwin 0 16 * 4096 : Nat) ∨ ((bitsOf w.vwin 16 16 * 4096 : Nat) : Int) < t0 then d.finish k stBadParam []
  else
    let regs := [(ELE_GRP_DLIM.reg g, w.dlim), (ELE_GRP_VWIN.reg g, w.vwin), (ELE_GRP_SLEW.reg g, w.slew)]
    let d1 := (d.dropWrites g (regs.map (·.1))).setRegs regs
    let d2 := (((d1.setTarget g 1 w.t1).setTarget g 2 w.t2).setTarget g 3 w.t3).refreshLimits g
    let d3 := if expert then d2.modGroup g (fun x => x.limit 3 w.t3) else d2
    let r := d3.orFree ((d3.icapFs g).map (fun fs => unsignedOf 32 (roundDiv (d3.icapTarget g * (fs : Nat)) (2 ^ 28))))
    r.2.commitAll k stDone [r.1]

/-- The full scales a Standard GROUP_LIMITS needs are there (R493). -/
def Dev.limitsReady (d : Dev) (p : Desc) : Bool :=
  let g := p.idx
  let ax := p.optI 28 4
  needs (p.optI 20 4) (d.icapFs g) && needs (p.opt 24 4) (d.pcapFs g) && needs ax (d.auxFs g)
  && needs (p.optI 32 4) (d.voutFs g) && needs (p.optI 36 4) (d.voutFs g) && needs (p.opt 42 2) (d.voutFs g)
  && (ax.isNone || ELE_GRP_CFG.aux_src d g != 0)

/-- GROUP_LIMITS (R118, R493). -/
def specGroupLimits : OpSpec where
  code := 0x12
  cls := clsGroup
  count := 16
  stdOk := true
  expOk := true
  total := fun _ _ => 1
  params := fun c d => d.limitsFit c
  begin := fun c d =>
    if !c.desc.expert && !d.limitsReady c.desc then d.finish c.fetch stRejected []
    else match d.limitsFit c.desc, d.limitWords c.desc with
      | true, some w => d.limitsStage c.fetch c.desc.idx w c.desc.expert
      | _, _ => d.finish c.fetch stBadParam []

/-! ### GROUP_ENABLE -/

/-- GROUP_ENABLE on joins a start in progress (R121): stages whose condition holds commit at once. -/
def Dev.joinStart (d : Dev) (k g : Nat) : Dev :=
  let d1 := d.modWatch g (fun w => { w with enables := w.enables ++ [k] })
  if (d.group g).state = .softStart then d1.commit k 2
  else if (d.slot (slotGroup g)).state = .holding then d1.commit k 1
  else d1

/-- A group that Single-Line Working sheds and holds (R327). -/
def Dev.slwHoldsGroup (d : Dev) (g : Nat) : Bool := d.il.slw && !d.safetyCrit g

/-- GROUP_ENABLE on (Table 4-3, R150); a driven stop line, or Single-Line Working, holds it off (R17, R18). -/
def Dev.enableOn (d : Dev) (k g : Nat) : Dev :=
  match (d.group g).state with
  | .run => d.commitAll k stDone []
  | .starting | .softStart => d.joinStart k g
  | .stopping => d.finish k stRejected []
  | .off | .faulted =>
    if d.il.stopAll || d.slwHoldsGroup g || !d.canStart g || d.slotBusy (slotGroup g) then d.finish k stRejected []
    else if (d.group g).watch.restartAt.isSome then
      (d.modWatch g (fun w => { w with hiccups := 0 })).enterStarting g (some k) false false
    else d.enterStarting g (some k) true false

/-- GROUP_ENABLE off (Table 4-3, R122, R150). -/
def Dev.enableOff (d : Dev) (k g : Nat) : Dev :=
  let d0 := d.modWatch g (fun w => { w with hiccups := 0, restartAt := none })
  match (d.group g).state with
  | .off => d0.commitAll k stDone []
  | .faulted => ((d0.modGroup g (fun x => { x with state := .off })).owe (.groupMoved g)).commitAll k stDone []
  | .starting =>
    let ks := (d0.group g).watch.enables
    ((((d0.modGroup g (fun x => x.rest .off)).release (slotGroup g)).finishAll ks stSuperseded).owe
      (.groupMoved g)).commitAll k stDone []
  | .softStart | .run => d0.enterStopping g k
  | .stopping => (d0.modWatch g (fun w => { w with disables := w.disables ++ [k] })).commit k 1

/-- GROUP_ENABLE (R121, R122). -/
def specGroupEnable : OpSpec where
  code := 0x13
  cls := clsGroup
  count := 16
  stdOk := true
  expOk := false
  total := fun c _ => if c.byte 20 = 1 then 3 else 2
  inSlw := fun c => c.byte 20 == 0
  preempt := fun c => c.byte 20 == 0
  params := fun c _ => c.byte 20 ≤ 1
  begin := fun c d =>
    if c.desc.byte 20 = 1 then d.enableOn c.fetch c.desc.idx else d.enableOff c.fetch c.desc.idx
  resume := fun c d =>
    let g := c.desc.idx
    match (d.group g).state, c.desc.byte 20 with
    | .run, 1 => some (d.commitAll c.fetch stDone [])
    | .starting, 1 => if c.done = 1 then some (d.joinStart c.fetch g) else none
    | .softStart, 1 => some (d.joinStart c.fetch g)
    | .stopping, 0 => some (d.modWatch g (fun w => { w with disables := w.disables ++ [c.fetch] }))
    | .off, 0 => some (d.commitAll c.fetch stDone [])
    | _, _ => none

/-! ### COEFF_LOAD and MODEL_LOAD -/

/-- COEFF_LOAD (R126 to R129). -/
def specCoeffLoad : OpSpec where
  code := 0x14
  cls := clsGroup
  count := 16
  stdOk := true
  expOk := true
  total := fun _ _ => 1
  params := fun c _ =>
    c.byte 20 ≤ 3 && (c.expert || ((c.byte 21 == 2 || c.byte 21 == 3) && 12 ≤ c.length.toNat))
  begin := fun c d =>
    let g := c.desc.idx
    let i := c.desc.byte 20
    let p := c.desc
    if p.expert then
      d.atBoundary g (.coeffs c.fetch i ((indices 7).map (fun j => signedOf 24 (p.num (24 + 4 * j) 4))) none)
    else
      let third := p.byte 21 == 3
      let x : Design := ⟨third, p.num 24 4, p.num 28 4, p.num 32 4, p.num 36 4, p.num 40 4⟩
      let t := d.livePeriod g
      if bitOf (ELE_GRP_CTRL.order d g) i ≠ third ∨ x.fits t = false then d.finish c.fetch stBadParam []
      else match x.codes t with
        | none => d.finish c.fetch stBadParam []
        | some cs =>
          let a := [4, 5, 6].flatMap (fun j => leBytes (unsignedOf 24 (cs.getD j 0)) 4)
          (d.toBuffer p a).atBoundary g (.coeffs c.fetch i cs (some x))

/-- The registers of a group's model in the order of MODEL_LOAD's Expert images. -/
def modelRegs (g : Nat) : List Nat :=
  [ELE_MDL_CFG.reg g, ELE_MDL_KL.reg g, ELE_MDL_KR.reg g, ELE_MDL_KC.reg g, ELE_MDL_GV.reg g, ELE_MDL_BAND.reg g,
   ELE_MDL_SAT.reg g, ELE_FE.reg g]

/-- The parameters of a Standard MODEL_LOAD that no full scale enters are in range. -/
def Desc.modelShape (p : Desc) : Bool :=
  p.num 20 4 != 0 && p.num 28 4 != 0 && p.byte 50 != 0 && 1 ≤ p.num 54 2 && p.num 54 2 ≤ 32767
  && roundDivN (p.num 48 2 * 64) 1000 ≤ 63

/-- No magnitude of a Standard MODEL_LOAD lies below 0, and kR, into which no full scale enters, fits its code. -/
def Dev.modelPlain (d : Dev) (p : Desc) : Bool :=
  [32, 36, 40, 44, 56].all (fun o => decide (0 ≤ p.int o 4))
  && decide (roundDivN (25 * MA_GRP_SAMP.period d p.idx * p.num 24 4 * 2 ^ 20) (p.num 20 4 * 1000000) < 2 ^ 23)

/-- The images of a Standard MODEL_LOAD (Table 5-2); `none` where a code lies outside its range. -/
def modelImages (d : Dev) (g : Nat) (p : Desc) (vfs ifs vin : Nat) : Option (List (Nat × Nat)) :=
  let t := 25 * MA_GRP_SAMP.period d g
  let l := p.num 20 4
  let cap := p.num 28 4
  if l = 0 ∨ cap = 0 then none
  else
    let kl := roundDivN (t * vfs * 2 ^ 20) (l * ifs)
    let kr := roundDivN (t * p.num 24 4 * 2 ^ 20) (l * 1000000)
    let kc := roundDivN (t * ifs * 2 ^ 20) (cap * vfs * 1000)
    let gv := roundDivN (ELE_GRP_RATIO.gdc d g * vin) vfs
    let neg := [32, 36, 40, 44, 56].any (fun o => p.int o 4 < 0)
    let openL := ofScale (p.num 32 4) ifs 16
    let knee := ofScale (p.num 36 4) ifs 16
    let babs := ofScale (p.num 40 4) ifs 10
    let bv := ofScale (p.num 44 4) vfs 12
    let brel := roundDivN (p.num 48 2 * 64) 1000
    let persist := p.byte 50
    let fel := ofScale (p.num 56 4) vfs 16
    let fet := p.num 54 2
    let cfg := place 31 1 (p.byte 52) + place 30 1 (p.byte 52 / 2) + place 27 3 (p.byte 51) + place 24 3 (p.byte 51 / 16)
      + place 16 8 persist
    if [kl, kr, kc, gv].any (fun v => 2 ^ 23 ≤ v) || [openL, knee, fel].any (fun v => 65535 < v) || 1023 < babs
        || 1023 < bv || 63 < brel || persist == 0 || fet == 0 || 32767 < fet || neg then none
    else some [(ELE_MDL_CFG.reg g, cfg), (ELE_MDL_KL.reg g, kl), (ELE_MDL_KR.reg g, kr), (ELE_MDL_KC.reg g, kc),
      (ELE_MDL_GV.reg g, gv), (ELE_MDL_BAND.reg g, place 22 10 babs + place 16 6 brel + place 6 10 bv),
      (ELE_MDL_SAT.reg g, place 16 16 knee + place 0 16 openL),
      (ELE_FE.reg g, place 16 16 fel + place 15 1 (p.byte 52 / 4) + place 0 15 fet)]

/-- A model image changes model_en, fe_mode, obs or ld. -/
def Dev.changesMode (d : Dev) (g cfg : Nat) : Bool := bitsOf cfg 24 8 != d.field (ELE_MDL_CFG.reg g) 24 8

/-- The stage of a MODEL_LOAD. -/
def Dev.modelStage (d : Dev) (k g : Nat) (ims : List (Nat × Nat)) : Dev :=
  if !(d.group g).state.stopped && d.changesMode g ((ims.headD (0, 0)).2) then d.finish k stRejected []
  else d.atBoundary g (.model k ims)

/-- MODEL_LOAD (R145, R493). -/
def specModelLoad : OpSpec where
  code := 0x15
  cls := clsGroup
  count := 16
  stdOk := true
  expOk := true
  total := fun _ _ => 1
  params := fun c d =>
    if c.expert then (indices 8).all (fun j => imageOk ((modelRegs c.idx).getD j 0) (c.num (20 + 4 * j) 4))
    else c.modelShape && d.modelPlain c && (match d.voutFs c.idx, d.phaseFs c.idx, (d.vinConv c.idx).map d.fsOf with
      | some vfs, some ifs, some vin => (modelImages d c.idx c vfs ifs vin).isSome
      | _, _, _ => true)
  begin := fun c d =>
    let g := c.desc.idx
    if c.desc.expert then
      d.modelStage c.fetch g ((indices 8).map (fun j =>
        let off := (modelRegs g).getD j 0
        (off, imageMerge off 0 (c.desc.num (20 + 4 * j) 4))))
    else match d.voutFs g, d.phaseFs g, (d.vinConv g).map d.fsOf with
      | some vfs, some ifs, some vin =>
        match modelImages d g c.desc vfs ifs vin with
        | some ims => d.modelStage c.fetch g ims
        | none => d.finish c.fetch stBadParam []
      | _, _, _ => d.finish c.fetch stRejected []

/-! ### SHED_POLICY -/

/-- PTU_GRP_SHED is written from an image. -/
def Dev.writeShed (d : Dev) (g v : Nat) : Dev :=
  (d.setImage (PTU_GRP_SHED.reg g) v).shedWritten g (PTU_GRP_SHED.shed_thr d g)

/-- The parameters of a Standard SHED_POLICY are in range whatever its full scale (R190, Table 6-6). -/
def Desc.shedShape (p : Desc) : Bool :=
  decide (p.byte 20 ≤ 1) && decide (1 ≤ p.byte 21) && decide (p.byte 21 ≤ 24) && p.byte 22 != 0
  && decide (0 ≤ p.int 24 4) && decide (p.int 24 4 < p.int 28 4)

/-- The image a SHED_POLICY gives (R190): at the Standard level none where a threshold lies outside its field. The
per-phase full scale is the fraction of the ICAP full scale over m. -/
def Dev.shedImage (d : Dev) (p : Desc) : Option Nat :=
  if p.expert then some (p.num 20 4)
  else
    let fs := (d.icapFs p.idx).getD 0
    let code := fun (off : Nat) => (p.int off 4 * 256 * (d.phaseCount p.idx : Int)) / (fs : Int)
    if !p.shedShape ∨ 255 < code 24 ∨ 255 < code 28 then none
    else some (place 31 1 (p.byte 20) + place 26 5 (p.byte 21) + place 18 8 (code 28).toNat
      + place 10 8 (code 24).toNat + place 2 8 (p.byte 22))

/-- The full scale a Standard SHED_POLICY needs is there. -/
def Dev.shedScaled (d : Dev) (p : Desc) : Bool := p.expert || ((d.icapFs p.idx).getD 0 != 0 && d.phaseCount p.idx != 0)

/-- The parameters of a SHED_POLICY are in range (R5, R190): the image holds allowed values and shed_thr lies below
add_thr. Without its full scale a Standard one has no codes to judge. -/
def Dev.shedFits (d : Dev) (p : Desc) : Bool :=
  if !d.shedScaled p then p.shedShape
  else match d.shedImage p with
    | none => false
    | some v => imageOk (PTU_GRP_SHED.reg p.idx) v && bitsOf v 10 8 < bitsOf v 18 8

/-- A threshold code in mA, on an ICAP full scale (R190). -/
def Dev.shedValue (d : Dev) (g code fs : Nat) : Nat := roundDivN (code * fs) (256 * d.phaseCount g)

/-- The stage of a SHED_POLICY, with the thresholds realised in mA (R190). -/
def Dev.shedStage (d : Dev) (k g v : Nat) : Dev :=
  let d1 := d.writeShed g v
  let r := d1.orFree ((d1.icapFs g).map (d1.shedValue g (bitsOf v 10 8)))
  let q := r.2.orFree ((d1.icapFs g).map (d1.shedValue g (bitsOf v 18 8)))
  q.2.commitAll k stDone [r.1, q.1]

/-- SHED_POLICY (R190). -/
def specShedPolicy : OpSpec where
  code := 0x19
  cls := clsGroup
  count := 16
  stdOk := true
  expOk := true
  total := fun _ _ => 1
  params := fun c d => d.shedFits c
  begin := fun c d =>
    if !d.shedScaled c.desc then d.finish c.fetch stRejected []
    else match d.shedFits c.desc, d.shedImage c.desc with
      | true, some v => d.shedStage c.fetch c.desc.idx v
      | _, _ => d.finish c.fetch stBadParam []

/-! ### LEG_CONFIGURE -/

/-- Leg `k` is the upper leg of a pair. -/
def Dev.upperLeg (d : Dev) (k : Nat) : Bool := d.phaseOfLeg k != k

/-- The configured switching period of a group (R171), from its registers. -/
def Dev.configuredPeriod (d : Dev) (g : Nat) : Nat :=
  MA_GRP_SAMP.period d g * 400 * PTU_GRP_TIM.spp d g / PTU_GRP_TIM.pps d g

/-- An offset is below its group's P (Table 6-11). -/
def Dev.offsetOk (d : Dev) (k ofs : Nat) : Bool :=
  match d.groupOfLeg k with
  | some g => ofs < d.configuredPeriod g
  | none => true

/-- The images a LEG_CONFIGURE configure gives: PTU_LEG_CFG, PTU_LEG_DT and PTU_LEG_OFS; none where a Standard code lies
outside its field (Table 15-3). -/
def Dev.legImages (d : Dev) (p : Desc) : Option (Nat × Nat × Nat) :=
  if p.expert then some (p.num 24 4, p.num 28 4, p.num 32 4)
  else
    let a := roundDivN (p.num 24 2) 5
    let b := roundDivN (p.num 26 2) 5
    let m := roundDivN (p.num 28 2) 5
    if 254 < a ∨ 254 < b ∨ 255 < m then none
    else some (place 31 1 (p.byte 21) + place 30 1 (p.byte 21 / 2) + place 29 1 (p.byte 21 / 4)
      + place 16 8 (p.byte 22) + place 8 8 m + place 0 8 (p.byte 23), place 8 8 a + place 0 8 b, PTU_LEG_OFS.ofs d p.idx)

/-- The parameters of a LEG_CONFIGURE configure are in range (R5, R173). -/
def Dev.legFits (d : Dev) (p : Desc) : Bool :=
  match d.legImages p with
  | none => false
  | some (cfg, dt, ofs) =>
    imageOk (PTU_LEG_CFG.reg p.idx) cfg && imageOk (PTU_LEG_DT.reg p.idx) dt && d.offsetOk p.idx (bitsOf ofs 0 20)

/-- The images of a leg's configuration take effect, and the realised dead times are returned. -/
def Dev.legStage (d : Dev) (f k cfg dt ofs : Nat) : Dev :=
  let moved := bitsOf cfg 30 2 ≠ bitsOf (d.reg (PTU_LEG_CFG.reg k)) 30 2 ∨ bitsOf ofs 0 20 ≠ PTU_LEG_OFS.ofs d k
  let still := (d.leg k).state = .idle ∨ (d.leg k).state = .parked
  if moved ∧ ¬ still then d.finish f stRejected []
  else
    let d1 := d.setImages [(PTU_LEG_CFG.reg k, cfg), (PTU_LEG_DT.reg k, dt), (PTU_LEG_OFS.reg k, ofs)]
    d1.commitAll f stDone [PTU_LEG_DT.dt_a d1 k * 5000, PTU_LEG_DT.dt_b d1 k * 5000]

/-- LEG_CONFIGURE configure (Table 15-3). -/
def Dev.legConfigure (d : Dev) (c : OpenCmd) : Dev :=
  match d.legFits c.desc, d.legImages c.desc with
  | true, some (cfg, dt, ofs) => d.legStage c.fetch c.desc.idx cfg dt ofs
  | _, _ => d.finish c.fetch stBadParam []

/-- A phase is parked: safe levels, its weight and the offsets change, and the token of a joining one returns (Table 6-3,
R182, R185, R186, R304). Causes as PTU_LEG_STATUS.park_cause. -/
def Dev.parkPhase (d : Dev) (g p cause : Nat) : Dev :=
  let d1 := (d.leaveJoining p).modPhase g p (fun l =>
    { l with state := .parked, parkCause := cause, next := .none, edges := default, unweighed := false })
  (((d1.raise 0x0120 clsC (32 + p) cause 0).refreshLimits g).retarget g)

/-- LEG_CONFIGURE park (R183, Table 6-3): at once in IDLE, else at the next period start, which several parks may wait
for. -/
def Dev.legPark (d : Dev) (f k : Nat) : Dev :=
  match d.groupOfLeg k with
  | none => d.finish f stRejected []
  | some g =>
    if d.upperLeg k then d.finish f stRejected []
    else match (d.leg k).state with
      | .parked => d.commitAll f stDone []
      | .idle => (d.parkPhase g k 1).commitAll f stDone []
      | _ =>
        let un := (d.leg k).unpark
        (d.modPhase g k (fun l => { l with next := .park ((d.leg k).parks ++ [f]), unpark := none })).finishOpt un
          stSuperseded []

/-- The stages of an unpark (R183). -/
def Dev.unparkStages (d : Dev) (k : Nat) : Nat :=
  match d.groupOfLeg k with
  | some g => if (d.group g).state = .run then 3 else 1
  | none => 1

/-- LEG_CONFIGURE unpark (R183, Table 6-3, Table 11-2). -/
def Dev.legUnpark (d : Dev) (c : OpenCmd) : Dev :=
  let k := c.desc.idx
  match d.groupOfLeg k with
  | none => d.finish c.fetch stRejected []
  | some g =>
    if d.upperLeg k || (d.leg k).state != .parked || (d.leg k).health == .legOpen then
      d.finish c.fetch stRejected []
    else match (d.group g).state with
      | .off | .faulted =>
        let d1 := d.modPhase g k (fun l => { l with state := .idle, parkCause := 0 })
        (d1.refreshLimits g).commitAll c.fetch stDone []
      | .run =>
        let left := ((d.leg k).unpark.bind d.cmd).isNone
        if c.resumed && left && d.slotBusy (slotLeg k) then d.modLeg k (fun l => { l with unpark := some c.fetch })
        else if d.slotBusy (slotLeg k) || (d.leg k).unpark.isSome then d.finish c.fetch stRejected []
        else
          let ms := if c.desc.byte 21 = 0 then PTU_GRP_STOP.join_time d g else c.desc.byte 21
          let d1 := d.modLeg k (fun l => { l with unpark := some c.fetch, joinMs := ms })
          d1.request (slotLeg k) {
            rank := d.groupRank g (some c.desc.ring.val), surge := roundDivN (d.icapLimit g) (d.phaseCount g),
            span := ms * ticksPerMs, tagged := true }
      | _ => d.finish c.fetch stRejected []

/-- Leave for an unpark is granted (R183). The phase regains its weight at the next sample boundary (R182). -/
def Dev.legGranted (d : Dev) (k : Nat) : Dev :=
  match (d.leg k).unpark, d.groupOfLeg k with
  | some f, some g =>
    let d1 := d.commit f 1
    let legs := d.legsOfPhase g k
    if legs.any (fun j => d.colHeld (colLeg j)) then
      ((d1.modLeg k (fun l => { l with unpark := none })).release (slotLeg k)).finish f stRejected []
    else
      let d2 := forAll (fun j d => d.clearLatch (colLeg j)) legs d1
      let d3 := d2.modPhase g k (fun l =>
        { l with state := .joining, parkCause := 0, next := .begin, joinBegun := false, unweighed := true,
                 joinMs := (d.leg k).joinMs })
      (d3.refreshLimits g).retarget g
  | _, _ => d.release (slotLeg k)

/-- Leave for an unpark is given up. -/
def Dev.legGaveUp (d : Dev) (k : Nat) : Dev :=
  let f := (d.leg k).unpark
  (d.modLeg k (fun l => { l with unpark := none })).finishOpt f stTokenTimeout []

/-- The health LEG_OPEN or SENSE_SUBSTITUTED of a phase is cleared and its row masks restored (R144). -/
def Dev.clearHealth (d : Dev) (g p : Nat) : Dev :=
  let h := (d.leg p).health
  if h = .legOpen ∨ h = .substituted then
    let rows := (d.leg p).cutRows
    let cols := (d.leg p).cutCols
    let d1 := d.modPhase g p (fun l => { l with health := .good, cutRows := [], cutCols := 0 })
    let d2 := forAll (fun r d => { d with trip := d.trip.restoreCols r cols }) rows d1
    (forAll (fun r d => d.driveRow r (d.rowSilent r)) rows d2).refreshLimits g
  else d

/-- LEG_CONFIGURE clear (R144, R183). A leg of no group has no phase to clear, and the command is done (DESIGN CHOICE, log
entry 144). -/
def Dev.legClear (d : Dev) (f k : Nat) : Dev :=
  match d.groupOfLeg k with
  | none => d.commitAll f stDone []
  | some g =>
    if d.upperLeg k || !(d.group g).state.stopped then d.finish f stRejected []
    else (d.clearHealth g k).commitAll f stDone []

/-- LEG_CONFIGURE (R183). -/
def specLegConfigure : OpSpec where
  code := 0x18
  cls := clsLeg
  count := 24
  stdOk := true
  expOk := true
  total := fun c d => if c.byte 20 = 2 then d.unparkStages c.idx else 1
  inSlw := fun c => c.byte 20 == 1
  preempt := fun c => c.byte 20 == 1
  params := fun c d => c.byte 20 ≤ 3 && (c.byte 20 != 0 || d.legFits c)
  begin := fun c d =>
    if c.desc.byte 20 = 0 then d.legConfigure c
    else if c.desc.byte 20 = 1 then d.legPark c.fetch c.desc.idx
    else if c.desc.byte 20 = 2 then d.legUnpark c
    else d.legClear c.fetch c.desc.idx
  resume := fun c d =>
    let k := c.desc.idx
    if c.desc.byte 20 ≠ 2 then none
    else match (d.leg k).state with
      | .joining => some (d.modLeg k (fun l => { l with unpark := some c.fetch }))
      | .switching => some (d.commitAll c.fetch stDone [])
      | _ => none

/-! ### GROUP_CONFIGURE -/

/-- The instants of the other configured groups as edge codes in a period of `len` codes, each with the places
its own period repeats it at: instants of two periods meet modulo the greatest divisor the periods share. -/
def Dev.otherPhases (d : Dev) (g len : Nat) : List Nat :=
  ((indices 16).filter (fun h => h != g && ELE_GRP_LEGS.legs d h != 0)).flatMap (fun h =>
    let shared := Nat.gcd len (MA_GRP_SAMP.period d h * 400)
    (List.range (len / shared)).map (fun k => MA_GRP_SAMP.phase d h % shared + k * shared))

/-- Insert into an ascending list. -/
def insertNat (x : Nat) : List Nat → List Nat
  | [] => [x]
  | y :: ys => if x ≤ y then x :: y :: ys else y :: insertNat x ys

/-- The widest gap on a circle of `len` between sorted points: (start, width), the first such gap. -/
def widestGap (len first : Nat) : List Nat → Nat × Nat
  | [] => (0, len)
  | [x] => (x, first + len - x)
  | x :: y :: rest =>
    let r := widestGap len first (y :: rest)
    if r.2 ≤ y - x then (x, y - x) else r

/-- Where the widest gap the other groups' instants leave has its middle, 0 for the first group (DESIGN CHOICE, log
entry 10: the manual states the aim, not the search). -/
def Dev.placeInstant (d : Dev) (g period : Nat) : Nat :=
  let len := period * 400
  let ps := (d.otherPhases g len).foldr insertNat []
  match ps with
  | [] => 0
  | p :: _ =>
    let gap := widestGap len p ps
    if len = 0 then 0 else (gap.1 + gap.2 / 2) % len

/-- The other configured groups that share a sample period. -/
def Dev.sharers (d : Dev) (g period : Nat) : List Nat :=
  (indices 16).filter (fun h => h != g && ELE_GRP_LEGS.legs d h != 0 && MA_GRP_SAMP.period d h == period)

/-- The even spread of group `g` and those that share its period (R107): the first slot is the present instant of the
lowest-numbered of the others that run, or of the lowest-numbered where none runs. A running group keeps its instant,
which has to be a slot; the stopped ones take the free slots in the order of their numbers. None where the running
ones do not stand on slots of their own. -/
def Dev.evenSpread (d : Dev) (g period : Nat) : Option (List (Nat × Nat)) :=
  let len := period * 400
  let hs := d.sharers g period
  let runs := hs.filter (fun h => !(d.group h).state.stopped)
  let taken := runs.map (fun h => MA_GRP_SAMP.phase d h)
  (runs.head?.or hs.head?).bind (fun h =>
    let n := hs.length + 1
    let slots := (indices n).map (fun j => (MA_GRP_SAMP.phase d h + j * len / n) % len)
    if taken.all slots.contains && taken.eraseDups.length == taken.length then
      some (List.zip (insertNat g (hs.filter (fun h => (d.group h).state.stopped)))
        (slots.filter (fun s => !taken.contains s)))
    else none)

/-- The instants a GROUP_CONFIGURE of group `g` sets, by group (R107): the even spread of those that share its period,
or, where none does or running ones leave no even spread, the middle of the widest gap for `g` alone (log entry 10). -/
def Dev.spreadInstants (d : Dev) (g period : Nat) : List (Nat × Nat) :=
  (d.evenSpread g period).getD [(g, d.placeInstant g period)]

/-- spp and pps of a switching frequency (Table 15-3). -/
def splitRate (period fsw : Nat) : Option (Nat × Nat) :=
  let x := fsw * period
  if x = 0 then none
  else if 40000000 ≤ x then
    if x % 40000000 = 0 ∧ x / 40000000 ≤ 64 then some (1, x / 40000000) else none
  else if 40000000 % x = 0 ∧ 40000000 / x ≤ 16 then some (40000000 / x, 1) else none

/-- P under R171 is a whole number from 8,000 to 800,000, and at most one of spp and pps exceeds 1. -/
def periodOk (period spp pps : Nat) : Bool :=
  1 ≤ spp && 1 ≤ pps && (spp == 1 || pps == 1) && (period * 400 * spp) % pps == 0
  && 8000 ≤ period * 400 * spp / pps && period * 400 * spp / pps ≤ 800000

/-- ELE_GRP_LEGS may hold a mask: no leg of another group, no single leg of a pair (R97). -/
def Dev.legMaskOk (d : Dev) (g act mask : Nat) : Bool :=
  (indices 16).all (fun h => h == g || Nat.land (ELE_GRP_LEGS.legs d h) mask == 0)
  && (act == 0 || (indices 12).all (fun j => bitOf mask (2 * j) == bitOf mask (2 * j + 1)))

/-- Oversampling count of a converter (R63). -/
def Dev.osOf (d : Dev) (n : Nat) : Nat := 2 ^ MA_CH_CFG.os d n

/-- A converter keeps R63 and the skew limit of Table 3-4 at a group period. -/
def Dev.convFits (d : Dev) (period n : Nat) : Bool :=
  8 * d.osOf n ≤ period && (signedOf 20 (MA_CH_SKEW.skew d n)).natAbs * 2 ≤ period * 400

/-- Assign a converter to a group with a role. -/
def Dev.assign (d : Dev) (n g role idx : Nat) : Dev :=
  let v := d.reg (MA_CH_CFG.reg n)
  d.setReg (MA_CH_CFG.reg n) (putBits (putBits (putBits (putBit v 23 true) 24 4 g) 20 3 role) 15 5 idx)

/-- Phase converters GROUP_CONFIGURE names: (phase, converter). -/
def Desc.phaseConvs (c : Desc) (phases : List Nat) : List (Nat × Nat) :=
  (phases.map (fun p => (p, leAt c.data p 1))).filter (fun x => x.2 != 0xFF)

/-- Offsets of the phases under R173. -/
def Dev.placeOffsets (d : Dev) (g phase p : Nat) : Dev :=
  let ps := d.phasesOf g
  forAll (fun j d => d.setReg (PTU_LEG_OFS.reg (ps.getD j 0)) ((phase + 6400 + j * p / ps.length) % p))
    (indices ps.length) d

/-- The phases of a Standard GROUP_CONFIGURE: its legs, and of pairs the lower ones. -/
def Desc.groupPhases (p : Desc) : List Nat :=
  (bitsIn 24 (p.num 20 3)).filter (fun k => bitsOf (p.byte 23) 0 2 == 0 || k % 2 == 0)

/-- Its phase converters: (phase, converter). -/
def Desc.groupConvs (p : Desc) : List (Nat × Nat) :=
  if 24 ≤ p.length.toNat then p.phaseConvs p.groupPhases else []

/-- Its gdc, start-up step and discharge threshold as codes (Table 15-3). -/
def Desc.groupGdc (p : Desc) : Nat := roundDivN (p.num 32 4 * 2 ^ 20) 1000000
def Dev.groupSs (d : Dev) (p : Desc) : Nat := ofScale (p.num 36 4) (d.fsOf (p.byte 25)) 16
def Dev.groupDis (d : Dev) (p : Desc) : Nat := ofScale (p.num 52 4) (d.fsOf (p.byte 25)) 16

/-- The converters that belong to a group now. -/
def Dev.groupMembers (d : Dev) (g : Nat) : List Nat :=
  (indices 48).filter (fun n => MA_CH_CFG.grp_en d n == 1 && MA_CH_CFG.grp d n == g)

/-- Its parameters are legal (Table 15-3, R97, R63 for every converter the group will have). -/
def Dev.groupOk (d : Dev) (p : Desc) : Bool :=
  let g := p.idx
  let mask := p.num 20 3
  let act := bitsOf (p.byte 23) 0 2
  let icap := bitsOf (p.byte 23) 2 2
  let aux := bitsOf (p.byte 23) 4 2
  let period := p.num 30 2
  let hasBuf := 24 ≤ p.length.toNat
  let uses := icap == 0 || ELE_MDL_CFG.model_en d g == 1
  !(3 ≤ act || 3 ≤ icap || 3 ≤ aux || 3 < p.byte 24 || 47 < p.byte 25 || 47 < p.byte 26 || 47 < p.byte 27
    || 47 < p.byte 28 || period < 40 || 800 < period || p.groupGdc == 0 || 2 ^ 23 ≤ p.groupGdc || d.groupSs p == 0
    || 65535 < d.groupSs p || p.byte 40 == 0 || p.byte 41 == 0 || bitsOf (p.byte 42) 0 2 == 3 || p.byte 43 == 0
    || p.byte 50 == 0 || 128 < p.byte 50 || p.byte 51 == 0 || 65535 < d.groupDis p || !d.legMaskOk g act mask
    || (uses && !hasBuf) || p.groupConvs.any (fun x => 47 < x.2)
    || (hasBuf && act != 0 && (indices 12).any (fun j => bitOf mask (2 * j + 1) && leAt p.data (2 * j + 1) 1 != 0xFF))
    || ([p.byte 25, p.byte 26] ++ p.groupConvs.map (·.2) ++ d.groupMembers g).any (fun n => !d.convFits period n))

/-- The parameters of a GROUP_CONFIGURE are in range at the Standard level (R5): groupOk, and a switching period that
R171 allows. -/
def Dev.groupFits (d : Dev) (p : Desc) : Bool :=
  d.groupOk p && (match splitRate (p.num 30 2) (p.num 44 4) with
    | some (spp, pps) => periodOk (p.num 30 2) spp pps
    | none => false)

/-- The register words it writes, with the instant R107 places. -/
def Dev.groupWords (d : Dev) (p : Desc) (spp pps phase : Nat) : List (Nat × Nat) :=
  let g := p.idx
  let b := p.byte 23
  let mode := p.byte 42
  [(ELE_GRP_CTRL.reg g, place 16 4 (Nat.lor 1 (bitsOf (p.byte 29) 0 4)) + place 12 4 (p.byte 29 / 16)),
   (ELE_GRP_CFG.reg g, place 30 2 b + place 28 2 (bitsOf b 2 2) + place 26 2 (bitsOf b 4 2) + place 25 1 (b / 64)
     + place 24 1 (b / 128) + place 22 2 (p.byte 24) + place 16 6 (p.byte 27) + place 10 6 (p.byte 28)),
   (ELE_GRP_LEGS.reg g, p.num 20 3),
   (ELE_GRP_RATIO.reg g, place 24 8 (ELE_GRP_RATIO.limit_report d g) + p.groupGdc),
   (ELE_GRP_SS.reg g, place 16 16 (d.groupSs p) + place 8 8 (p.byte 40) + place 0 8 (p.byte 41)),
   (MA_GRP_SAMP.reg g, place 19 10 (p.num 30 2) + place 0 19 phase),
   (PTU_GRP_TIM.reg g, place 27 5 spp + place 20 7 pps + place 18 2 mode + place 17 1 (mode / 4)),
   (PTU_GRP_STOP.reg g, place 16 16 (p.num 48 2) + place 15 1 (mode / 8) + place 14 1 (mode / 16)
     + place 6 8 (p.byte 43)),
   (PTU_GRP_DIS.reg g, place 16 16 (d.groupDis p) + place 8 8 (p.byte 50) + place 0 8 (p.byte 51))]

/-- What it sets up: the words, its output, input and phase converters, and the offsets of R173. -/
def Dev.groupPlaced (d : Dev) (p : Desc) (spp pps phase : Nat) : Dev :=
  let g := p.idx
  let d1 := d.setRegs (d.groupWords p spp pps phase)
  let d2 := forAll (fun (x : Nat × Nat) d => d.assign x.2 g 1 x.1) p.groupConvs
    ((d1.assign (p.byte 25) g 2 g).assign (p.byte 26) g 3 g)
  d2.placeOffsets g phase (p.num 30 2 * 400 * spp / pps)

/-- Another group moves to its instant of an even spread, its offsets with it (R107, R173). -/
def Dev.moveInstant (d : Dev) (h phase : Nat) : Dev :=
  (d.setField (MA_GRP_SAMP.reg h) 0 19 phase).placeOffsets h phase (d.configuredPeriod h)

/-- GROUP_CONFIGURE at the Standard level (R107, R126, R171, R173, Table 15-3). -/
def Dev.groupConfigure (d : Dev) (c : OpenCmd) : Dev :=
  let p := c.desc
  match d.groupFits p, splitRate (p.num 30 2) (p.num 44 4) with
  | true, some (spp, pps) =>
    let spread := d.spreadInstants p.idx (p.num 30 2)
    let phase := ((spread.find? (fun x => x.1 == p.idx)).map (·.2)).getD 0
    let d1 := forAll (fun (x : Nat × Nat) d => if x.1 = p.idx then d else d.moveInstant x.1 x.2) spread d
    ((d1.groupPlaced p spp pps phase).refreshLimits p.idx).commitAll c.fetch stDone [spp, pps, phase]
  | _, _ => d.finish c.fetch stBadParam []

/-- The registers of GROUP_CONFIGURE's Expert images, in order. -/
def groupRegs (g : Nat) : List Nat :=
  [ELE_GRP_CTRL.reg g, ELE_GRP_CFG.reg g, ELE_GRP_LEGS.reg g, ELE_GRP_RATIO.reg g, ELE_GRP_SS.reg g,
   MA_GRP_SAMP.reg g, PTU_GRP_TIM.reg g, PTU_GRP_STOP.reg g, PTU_GRP_DIS.reg g]

/-- Cross-field limits of a group's registers in a configuration: legs, gdc above 0, sample instant, R63, skew, P. -/
def Dev.groupRegsOk (d : Dev) (g : Nat) : Bool :=
  d.legMaskOk g (ELE_GRP_CFG.act d g) (ELE_GRP_LEGS.legs d g)
  && MA_GRP_SAMP.phase d g < MA_GRP_SAMP.period d g * 400
  && (indices 48).all (fun n => MA_CH_CFG.grp_en d n == 0 || MA_CH_CFG.grp d n != g
        || d.convFits (MA_GRP_SAMP.period d g) n)
  && periodOk (MA_GRP_SAMP.period d g) (PTU_GRP_TIM.spp d g) (PTU_GRP_TIM.pps d g)

/-- The configuration an Expert GROUP_CONFIGURE gives. -/
def Dev.imaged (d : Dev) (p : Desc) : Dev :=
  (d.setImages (p.images (groupRegs p.idx))).setField (ELE_GRP_CTRL.reg p.idx) 16 1 1

/-- The parameters of an Expert GROUP_CONFIGURE are in range (R5). -/
def Dev.imagesFit (d : Dev) (p : Desc) : Bool :=
  36 ≤ p.length.toNat && imagesOk (p.images (groupRegs p.idx)) && (d.imaged p).groupRegsOk p.idx

/-- GROUP_CONFIGURE at the Expert level. -/
def Dev.groupImages (d : Dev) (c : OpenCmd) : Dev :=
  let g := c.desc.idx
  let d1 := d.imaged c.desc
  if !d.imagesFit c.desc then d.finish c.fetch stBadParam []
  else (d1.refreshLimits g).commitAll c.fetch stDone [PTU_GRP_TIM.spp d1 g, PTU_GRP_TIM.pps d1 g, MA_GRP_SAMP.phase d1 g]

/-- GROUP_CONFIGURE. -/
def specGroupConfigure : OpSpec where
  code := 0x10
  cls := clsGroup
  count := 16
  stdOk := true
  expOk := true
  total := fun _ _ => 1
  params := fun c d => if c.expert then d.imagesFit c else d.groupFits c
  begin := fun c d =>
    if !(d.group c.desc.idx).state.stopped then d.finish c.fetch stRejected []
    else if c.desc.expert then d.groupImages c else d.groupConfigure c

end Sys2Proof.Machine
end

