-- ==== Sys2Proof/Machine/Supervise.lean ====
section
/-! DEFINITION. Loop supervision: plant models, following error, hiccup retry, lanes, checks and votes, overrun policy
(spec/05_loop_supervision.md R130 to R168; spec/04 R111, R121; spec/12 R320, R337). -/
namespace Sys2Proof.Machine

/-! ### The plant model (R131 to R142, R165) -/

/-- Phases that take part in the plant model: neither parked, open nor shed (R138, R181, R191). -/
def Dev.modelPhases (d : Dev) (g : Nat) : List Nat :=
  (d.phasesOf g).filter (fun p => (d.leg p).state != .parked && (d.leg p).state != .shed
    && (d.leg p).health != .legOpen)

/-- Change the model of a phase. -/
def Dev.modModel (d : Dev) (p : Nat) (f : PhaseModel → PhaseModel) : Dev :=
  d.modLeg p (fun l => { l with model := f l.model })

/-- The current of a phase at sample n - 1 as the group uses it (R138, R139). -/
def Dev.pastCurrent (d : Dev) (p : Nat) : Int :=
  match (d.leg p).health with
  | .legOpen => 0
  | .substituted => (d.leg p).model.pred
  | _ => (d.leg p).model.i1

/-- A model code as it acts at deferral level `defer` and a doubled rate (R165, R166). -/
def Dev.modelCode (d : Dev) (g defer code : Nat) : Int :=
  signedOf 24 code * 2 ^ (defer + (d.group g).rate.doubled)

/-- The model is due: 2^D computed samples since its last evaluation (R165). -/
def Dev.modelDue (d : Dev) (g : Nat) : Bool := 2 ^ d.sup.defer ≤ (d.group g).model.vls.length

/-- What a model item of a group reads of a phase. -/
def Dev.phaseInput (d : Dev) (p : Nat) : PhaseInput :=
  let l := d.leg p
  ⟨p, l.health == .good, l.health == .substituted, l.model.ihat, l.model.i0, d.pastCurrent p⟩

/-- What a model item of a group reads (R131, R156, R165). -/
def Dev.modelInput (d : Dev) (g : Nat) : ModelInput :=
  let k := d.sup.defer
  let x := (d.group g).model
  ⟨d.modelDue g, d.modelCode g k (ELE_MDL_KL.coef d g), d.modelCode g k (ELE_MDL_KR.coef d g),
   d.modelCode g k (ELE_MDL_KC.coef d g), ELE_MDL_CFG.obs d g, ELE_MDL_CFG.ld d g,
   shiftRound ((x.vls.take (2 ^ k)).foldl (· + ·) 0) k, (d.modelPhases g).map d.phaseInput, x.vhat, x.iload, x.vout0⟩

/-- The prediction of a phase and its residual (R131). -/
def ModelInput.predict (n : ModelInput) (x : PhaseInput) : PhaseOutput :=
  let pred := sat40 (x.ihat + mulQ n.kl n.vl - mulQ n.kr x.ihat)
  let rho := sat40 (x.i0 - pred)
  ⟨x.phase, pred, rho, if x.substituted then pred else sat40 (pred + shiftRound rho n.obs), 0⟩

/-- The differential residual of a phase: its residual less the mean of the other GOOD phases' (R134). -/
def ModelInput.delta (n : ModelInput) (x : PhaseInput) : Int :=
  let others := n.phases.filter (fun y => y.phase != x.phase && y.good)
  let rho := (n.predict x).rho
  if others.isEmpty then rho
  else sat40 (rho - divUp ((others.map (fun y => (n.predict y).rho)).foldl (· + ·) 0) (others.length : Int))

/-- A model item computed from its record (R131, R134): bit for bit the same on every healthy lane. One that is not due
computes nothing (R165). -/
def ModelInput.run (n : ModelInput) : ModelOutput :=
  if n.due then
    let sum := sat40 ((n.phases.map (·.past)).foldl (· + ·) 0)
    let vpred := sat40 (n.vhat + mulQ n.kc (sat40 (sum - n.iload)))
    let rhoV := sat40 (n.vout - vpred)
    ⟨n.phases.map (fun x => { n.predict x with delta := n.delta x }), sat40 (vpred + shiftRound rhoV n.obs),
     sat40 (n.iload - shiftRound rhoV n.ld), rhoV⟩
  else ⟨[], n.vhat, n.iload, 0⟩

/-- A phase residual lies outside its band (R134). -/
def Dev.outsideBand (d : Dev) (g : Nat) (m : PhaseModel) : Bool :=
  decide ((ELE_MDL_BAND.band_abs d g * 1024 * 64 + ELE_MDL_BAND.band_rel d g * m.pred.natAbs : Nat)
    < m.delta.natAbs * 64)

/-- The voltage residual lies outside its band (R134). -/
def Dev.outsideV (d : Dev) (g : Nat) : Bool :=
  decide (ELE_MDL_BAND.band_v d g * 256 < (d.group g).model.rhoV.natAbs)

/-- The class of Table 5-1, coded as ELE_LEG_HEALTH.health. -/
def Dev.classOf (d : Dev) (g p : Nat) : Nat :=
  let m := (d.leg p).model
  if m.exceeds ∨ (m.same = true ∧ (ELE_MDL_BAND.band_abs d g * 1024 : Nat) < m.predHi - m.predLo) then 2
  else if m.delta < 0 ∧ m.i0.natAbs < ELE_MDL_SAT.open_lvl d g * 16 ∧ d.outsideV g = false then 1
  else if 0 < m.delta ∧ ELE_MDL_SAT.sat_knee d g * 16 < m.i0.natAbs ∧ d.outsideV g = false then 3
  else 2

/-- One evaluated sample of a phase's persistence count (R135). -/
def PhaseModel.count1 (m : PhaseModel) (exceeds : Bool) : PhaseModel :=
  let minus := decide (m.delta < 0)
  if m.count = 0 then
    { m with count := 1, minus := minus, exceeds := exceeds, same := true, first := m.i0, predLo := m.pred,
             predHi := m.pred }
  else if m.minus = minus then
    { m with count := m.count + 1, exceeds := m.exceeds || exceeds, same := m.same && m.i0 == m.first,
             predLo := min m.predLo m.pred, predHi := max m.predHi m.pred }
  else { m with count := 0 }

/-- Persistence and classification of one phase (R133, R135, R136, R141); a substituted phase leaves its class for
LEG_OPEN alone (R144). -/
def Dev.judgePhase (d : Dev) (g p : Nat) : Dev :=
  let m := (d.leg p).model
  let out := d.outsideBand g m
  let exceeds := ((d.phaseConv g p).map (fun n => (d.sar n).exceeds)).getD false
  let d1 := d.modModel p (fun m => { m with inside := if out then none else some (m.inside.getD d.now) })
  if (d.group g).state ≠ .run then d1
  else
    let d2 := d1.modModel p (fun m => if out then m.count1 exceeds else { m with count := 0 })
    if ELE_MDL_CFG.persist d g ≤ (d2.leg p).model.count then
      let c := d2.classOf g p
      let d3 := d2.modModel p (fun m => { m with count := 0 })
      let h := (d3.leg p).health.code
      if c = h ∨ (h = 2 ∧ c = 3) then d3 else d3.modGroup g (fun x => { x with pend := x.pend ++ [.health p c] })
    else d2

/-- Load steps (R137). -/
def Dev.countLoadStep (d : Dev) (g : Nat) : Dev :=
  if d.outsideV g && (d.modelPhases g).all (fun p => !d.outsideBand g (d.leg p).model) then
    d.modGroup g (fun x => { x with model := { x.model with steps := (x.model.steps + 1) % 2 ^ 32 } })
  else d

/-- The model state and the residuals an item leaves are taken (R131, R134). -/
def Dev.takeModelOutput (d : Dev) (g : Nat) (o : ModelOutput) : Dev :=
  let take := fun (x : PhaseOutput) (m : PhaseModel) =>
    { m with pred := x.pred, rho := x.rho, ihat := x.ihat, delta := x.delta }
  (forAll (fun (x : PhaseOutput) d => d.modModel x.phase (take x)) o.phases d).modGroup g (fun x =>
    { x with model := { x.model with vhat := o.vhat, iload := o.iload, rhoV := o.rhoV, vls := [] } })

/-- One evaluation of the model: what its item computes, then persistence, classes and load steps. -/
def Dev.evaluateModel (d : Dev) (g : Nat) : Dev :=
  let d1 := d.takeModelOutput g (d.modelInput g).run
  (forAll (fun p d => d.judgePhase g p) (d1.modelPhases g) d1).countLoadStep g

/-- Hysteresis in code LSB (R80). -/
def Dev.hystOf (d : Dev) (n : Nat) : Nat :=
  let h := FTA_CP_CFG.hyst d n
  if h = 0 then 0 else 2 ^ (h - 1)

/-- A threshold of CP0 to CP95 as a normalised quantity (R78). -/
def Dev.thresholdQ (d : Dev) (n : Nat) : Int := ((FTA_CP_THRESH.code d n : Int) - 512) * 2048

/-- Comparison of a substituted phase's prediction with its two thresholds (R140). -/
def Dev.modelTrip (d : Dev) (g p lane : Nat) : Dev :=
  match d.phaseConv g p with
  | none => d
  | some j =>
    let m := (d.leg p).model
    let hi := d.thresholdQ (2 * j)
    let lo := d.thresholdQ (2 * j + 1)
    let above := FTA_CP_CFG.en d (2 * j) == 1
      && (decide (hi < m.pred) || (m.above && decide (hi - (d.hystOf (2 * j) * 2048 : Nat) ≤ m.pred)))
    let below := FTA_CP_CFG.en d (2 * j + 1) == 1
      && (decide (m.pred < lo) || (m.below && decide (m.pred ≤ lo + (d.hystOf (2 * j + 1) * 2048 : Nat))))
    let d1 := d.modModel p (fun m => { m with above := above, below := below })
    let trip := fun (fresh : Bool) (d : Dev) =>
      if fresh then d.report (det 0x11 (32 + p) (0x10 + lane) accCompute (detAddr 0x03 p)) else d
    trip (below && !m.below) (trip (above && !m.above) d1)

/-- The model item of a group on `lane`, with its record (R131, R140, R156, R159, R165). -/
def Dev.runModel (d : Dev) (g lane : Nat) : Dev :=
  let n := d.modelInput g
  let d1 := if n.due then d.evaluateModel g else d
  let d2 := forAll (fun p d => if (d.leg p).health = .substituted then d.modelTrip g p lane else d) (d1.modelPhases g) d1
  let d3 := d2.modGroup g (fun x => { x with model := { x.model with ready := false } })
  let r : ModelRecord := ⟨g, lane, n, n.run⟩
  (d3.modGroup g (fun x => { x with modelItem := some r })).mustCheck lane (.model r)

/-- The group computes samples: SOFT_START, RUN and STOPPING. -/
def Dev.computes (d : Dev) (g : Nat) : Bool :=
  match (d.group g).state with
  | .softStart | .run | .stopping => true
  | _ => false

/-- A plant model runs in the group (R130, R325). -/
def Dev.modelled (d : Dev) (g : Nat) : Bool := !d.il.slw && ELE_MDL_CFG.model_en d g == 1 && ELE_MDL_CFG.fe_mode d g == 0

/-- MODEL_ITEM: the model item of group `g` runs after a hand-over, on the scheduled lane `lane`, or on the lowest
scheduled one where that is not (R131, R140, R152, R165). Models stop in Single-Line Working (R325). -/
def modelItem (g : Fin 16) (lane : Fin 6) (d : Dev) : Dev :=
  let on := if d.scheduledLanes.contains lane.val then some lane.val else d.scheduledLanes.head?
  match on with
  | none => d
  | some l => if d.coreRuns && d.computes g && (d.group g).model.ready && d.modelled g then d.runModel g l else d

/-- INDUCTOR_SAT_CLEARED: the residual of a saturated phase has stayed in its band for 1 s (R141). The second runs on
while the group is stopped and forms no residual (DESIGN CHOICE, log entry 111). -/
def inductorSatCleared (k : Fin 24) (d : Dev) : Dev :=
  match d.groupOfLeg k, (d.leg k).model.inside with
  | some g, some t =>
    if d.coreRuns && (d.leg k).health == .saturated then
      ((d.until (t + ticksPerS)).modPhase g k (fun l => { l with health := .good })).refreshLimits g
    else d
  | _, _ => d

/-- FOLLOWING_ERROR: the following-error timer reaches fe_time (R146): once while it runs. -/
def followingError (g : Fin 16) (d : Dev) : Dev :=
  match (d.group g).watch.feSince, (d.group g).watch.feTold with
  | some t, false =>
    if d.coreRuns then
      let d1 := (d.until (t + ELE_FE.fe_time d g * 10 * ticksPerUs)).modWatch g (fun w => { w with feTold := true })
      d1.report (det 0x12 g (0x10 + (d.group g).watch.lastLane) accCompute (detAddr 0x03 g))
    else d
  | _, _ => d

/-! ### Timers of a group (R111, R121, R149, R150) -/

/-- GROUP_LIMITING: the event is raised, or clears, after limit_report ms (R111). -/
def groupLimiting (g : Fin 16) (d : Dev) : Dev :=
  let w := (d.group g).watch
  let span := ELE_GRP_RATIO.limit_report d g * ticksPerMs
  if !d.coreRuns || span == 0 then d
  else match w.limiting, w.nonVreg, w.vregSince with
    | false, some t, _ =>
      ((d.until (t + span)).modWatch g (fun w => { w with limiting := true })).raise 0x0111 clsC g w.limWho 0
    | true, _, some t => (d.until (t + span)).modWatch g (fun w => { w with limiting := false })
    | _, _, _ => d

/-- SOFT_START_TIMEOUT (Table 4-3, R148). -/
def softStartTimeout (g : Fin 16) (d : Dev) : Dev :=
  if d.coreRuns && (d.group g).state == .softStart then
    let d1 := d.until ((d.group g).watch.ssSince + ELE_GRP_SS.ss_timeout d g * ticksPerMs)
    let d2 := d1.report (det 0x10 g (0x10 + (d.group g).watch.lastLane) accCompute (detAddr 0x03 g))
    d2.groupFault g true
  else d

/-- HICCUP_OFF_END: the off-time ends (R149, R150, R494). The restart goes ahead also where hiccup_max has come down to the
count meanwhile: the entry to FAULTED has judged it (DESIGN CHOICE, log entry 146). -/
def hiccupOffEnd (g : Fin 16) (d : Dev) : Dev :=
  match (d.group g).watch.restartAt with
  | none => d
  | some t =>
    if !d.coreRuns then d
    else
      let d1 := (d.until t).modWatch g (fun w => { w with restartAt := none })
      match (d1.group g).state with
      | .starting => d1.groupAsks g ((d1.group g).watch.enables.head?)
      | .faulted =>
        if d1.noAutoStart g then d1
        else (d1.modWatch g (fun w => { w with hiccups := w.hiccups + 1 })).hiccupStart g
      | _ => d1

/-- HICCUP_CLEAR: hiccup_clear × 10 ms in RUN (R150). -/
def hiccupClear (g : Fin 16) (d : Dev) : Dev :=
  if d.coreRuns && (d.group g).state == .run then
    let d1 := d.until ((d.group g).watch.runSince + ELE_HICCUP.hiccup_clear d g * 10 * ticksPerMs)
    d1.modWatch g (fun w => { w with hiccups := 0 })
  else d

/-! ### Lanes (R151 to R162) -/

/-- Lane `l`. -/
def Dev.lane (d : Dev) (l : Nat) : Lane := fileGet d.sup.lanes l default
/-- Change lane `l`. -/
def Dev.modLane (d : Dev) (l : Nat) (f : Lane → Lane) : Dev :=
  { d with sup := { d.sup with lanes := fileMod d.sup.lanes l f } }

/-- Lane numbers in an address of Table 12-1: 4 bits each, 0xF in unused places. -/
def laneAddr (ls : List Nat) : Nat :=
  detAddr 0x04 ((indices 6).foldl (fun acc i => acc + (ls.getD i 15) * 16 ^ i) 0)

/-- The item a retired lane was running restarts on the lane that takes its place (R157): a late one hands over from
there. -/
def Dev.moveItems (d : Dev) (l taker : Nat) : Dev :=
  forAll (fun g d =>
    let w := (d.group g).watch
    if w.itemRuns = true ∧ w.lastLane = l then
      (d.modWatch g (fun w => { w with lastLane := taker })).modGroup g (fun x =>
        { x with item := x.item.map (fun r => { r with lane := taker }) })
    else d) (indices 16) d

/-- The group and the lane of a work item's record. -/
def WorkRecord.group : WorkRecord → Nat
  | .sample r => r.group
  | .model r => r.group
def WorkRecord.lane : WorkRecord → Nat
  | .sample r => r.lane
  | .model r => r.lane

/-- A lane retires (R153, R157, Table 5-3): the spare, which exists only while six lanes are healthy, takes its place;
fewer than two healthy lanes are exhaustion (R162). Causes as ELE_LANE_STATUS.cause. Lane health in MRAM is written. A
lane that retires under its self-test has ended it, and what a start or a FAULT_RESUME does next is owed. -/
def Dev.retireLane (d : Dev) (l cause : Nat) : Dev :=
  if (d.lane l).state = .retired then d
  else
    let d0 := if (d.lane l).state = .testing then d.owe .laneTested else d
    let d1 := (d0.modLane l (fun x => { x with state := .retired, cause := cause, health := cause, toPass := 0 })).wroteLearned.stored 0x14 l
    let spare := (indices 6).find? (fun j => (d1.lane j).state == .spare)
    let d2 : Dev := match spare with
      | some j => d1.modLane j (fun x => { x with state := .scheduled })
      | none => d1
    let d3 := match spare.or d2.scheduledLanes.head? with
      | some j => d2.moveItems l j
      | none => d2
    let queue := d3.sup.queue.filter (fun r => r.lane != l)
    let healthy := d3.healthyLanes
    let d4 := { d3 with sup := { d3.sup with queue := queue } }.raise 0x0116 clsB (16 + l) cause healthy.length
    if healthy.length < 2 then d4.report (det 0x16 23 (0x10 + l) accCompute (laneAddr (l :: healthy))) else d4

/-- Strikes of a lane within the present window (R159). -/
def Dev.liveStrikes (d : Dev) (l : Nat) : List Nat :=
  (d.lane l).strikes.filter (fun t => d.now < t + ELE_LANE_CTRL.strike_window d * ticksPerS)

/-- A lane takes a strike (R158, R159, Table 5-3); none in Single-Line Working (R325). strike_max retires one that is
SCHEDULED or SPARE; a lane under test is judged by its test. -/
def Dev.strike (d : Dev) (l : Nat) : Dev :=
  if (d.lane l).state = .retired ∨ d.il.slw = true then d
  else
    let ts := d.now :: d.liveStrikes l
    let d1 := d.modLane l (fun x => { x with strikes := ts, toPass := 1000 })
    if ELE_LANE_CTRL.strike_max d ≤ ts.length ∧ (d.lane l).state ≠ .testing then d1.retireLane l 1 else d1

/-- LANE_VOTE_FAIL with the lanes compared, the one that ran the item first (R158). -/
def Dev.voteFail (d : Dev) (ls : List Nat) : Dev :=
  let l := ls.headD 0
  d.report (det 0x14 (16 + l) (0x10 + l) accCompute (laneAddr ls))

/-- The lane that checks an item of `ran` (R156, R161, Table 5-4): the spare while there is one, and nobody while it is
under test; else the scheduled lane that was free, or the lowest one, but never `ran` itself. -/
def Dev.checkerFor (d : Dev) (ran free : Nat) : Option Nat :=
  match (indices 6).find? (fun l => (d.lane l).state == .spare) with
  | some j => some j
  | none =>
    if (indices 6).any (fun l => (d.lane l).state == .testing && (d.lane l).back == .spare) then none
    else
      let others := d.scheduledLanes.filter (· != ran)
      if others.contains free then some free else others.head?

/-- The record the checker takes: the oldest that a strike calls for (R159), else the last sample or model item of the
group. -/
def Dev.checkRecord (d : Dev) (g : Nat) (model : Bool) : Option WorkRecord :=
  match d.sup.queue with
  | r :: _ => some r
  | [] => if model then (d.group g).modelItem.map .model else (d.group g).item.map .sample

/-- y with bit 0 inverted (Table 12-9, LANE_CORRUPT). -/
def flipLow (y : Int) : Int := if y % 2 = 0 then y + 1 else y - 1

/-- A sample item with bit 0 of y inverted (Table 12-9, LANE_CORRUPT). -/
def ItemOutput.corrupt (o : ItemOutput) : ItemOutput := { o with y := flipLow o.y }

/-- A re-execution from the record differs (R156): every output computed anew, bit for bit, with that of a sample item
corrupted where LANE_CORRUPT has armed the group. -/
def WorkRecord.differs (r : WorkRecord) (corrupt : Bool) : Bool :=
  match r with
  | .sample r => (if corrupt then r.input.run.corrupt else r.input.run) != r.output
  | .model r => r.input.run != r.output

/-- A kind of item of the group was last checked more than four check periods ago (R156). -/
def Dev.checkLate (d : Dev) (g : Nat) : Bool :=
  let w := (d.group g).watch
  let span := 4 * ELE_LANE_CTRL.check_period d * ticksPerUs
  w.lastCheck + span < d.now || (d.modelled g && decide (w.lastModel + span < d.now))

/-- A check of a group's item has taken place. -/
def Dev.checked (d : Dev) (r : WorkRecord) : Dev :=
  let d1 := d.modWatch r.group (fun w => match r with
    | .sample _ => { w with lastCheck := d.now }
    | .model _ => { w with lastModel := d.now })
  let d2 := d1.modWatch r.group (fun w => { w with lateTold := w.lateTold && d1.checkLate r.group })
  { d2 with sup := { d2.sup with queue := d2.sup.queue.drop 1 } }

/-- The checker `c` has re-executed a record with the outcome `bad` (R158, R159). `forced` marks what a LANE_CORRUPT
under observation did (R337). -/
def Dev.judgeCheck (d : Dev) (r : WorkRecord) (c : Nat) (bad forced : Bool) : Dev :=
  let ran := r.lane
  if !bad then d.modLane ran (fun x => { x with toPass := x.toPass - 1 })
  else
    let d1 := d.modLane ran (fun x => { x with toPass := if x.toPass = 0 then 0 else 1000 })
    let d2 := d1.raiseInj 0x0118 clsC (16 + c) r.group (Config.pair ran c % 2 ^ 32) forced
    if 3 ≤ d2.healthyLanes.length then
      { d2 with sup := { d2.sup with votes := d2.sup.votes ++ [⟨r.group, ran, c, d2.now, forced⟩] } }
    else d2.voteFail [ran, c]

/-- CHECK_ITEM: a lane re-executes an item of group `g` from its record, its model item with `model`, or the item a
strike puts first, which may be of a group that no longer computes (R156, R158, R159, R161); `free` is the scheduled lane
that was idle, and `differs` says that the two lanes' results are not the same. R156 asks of the checker's choice only
that each kind of item is met in time: `g` and `model` are that choice (DESIGN CHOICE, log entry 148). -/
def checkItem (g : Fin 16) (free : Fin 6) (model differs : Bool) (d : Dev) : Dev :=
  match d.checkRecord g model with
  | none => d
  | some r =>
    match d.checkerFor r.lane free with
    | none => d
    | some c =>
      if !d.coreRuns || d.il.slw || (d.sup.queue.isEmpty && !d.computes r.group) then d
      else
        let armed := match r with
          | .sample _ => d.il.laneCorrupt == some r.group
          | .model _ => false
        let mine := fun (i : Injection) => i.kind == 3 && i.word0 == r.group && d.observing i
        let forced := armed && d.il.watched.any mine
        let mark := fun (i : Injection) => if mine i then { i with seen := true } else i
        let d1 := if armed then
            { d with il := { d.il with laneCorrupt := none, watched := d.il.watched.map mark } }
          else d
        (d1.checked r).judgeCheck r c (differs || r.differs armed) forced

/-- VOTE_ITEM: the oldest waiting vote runs on lane `third` (R158, R337). -/
def voteItem (third : Fin 6) (agrees : Agreement) (d : Dev) : Dev :=
  match d.sup.votes with
  | [] => d
  | v :: rest =>
    if !d.coreRuns || d.il.slw || third.val == v.ran || third.val == v.checker
        || (d.lane third).state != .scheduled then d
    else
      let d1 := { d with sup := { d.sup with votes := rest } }
      let hit := fun (l : Nat) (d : Dev) => if v.forced then d else d.strike l
      match agrees with
      | .ran => hit v.checker d1
      | .checker => hit v.ran d1
      | .neither => (hit third (hit v.checker (hit v.ran d1))).voteFail [v.ran, v.checker, third.val]

/-- VOTE_DROPPED: a vote has not run within 1 ms (R158). -/
def voteDropped (d : Dev) : Dev :=
  match d.sup.votes with
  | [] => d
  | v :: rest =>
    if d.coreRuns then
      ({ d.until (v.since + ticksPerMs) with sup := { d.sup with votes := rest } }).voteFail [v.ran, v.checker]
    else d

/-- SHADOW_LATE: a group's sample item, or its model item, has not been checked within four check periods (R156). -/
def shadowLate (g : Fin 16) (d : Dev) : Dev :=
  if d.coreRuns && !d.il.slw && d.computes g && !(d.group g).watch.lateTold then
    let w := (d.group g).watch
    let oldest := if d.modelled g then min w.lastCheck w.lastModel else w.lastCheck
    let d1 := d.until (oldest + 4 * ELE_LANE_CTRL.check_period d * ticksPerUs)
    (d1.modWatch g (fun w => { w with lateTold := true })).raise 0x0119 clsC g 0 0
  else d

/-- STRIKE_FORGOTTEN: the oldest strike of a lane leaves its window (R159). -/
def strikeForgotten (l : Fin 6) (d : Dev) : Dev :=
  match (d.lane l).strikes.getLast? with
  | some t =>
    if d.coreRuns then
      let d1 := d.until (t + ELE_LANE_CTRL.strike_window d * ticksPerS)
      d1.modLane l (fun x => { x with strikes := d1.liveStrikes l })
    else d
  | none => d

/-- LANE_SELF_TEST_DONE: the self-test of a lane in TESTING ends (R151, R152, Table 5-3). A spare whose test began with
six healthy lanes returns as the spare only with six. What a start or a FAULT_RESUME does next is owed. -/
def laneSelfTestDone (l : Fin 6) (passed : Bool) (d : Dev) : Dev :=
  if !d.coreRuns || (d.lane l).state != .testing then d
  else if !passed then d.retireLane l 3
  else
    let back := if (d.lane l).back = .spare ∧ d.healthyLanes.length = 6 then LaneState.spare else .scheduled
    let d1 := d.modLane l (fun x => { x with state := back, cause := 0, health := 0 })
    (if (d.lane l).health = 0 then d1 else d1.wroteLearned.stored 0x14 l).owe .laneTested

/-- With six healthy lanes and no spare, the highest-numbered lane of a finished test becomes the spare (R151). -/
def Dev.chooseSpare (d : Dev) (batch : List Nat) : Dev :=
  let passed := batch.filter (fun l => (d.lane l).state == .scheduled)
  if d.healthyLanes.length = 6 ∧ (indices 6).all (fun l => (d.lane l).state != .spare) = true then
    match passed.getLast? with
    | some l => d.modLane l (fun x => { x with state := .spare })
    | none => d
  else d

/-! ### Overrun policy (R164 to R167) -/

/-- The group a rate reduction takes: the shortest period, then the higher number (R166). -/
def Dev.reduceNext (d : Dev) : Option Nat :=
  d.rateCandidates.foldl (fun (best : Option Nat) g =>
    match best with
    | none => some g
    | some h => if (d.group g).rate.period ≤ (d.group h).rate.period then some g else some h) none

/-- One escalation step of Table 5-5. -/
def Dev.escalateOnce (d : Dev) : Dev :=
  let d0 := { d with sup := { d.sup with stepAt := d.now } }
  if d0.sup.defer < 3 then { d0 with sup := { d0.sup with defer := d0.sup.defer + 1 } }
  else match d0.reduceNext with
    | none => d
    | some g =>
      let d1 := { d0 with sup := { d0.sup with reduced := g :: d0.sup.reduced } }
      (d1.atBoundary g (.rate true)).raise 0x0117 clsB g (2 * (d.group g).rate.period) 0

/-- ESCALATION_STEP (R164); none in Single-Line Working (R325). -/
def escalationStep (d : Dev) : Dev :=
  let span := ELE_OVR_CFG.step_up d * 10 * ticksPerUs
  if !d.coreRuns || d.il.slw then d
  else
    let recent := match d.sup.overrunAt with
      | some t => decide (d.now ≤ t + 100 * ticksPerUs)
      | none => false
    if recent then
      if d.now < d.sup.stepAt + span then d else d.escalateOnce
    else match d.sup.highSince with
      | some t => (d.until (max t d.sup.stepAt + span)).escalateOnce
      | none => d

/-- The latest escalation step still in force is undone (R167). -/
def Dev.restoreOnce (d : Dev) : Dev :=
  let d0 := { d with sup := { d.sup with restoreAt := d.now } }
  match d0.sup.reduced with
  | g :: rest => ({ d0 with sup := { d0.sup with reduced := rest } }).atBoundary g (.rate false)
  | [] => { d0 with sup := { d0.sup with defer := d0.sup.defer - 1 } }

/-- RESTORING_STEP (R167). -/
def restoringStep (d : Dev) : Dev :=
  let span := ELE_OVR_CFG.step_down d * ticksPerMs
  match d.sup.lowSince with
  | none => d
  | some t =>
    if !d.coreRuns || d.il.slw then d
    else (d.until (max (max t (d.sup.overrunAt.getD 0)) d.sup.restoreAt + span)).restoreOnce

end Sys2Proof.Machine
end

