-- ==== Sys2Proof/Machine/Phase.lean ====
section
/-! DEFINITION. The Phase Timing Unit: load points, edges, leg states, interleaving, shedding, the cycle-by-cycle limit
and discharge (spec/06_phase_timing.md R171 to R197; spec/03 R91; spec/02 R35, R36). -/
namespace Sys2Proof.Machine

/-! ### Edges (R175 to R177, R195, Table 6-2) -/

/-- The full scale F of an actuation for a period (Table 6-1). -/
def fullScale (act p : Nat) : Nat := if act = 0 then p else if act = 1 then p / 2 else p / 4

/-- W or S of an applied demand (R176). -/
def demandCodes (d f : Nat) : Nat := (d * f + 32768) / 65536

/-- Codes of a dead-time or minimum-pulse setting: units of 5 ns (R176). -/
def fiveNs (c : Nat) : Nat := c * 80

/-- An interval of `z` codes is shorter than a minimum pulse (R177). -/
def tooShort (minPulse : Nat) (z : Int) : Bool := decide (z < (minPulse : Int))

/-- The edges of a duty leg (R176, R177). `noB` is R195's de. -/
def dutyEdges (mode w p dtA dtB minPulse : Nat) (noB : Bool) : Edges :=
  let a := if mode = 1 then p - w else if mode = 2 then (p - w) / 2 else 0
  let bFrom := if mode = 1 then dtB else a + w + dtB
  let bTo : Int := if mode = 1 then (p : Int) - w - dtA else (p : Int) + a - dtA
  if tooShort minPulse w then ⟨w, false, a, a + w, !noB, 0, p, 1⟩
  else
    let skip := tooShort minPulse (bTo - bFrom)
    ⟨w, true, a, a + w, !noB && !skip, bFrom, bTo.toNat, flag skip⟩

/-- The edges of a leg of a pair (Table 6-2); positions beyond P wrap. -/
def shiftEdges (upper : Bool) (s p dtA dtB : Nat) : Edges :=
  let o := if upper then s else 0
  ⟨s, true, o + dtA, o + p / 2, true, o + p / 2 + dtB, o + p, 0⟩

/-- The edges of a discharging leg (R195). R177's minimum pulse does not act on its interval of output B (DESIGN CHOICE, log
entry 147). -/
def dischargeEdges (p duty : Nat) (noB : Bool) : Edges := ⟨0, false, 0, 0, !noB, 0, p * duty / 256, 0⟩

/-- Leading edge (R178): the edges `e` of the period after its centre load point. B went on before; it goes off, and A on,
at the new codes, or at the centre where those lie before it; an off edge of B that has passed stands. -/
def leadingCentre (e : Edges) (w p dtA minPulse : Nat) : Edges :=
  let c := p / 2
  let gone := e.bOn && decide (e.bTo < c)
  let aFrom := max (p - w) (if gone then e.bTo + dtA else if e.bOn then c + dtA else c)
  if e.aOn && decide (e.aFrom < c) then e
  else if tooShort minPulse ((p : Int) - aFrom) then
    { e with codes := w, aOn := false, bTo := if gone then e.bTo else p, skips := e.skips + flag e.aOn }
  else
    { e with codes := w, aOn := true, aFrom := aFrom, aTo := p, bTo := if gone then e.bTo else aFrom - dtA,
             skips := if e.aOn then e.skips else e.skips - 1 }

/-- Trailing edge and centre (R178): the edges `e` of the period after its centre load point. A went on before, or is not
produced in this period; it goes off at the new codes, or at the centre where those lie before it, unless it has
gone off. B follows A and the dead time. -/
def trailingCentre (mode : Nat) (e : Edges) (w p dtA dtB minPulse : Nat) (noB : Bool) : Edges :=
  let c := p / 2
  let a := if mode = 2 then (p - w) / 2 else 0
  let aTo := if mode = 0 ∧ e.aTo < c then e.aTo else max (a + w) c
  let bFrom := max aTo (if mode = 0 then w else 0) + dtB
  let bTo : Int := (p : Int) + a - dtA
  if !e.aOn || (e.bOn && decide (e.bFrom < c)) then e
  else
    let skip := tooShort minPulse (bTo - bFrom)
    { e with codes := w, aTo := aTo, bOn := !noB && !skip, bFrom := bFrom, bTo := bTo.toNat, skips := flag skip }

/-- The edges of a duty leg after its centre load point (R178): an edge placed before it keeps the code it was placed
with, and one that the new code `w` would put there takes place at the centre. Dead times hold. -/
def dutyCentre (mode : Nat) (e : Edges) (w p dtA dtB minPulse : Nat) (noB : Bool) : Edges :=
  if mode = 1 then leadingCentre e w p dtA minPulse else trailingCentre mode e w p dtA dtB minPulse noB

/-- The edges of a leg of a pair after its centre load point (R178): the transition at S keeps its code where it has
passed, and the one at S + P / 2 is the first to carry the new S. -/
def shiftCentre (upper : Bool) (s0 s p dtA dtB : Nat) : Edges :=
  let e := shiftEdges upper s p dtA dtB
  if upper then { e with aFrom := (if s0 < p / 2 then s0 else max s (p / 2)) + dtA } else e

/-- The join ceiling of a leg in Q0.16: from 0, by umax every join_time, from its first period start on (R184). -/
def Dev.joinCeiling (d : Dev) (g p : Nat) : Nat :=
  let l := d.leg p
  if !l.joinBegun then 0
  else if l.joinMs = 0 then ELE_GRP_DLIM.umax d g
  else roundDivN (ELE_GRP_DLIM.umax d g * (d.now - l.joinSince)) (l.joinMs * ticksPerMs)

/-- The codes a load point takes: the newest held for 50 ns, which are those before the last hand-over when that is
younger (R178). -/
def Dev.heldDemand (d : Dev) (g : Nat) (young : Bool) : Nat :=
  if young then (shiftRound (d.group g).y2 4).toNat else (d.group g).applied

/-- The demand a phase takes: under its join ceiling while it joins (R184), and that of d_pb in its first period of a start
(Table 6-3). -/
def Dev.phaseDemand (d : Dev) (g p : Nat) (young : Bool) : Nat :=
  if (d.leg p).state = .joining then min (d.heldDemand g young) (d.joinCeiling g p)
  else if (d.leg p).run = .first then (shiftRound (d.group g).dpb 4).toNat
  else d.heldDemand g young

/-- The edges leg `k` of a switching phase takes at a load point (R176 to R178, R195). -/
def Dev.switchEdges (d : Dev) (g k : Nat) (young centre : Bool) : Edges :=
  let l := d.leg k
  let p := d.phaseOfLeg k
  let per := (d.group g).rate.switchPeriod
  let noB := PTU_GRP_STOP.de d g == 1 && (d.group g).state == .stopping
  let w := demandCodes (d.phaseDemand g p young) (fullScale (ELE_GRP_CFG.act d g) per)
  let a := fiveNs l.dtA
  let b := fiveNs l.dtB
  if d.isShift g then
    if centre then shiftCentre (k != p) l.edges.codes w per a b else shiftEdges (k != p) w per a b
  else if centre then dutyCentre (PTU_GRP_TIM.mod d g) l.edges w per a b (fiveNs l.minPulse) noB
  else dutyEdges (PTU_GRP_TIM.mod d g) w per a b (fiveNs l.minPulse) noB

/-- The edges of leg `k` as its two outputs' delay lines place them, from the period start of its phase (R35, R172). -/
def Dev.placeEdges (d : Dev) (k : Nat) : PlacedEdges :=
  let e := (d.leg k).edges
  let s : Int := ((d.leg (d.phaseOfLeg k)).startAt.getD 0 : Nat)
  ⟨d.placeEdge (2 * k) (s + e.aFrom), d.placeEdge (2 * k) (s + e.aTo), d.placeEdge (2 * k + 1) (s + e.bFrom),
   d.placeEdge (2 * k + 1) (s + e.bTo)⟩

/-- A leg produces edges: it switches or joins, and its first period has begun (Table 6-3). -/
def Leg.produces (l : Leg) : Bool :=
  (l.state == .switching && l.run != .waiting) || (l.state == .joining && l.joinBegun)

/-- The count of skipped pulses with the edges `e` taken at a load point: those of a period start are counted, and at a
centre what the new codes change of them (R177). -/
def Leg.countSkips (l : Leg) (e : Edges) (centre : Bool) : Nat :=
  (l.skipped + e.skips + (if centre then 2 ^ 32 - l.edges.skips else 0)) % 2 ^ 32

/-- Take edges at a load point of leg `k`. A leg that waits for its first period start holds its safe levels, and a
discharging one takes edges at period starts alone (Table 6-3, R195). -/
def Dev.takeEdges (d : Dev) (g k : Nat) (young centre : Bool) : Dev :=
  let l := d.leg k
  let per := (d.group g).rate.switchPeriod
  let noB := PTU_GRP_STOP.de d g == 1
  let d1 :=
    if l.produces then
      let e := d.switchEdges g k young centre
      d.modLeg k (fun l => { l with edges := e, skipped := l.countSkips e centre })
    else if l.state = .discharging then
      if centre then d else d.modLeg k (fun l => { l with edges := dischargeEdges per (PTU_GRP_DIS.dis_duty d g) noB })
    else d.modLeg k (fun l => { l with edges := default })
  d1.modLeg k (fun l => { l with placed := d1.placeEdges k })

/-! ### Period start (R36, R91, R179, R187, R192, R193, Table 6-3) -/

/-- A measured twin takes over from its active line (R36). -/
def DelayPair.swapNow (x : DelayPair) : DelayPair :=
  if x.swap then { x with taps := x.twin, twin := x.taps, swap := false } else x

/-- Change delay-line pair `i`: pairs 0 to 47 place the PWM outputs, 48 to 111 the sample instants. -/
def Dev.modLine (d : Dev) (i : Nat) (f : DelayPair → DelayPair) : Dev :=
  { d with bge := { d.bge with lines := fileMod d.bge.lines i f } }

/-- The settings that take effect at a leg's period start (R179): dead times, minimum pulse and auto-parking. -/
def Dev.takeSettings (d : Dev) (k : Nat) : Dev :=
  d.modLeg k (fun l =>
    { l with dtA := PTU_LEG_DT.dt_a d k, dtB := PTU_LEG_DT.dt_b d k, minPulse := PTU_LEG_CFG.min_pulse d k,
             parkAuto := PTU_LEG_CFG.park_auto d k == 1, parkTime := PTU_LEG_CFG.park_time d k })

/-- A leg's settings at its period start, and the delay-line swaps of its outputs (R36, R179). -/
def Dev.legSettings (d : Dev) (k : Nat) : Dev :=
  ((d.takeSettings k).modLine (2 * k) DelayPair.swapNow).modLine (2 * k + 1) DelayPair.swapNow

/-- One period's move of a live offset to its target, the shorter way round (R187). -/
def moveOffset (o t p : Nat) : Nat :=
  if p = 0 then o
  else
    let fwd := (t + p - o % p) % p
    if fwd ≤ p - fwd then (o + min fwd (p / 8)) % p else (o + p - min (p - fwd) (p / 8)) % p

/-- A cycle row drives column `k` (R91). -/
def Dev.cycleDriven (d : Dev) (k : Nat) : Bool :=
  (indices 152).any (fun r => d.rowCycles r && d.rowDrives r && bitOf (d.rowMask r) k)

/-- A cycle action ends the active interval of leg `k` (R91, R192): both legs of a pair are held, and the period of
the phase counts as one with an action. -/
def Dev.cycleAction (d : Dev) (k : Nat) : Dev :=
  let d1 := d.modLeg k (fun l => { l with cycles := (l.cycles + 1) % 2 ^ 32 })
  match d.groupOfLeg k with
  | some g => d1.modPhase g (d.phaseOfLeg k) (fun l => { l with cycled := true })
  | none => d1.modLeg k (fun l => { l with cycled := true })

/-- Held columns of a phase release at its period start, unless a cycle row still drives them (R91, R192). -/
def Dev.releaseCycle (d : Dev) (g p : Nat) : Dev :=
  forAll (fun k d =>
    if d.cycleDriven k then d
    else { d with trip := { d.trip with cycled := putBit d.trip.cycled k false } }) (d.legsOfPhase g p) d

/-- The count of consecutive periods with a cycle action, and CBC_PERSIST (R193). A cbc_max of 0 counts nothing; a count
that a lowered cbc_max leaves at or above it has reached it. -/
def Dev.countCycles (d : Dev) (g p : Nat) : Dev :=
  let l := d.leg p
  let live := l.state == .switching || l.state == .joining || l.state == .discharging
  let top := PTU_LEG_CFG.cbc_max d p
  let n := if l.cycled && live && top != 0 then held 255 (l.cbc + 1) else 0
  let d1 := (d.modPhase g p (fun l => { l with cbc := n, cycled := false })).releaseCycle g p
  let again := (d1.legsOfPhase g p).any (fun k => bitOf d1.trip.cycled k)
  let d2 := if again then d1.modPhase g p (fun l => { l with cycled := true }) else d1
  if top ≠ 0 ∧ top ≤ n then
    (d2.report (det 0x13 (32 + p) 0x40 accDrive (detAddr 0x03 p))).groupFault g true
  else d2

/-- The group enters OFF once soft stop is complete and its last leg is safe (R194). -/
def Dev.offWhenSafe (d : Dev) (g : Nat) : Dev :=
  if (d.group g).state = .stopping ∧ d.softStopped g = true ∧ d.driving g = false ∧ d.discharging g = false then
    d.enterOff g
  else d

/-- A phase in its first period has come to its next period start. -/
def Dev.pastFirst (d : Dev) (g p : Nat) : Dev :=
  d.modPhase g p (fun l => { l with run := if l.run = .first then .later else l.run })

/-- What a leg does at its period start: a park whose commands a link event has closed does not happen (R385), and the leg
does what it would do without it. -/
def Dev.legNext (d : Dev) (g p : Nat) : LegNext :=
  let l := d.leg p
  match l.next with
  | .park fs =>
    if fs.any d.isOpen then .park fs
    else if (l.state = .switching ∧ l.run = .waiting) ∨ (l.state = .joining ∧ l.joinBegun = false) then .begin
    else if (d.group g).state = .stopping ∧ d.softStopped g = true ∧ (l.state = .switching ∨ l.state = .joining) then .stop
    else .none
  | n => n

/-- What waits for a phase's period start takes effect (Table 6-3, R180, R183, R184, R189, R191, R194). A phase of a
start waits on while the codes of d_pb are the newest and have been held less than 50 ns (`young`). ihat of a phase that
joins is the value it had when it was parked (DESIGN CHOICE, log entry 145). -/
def Dev.takeNext (d : Dev) (g p : Nat) (young : Bool) : Dev :=
  let l := d.leg p
  match d.legNext g p with
  | .none => if l.next = .none then d else d.modPhase g p (fun l => { l with next := .none })
  | .shed =>
    let d1 := d.modPhase g p (fun l => { l with state := .shed, next := .none, edges := default })
    (d1.clearCounts g).retarget g
  | .restore =>
    let i := ((d.phaseConv g p).map d.quantity).getD 0
    let d1 := (d.modPhase g p (fun l => { l with state := .switching, next := .none })).modModel p (fun m =>
      { m with ihat := i })
    (d1.clearCounts g).retarget g
  | .park fs =>
    let un := l.unpark
    let d1 := ((d.modLeg p (fun l => { l with unpark := none })).release (slotLeg p)).finishOpt un stSuperseded []
    ((d1.parkPhase g p 1).doneAll fs).offWhenSafe g
  | .begin =>
    if l.state = .joining then
      let d1 := d.modPhase g p (fun l => { l with next := .none, joinBegun := true, joinSince := d.now, run := .later })
      d1.commitOpt l.unpark 2
    else if young && (d.group g).item.isNone then d
    else d.modPhase g p (fun l => { l with next := .none, run := .first })
  | .stop => ((((d.leaveJoining p).modPhase g p Leg.idled).retarget g)).offWhenSafe g

/-- A joining phase whose ceiling has reached the applied demand switches (Table 6-3, R183, R185). -/
def Dev.joinDone (d : Dev) (g p : Nat) : Dev :=
  let l := d.leg p
  if l.state = .joining ∧ l.joinBegun = true ∧ (d.group g).applied ≤ d.joinCeiling g p then
    let d1 := d.modPhase g p (fun l => { l with state := .switching, joinBegun := false, unpark := none })
    ((d1.release (slotLeg p)).raise 0x0121 clsC (32 + p) 1 0).commitAllOpt l.unpark stDone []
  else d

/-- The next period start of a phase (R172, R187): the position n × P + O that lies a period, less or more the move of
its offset, after the last one, or the latest that has passed. -/
def Dev.nextStart (d : Dev) (p per offset : Nat) : Int :=
  gridInstant offset per d.edgeNow ((d.leg p).startAt.map (fun s => ((s + per / 2 : Nat) : Int)))

/-- A period start of phase `p` (R172, R179, R187): time reaches it, and both legs of a pair start with it. -/
def Dev.startPeriod (d : Dev) (g p : Nat) : Dev :=
  let per := (d.group g).rate.switchPeriod
  let o := moveOffset (d.leg p).offset (d.leg p).target per
  if per = 0 then d
  else
    let t := d.nextStart p per o
    (d.untilEdge t).modPhase g p (fun l => { l with startAt := some t.toNat, half := false, offset := o })

/-- The centre of phase `p`'s period, once in each period (R178): time reaches it. -/
def Dev.reachCentre (d : Dev) (g p : Nat) : Dev :=
  let c := (d.leg p).startAt.getD 0 + (d.group g).rate.switchPeriod / 2
  (d.untilEdge (c : Nat)).modPhase g p (fun l => { l with half := true })

/-- Every leg of a phase takes its edges. -/
def Dev.phaseEdges (d : Dev) (g p : Nat) (young centre : Bool) : Dev :=
  forAll (fun k d => d.takeEdges g k young centre) (d.legsOfPhase g p) d

/-- LOAD_POINT: leg `k` reaches its period start, or its centre (R178). The period start of an upper leg is that of its
lower leg (R172), whose load points serve both. `young` says that the newest codes have been held less than 50 ns. -/
def loadPoint (k : Fin 24) (centre young : Bool) (d : Dev) : Dev :=
  match d.coreRuns, d.groupOfLeg k with
  | true, some g =>
    if k.val ≠ d.phaseOfLeg k then d
    else if centre then
      if PTU_GRP_TIM.load d g = 1 ∧ (d.leg k).startAt.isSome = true ∧ (d.leg k).half = false then
        ((d.reachCentre g k).joinDone g k).phaseEdges g k young true
      else d
    else
      let d1 := forAll (fun j d => d.legSettings j) (d.legsOfPhase g k) (d.startPeriod g k)
      ((((d1.countCycles g k).pastFirst g k).takeNext g k young).joinDone g k).phaseEdges g k young false
  | _, _ => d

/-! ### Timers (R180, R188, R195) -/

/-- The phase SHED_DWELL_END sheds: of health GOOD and switching, highest leg first (R188). -/
def Dev.shedChoice (d : Dev) (g : Nat) : Option Nat :=
  ((d.activePhases g).filter (fun p => (d.leg p).health == .good && (d.leg p).state == .switching
    && (d.leg p).next == .none)).getLast?

/-- The per-phase current with one phase fewer lies below shed_thr (R188). -/
def Dev.lightLoad (d : Dev) (g : Nat) : Bool :=
  let a := (d.activePhases g).length
  2 ≤ a && decide (d.icapQuantity g * (d.phaseCount g : Int) * 256
      < ((a - 1 : Nat) * PTU_GRP_SHED.shed_thr d g * 2 ^ 20 : Int))

/-- SHED_DWELL_END (R188). -/
def shedDwellEnd (g : Fin 16) (d : Dev) : Dev :=
  let leaving := ((d.phasesOf g).filter (fun p => (d.leg p).next == .shed)).length
  let many := PTU_GRP_SHED.min_ph d g + leaving < (d.activePhases g).length
  if d.coreRuns && (d.group g).state == .run && PTU_GRP_SHED.shed_en d g == 1 && many && d.lightLoad g then
    match d.shedChoice g with
    | none => d
    | some p =>
      let d1 := d.until ((d.group g).watch.shedSince + PTU_GRP_SHED.shed_dwell d g * ticksPerMs)
      (d1.modPhase g p (fun l => { l with next := .shed })).modWatch g (fun w => { w with shedSince := d1.now })
  else d

/-- PARK_TIME_EXPIRY (Table 6-3): DRVFLTk has been asserted without break for park_time on an IDLE leg, under the park
settings in force (R179). -/
def parkTimeExpiry (k : Fin 24) (d : Dev) : Dev :=
  match d.groupOfLeg k, (d.leg k).absent with
  | some g, some t =>
    if d.coreRuns && (d.leg k).state == .idle && (d.leg k).parkAuto then
      (d.until (t + (d.leg k).parkTime * ticksPerMs)).parkPhase g (d.phaseOfLeg k) 2
    else d
  | _, _ => d

/-- DISCHARGE_TIMEOUT (R195). -/
def dischargeTimeout (g : Fin 16) (d : Dev) : Dev :=
  if d.coreRuns && d.discharging g then
    let d1 := d.until ((d.group g).watch.disSince + PTU_GRP_DIS.dis_timeout d g * ticksPerMs)
    (d1.raise 0x0122 clsC g 0 0).endDischarge g
  else d

/-- A latched column of a leg moves its group to FAULTED, unless the leg is parked (Table 4-3, R121, R148, R181). -/
def Dev.legLatched (d : Dev) (k : Nat) : Dev :=
  match d.groupOfLeg k with
  | some g => if (d.leg k).state = .parked then d else d.groupFault g true
  | none => d

end Sys2Proof.Machine
end

