-- ==== Sys2Proof/Machine/Catch.lean ====
section
/-! DEFINITION. Catch points, comparator modes and DRVFLT inputs (spec/03_measurement_and_catch_points.md R77 to R96;
spec/15 THRESHOLD_SET, COMPARATOR_MODE, SET_PATTERN). -/
namespace Sys2Proof.Machine

/-! ### Sides (Table 3-12) -/

/-- CP_CROSS_TO_FAULT: the input of a good-side channel crosses to the fault side (R82). -/
def cpCrossToFault (n : Fin 128) (d : Dev) : Dev := if (d.cp n).side = .good then d.toFault n else d

/-- CP_RETURN_GOOD: the input of a fault-side channel lies beyond its band, the threshold settled (R84). -/
def cpReturnGood (n : Fin 128) (d : Dev) : Dev :=
  if (d.cp n).side = .fault ∧ (d.cp n).settling = false then d.toGood n else d

/-- A side is decided at the end of a threshold or mode change: `beyond` says that the input lies beyond the band on
the good side (R83, Table 3-12). -/
def Dev.decideSide (d : Dev) (n : Nat) (beyond : Bool) : Dev :=
  match (d.cp n).side, beyond with
  | .off, _ => d
  | _, true => d.toGood n
  | .good, false => d.toFault n
  | .deciding, false => d.toFaultSilent n
  | .fault, false => d

/-- THRESHOLD_SETTLED (R83). -/
def thresholdSettled (n : Fin 128) (beyond : Bool) (d : Dev) : Dev :=
  if (d.cp n).settling then (d.modCp n (fun c => { c with settling := false })).decideSide n beyond else d

/-- A threshold code is set by its owner (R77): a change settles (R83). -/
def Dev.setThreshold (d : Dev) (n code : Nat) : Dev :=
  if FTA_CP_THRESH.code d n = code then d
  else (d.setField (FTA_CP_THRESH.reg n) 0 10 code).modCp n (fun c => { c with settling := true })

/-- `en` is written 1 on a channel that is off (Table 3-12). -/
def Dev.cpOn (d : Dev) (n : Nat) : Dev :=
  if (d.cp n).side = .off then d.modCp n (fun c => { c with side := .deciding, settling := true }) else d

/-- `en` is written 0 (Table 3-12): the row releases and nothing is detected. A threshold that settles is settling no more
(DESIGN CHOICE, log entry 141). -/
def Dev.cpOff (d : Dev) (n : Nat) : Dev := d.modCp n (fun c => { c with side := .off, settling := false })

/-! ### Modes (R85 to R87) -/

/-- Comparator modes as FTA_CP_CFG.mode codes them. -/
def modeFreight : Nat := 0
def modeStopping : Nat := 1
def modeExpress : Nat := 2

/-- A channel is armed: its row names a column, also where R139 took that column from the live mask (R87, Table 3-19).
-/
def Dev.armed (d : Dev) (n : Nat) : Bool := d.rowConfigured n != 0

/-- The mode R87 gives a channel in a pattern: 0 Express, 1 Mixed, 2 Freight. -/
def Dev.patternMode (d : Dev) (pattern n : Nat) : Nat :=
  if pattern = 0 then modeExpress
  else if pattern = 1 then (if d.armed n then modeExpress else modeStopping)
  else (if d.armed n then modeStopping else modeFreight)

/-- The mode a channel is in, or is moving to. -/
def Dev.modeOf (d : Dev) (n : Nat) : Nat := ((d.cp n).moving).getD (FTA_CP_CFG.mode d n)

/-- Channels in Express, or moving there. -/
def Dev.expressCount (d : Dev) : Nat := ((indices 128).filter (fun n => d.modeOf n == modeExpress)).length

/-- Channels a set of modes adds to Express. -/
def Dev.addedExpress (d : Dev) (modes : List (Nat × Nat)) : Nat :=
  (modes.filter (fun m => m.2 == modeExpress && d.modeOf m.1 != modeExpress)).length

/-- The channels a mode command has yet to move. -/
def Dev.movingFor (d : Dev) (k : Nat) : Bool := (indices 128).any (fun n => (d.cp n).owner == some k)

/-- A channel begins to move to a mode; a channel that enters Express is charged from then (R86). -/
def moveMode (k : Nat) (m : Nat × Nat) (d : Dev) : Dev :=
  if d.modeOf m.1 = m.2 then d
  else
    let d1 := d.modCp m.1 (fun c => { c with moving := some m.2, owner := some k })
    if m.2 = modeExpress then { d1 with trip := { d1.trip with charged := putBit d1.trip.charged m.1 true } } else d1

/-- The modes a COMPARATOR_MODE or SET_PATTERN calls for. -/
def Dev.modesFor (d : Dev) (op : Nat) (c : Desc) : List (Nat × Nat) :=
  if op = 0x81 then (bitsIn 128 (c.num 20 16)).map (fun n => (n, c.byte 36))
  else (indices 128).map (fun n => (n, d.patternMode (c.byte 20) n))

/-- Commands whose last channel has reached the end of its move commit their second stage (R85). -/
def Dev.modeDone (d : Dev) (k : Nat) : Dev :=
  match d.cmd k with
  | none => d
  | some c => if c.done = 1 ∧ d.movingFor k = false then d.commitAll k stDone c.results else d

/-- Leave is held, or none is needed: stage 1 commits and the channels begin to move. A channel that an earlier command
still moves passes to this one, and the earlier one waits for its others alone (DESIGN CHOICE, log entry 140). -/
def Dev.modeMoves (d : Dev) (c : OpenCmd) : Dev :=
  let modes := d.modesFor c.op c.desc
  let added := d.addedExpress modes
  let losers := (modes.filterMap (fun m => if d.modeOf m.1 = m.2 then none else (d.cp m.1).owner)).eraseDups
  let d0 := if c.op = 0x81 then d else d.setField 0x0014 0 2 (c.desc.byte 20)
  let d1 := forAll (moveMode c.fetch) modes (d0.commit c.fetch 1)
  let results := if c.op = 0x81 then [added, d1.expressCount] else [d1.expressCount]
  forAll (fun k d => d.modeDone k) (c.fetch :: losers) (d1.keepResults c.fetch results)

/-- Stage 1 of a mode command: it asks for leave when channels enter Express (R86). -/
def Dev.modeStage (d : Dev) (c : OpenCmd) : Dev :=
  let added := d.addedExpress (d.modesFor c.op c.desc)
  let left := (d.trip.asking.bind d.cmd).isNone
  let ask := { d with trip := { d.trip with asking := some c.fetch } }
  if added = 0 then d.modeMoves c
  else if d.slotBusy slotMode then
    if c.resumed && left then ask else d.finish c.fetch stRejected []
  else ask.request slotMode { rank := ringRank c.desc.ring.val, core := 11 * added, tagged := true }

/-- What a granted mode request was spared: the part of its 1.1 mA a channel that R301 took off it (log entry 104). -/
def Dev.modeSpared (d : Dev) (c : OpenCmd) : Nat :=
  let had := (d.slot slotMode).core
  if had < d.capacity budCore then 0 else 11 * d.addedExpress (d.modesFor c.op c.desc) - had

/-- Leave is granted to a mode command: each channel added is charged on its own from here on, less what the request was
spared. -/
def Dev.modeGranted (d : Dev) : Dev :=
  let d1 := { d with trip := { d.trip with asking := none } }.release slotMode
  match d.trip.asking.bind d.cmd with
  | some c => { d1 with trip := { d1.trip with spared := d1.trip.spared + d.modeSpared c } }.modeMoves c
  | none => d1

/-- Channel `n` leaves Express: it is charged no longer, and no more stays spared than the rest is charged (R86,
R301). -/
def Dev.uncharge (d : Dev) (n : Nat) : Dev :=
  let left := putBit d.trip.charged n false
  { d with trip := { d.trip with charged := left, spared := min d.trip.spared (11 * popcount 128 left) } }.owe .office

/-- Leave for a mode command is given up: no channel moves (R86). -/
def Dev.modeGaveUp (d : Dev) : Dev :=
  { d with trip := { d.trip with asking := none } }.finishOpt d.trip.asking stTokenTimeout []

/-- A resumed mode command continues while its channels still move, and is done when they have arrived. -/
def Dev.modeResume (d : Dev) (c : OpenCmd) : Option Dev :=
  let modes := d.modesFor c.op c.desc
  if modes.any (fun m => d.modeOf m.1 != m.2) then none
  else
    let take := fun (n : Nat × Nat) (d : Dev) =>
      if (d.cp n.1).moving.isSome then d.modCp n.1 (fun x => { x with owner := some c.fetch }) else d
    let d1 := forAll take modes d
    let results := if c.op = 0x81 then [0, d.expressCount] else [d.expressCount]
    some ((d1.keepResults c.fetch results).modeDone c.fetch)

/-- COMPARATOR_MODE (R86). -/
def specComparatorMode : OpSpec where
  code := 0x81
  cls := clsDevice
  count := 1
  stdOk := true
  expOk := false
  total := fun _ _ => 2
  params := fun c _ => c.byte 36 ≤ 2
  begin := fun c d => d.modeStage c
  resume := fun c d => d.modeResume c

/-- SET_PATTERN (R86, R87). -/
def specSetPattern : OpSpec where
  code := 0x04
  cls := clsDevice
  count := 1
  stdOk := true
  expOk := false
  total := fun _ _ => 2
  params := fun c _ => c.byte 20 ≤ 2
  begin := fun c d => d.modeStage c
  resume := fun c d => d.modeResume c

/-- MODE_CHANGE_DONE (R85): the bias has settled in the new mode and the side is decided, or, while the threshold still
settles, will be when it has (R83; DESIGN CHOICE, log entry 139). A channel that leaves Express is charged no longer. -/
def modeChangeDone (n : Fin 128) (beyond : Bool) (d : Dev) : Dev :=
  let c := d.cp n
  match c.moving with
  | none => d
  | some m =>
    let d1 := (d.setField (FTA_CP_CFG.reg n) 29 2 m).modCp n (fun c => { c with moving := none, owner := none })
    let d2 := if m = modeExpress ∨ bitOf d1.trip.charged n = false then d1 else d1.uncharge n
    let d3 := if c.settling then d2 else d2.decideSide n beyond
    match c.owner with
    | some k => d3.modeDone k
    | none => d3

/-! ### THRESHOLD_SET (R77 to R80) -/

/-- An above channel: an even one of CP0 to CP95, CP96 to CP123, and CP124 to CP127 by `dir` (Table 3-11). -/
def Dev.isAbove (d : Dev) (n : Nat) : Bool :=
  if n < 96 then n % 2 == 0 else if n < 124 then true else FTA_CP_CFG.dir d n == 1

/-- The code of a physical threshold (R78, R79). -/
def Dev.thresholdCode (d : Dev) (n : Nat) (v : Int) : Int :=
  let num := if n < 96 then v * 512 else v * 1024
  let den : Int := if n < 96 then (d.fsOf (n / 2) : Int) else 2500
  let off : Int := if n < 96 then 512 else 0
  if d.isAbove n then off + num / den else off - (-num) / den

/-- The physical value a code gives, rounded to the nearest unit (R78, R395). -/
def Dev.thresholdValue (d : Dev) (n code : Nat) : Int :=
  if n < 96 then roundDiv (((code : Int) - 512) * (d.fsOf (n / 2) : Int)) 512 else roundDiv ((code : Int) * 2500) 1024

/-- The code a THRESHOLD_SET gives. -/
def Dev.thresholdGiven (d : Dev) (p : Desc) : Int :=
  if p.expert then p.num 20 2 else d.thresholdCode p.idx (p.int 20 4)

/-- THRESHOLD_SET is another owner's path (R77): CP96 to CP123. -/
def thresholdOwned (n : Nat) : Bool := decide (96 ≤ n) && decide (n ≤ 123)

/-- THRESHOLD_SET (R77 to R80). A channel of another owner has no mapping here, and of its parameters only those with a
range of their own are judged. -/
def specThresholdSet : OpSpec where
  code := 0x80
  cls := clsCp
  count := 128
  stdOk := true
  expOk := true
  total := fun _ _ => 1
  params := fun c d =>
    let z := d.thresholdGiven c
    (c.byte 24 ≤ 7 || c.byte 24 == 0xFF)
      && ((thresholdOwned c.idx && !c.expert) || (decide (0 ≤ z) && decide (z ≤ 1023)))
  begin := fun c d =>
    let n := c.desc.idx
    let h := c.desc.byte 24
    if thresholdOwned n then d.finish c.fetch stRejected []
    else
      let z := d.thresholdGiven c.desc
      if z < 0 ∨ 1023 < z then d.finish c.fetch stBadParam []
      else if h ≠ 0xFF ∧ h ≠ FTA_CP_CFG.hyst d n ∧ FTA_CP_CFG.en d n = 1 then d.finish c.fetch stRejected []
      else
        let d1 := if h = 0xFF then d else d.setField (FTA_CP_CFG.reg n) 26 3 h
        let v := d.thresholdValue n z.toNat
        (d1.setThreshold n z.toNat).commitAll c.fetch stDone [z.toNat, unsignedOf 32 v]

/-! ### Arming (R88, Tables 3-19 to 3-21) -/

/-- A row's configured mask is written: an added column acts at once, and a removed one leaves its latch (Table 3-19).
-/
def Dev.rowChanged (d : Dev) (r : Nat) : Dev := d.driveRow r (d.rowSilent r)

/-- A row comes to name column `c` (R202, R220). -/
def Dev.nameColumn (d : Dev) (r c : Nat) : Dev :=
  let d1 := if c < 32 then d.setReg (FTA_TM_ROW_LO.reg r) (putBit (d.reg (FTA_TM_ROW_LO.reg r)) c true)
    else d.setReg (FTA_TM_ROW_HI.reg r) (putBit (d.reg (FTA_TM_ROW_HI.reg r)) (c - 32) true)
  d1.rowChanged r

/-! ### DRVFLT inputs (R94, R197) -/

/-- The level at which input `k` is active, true for high (Table 3-21). -/
def Dev.activeLevel (d : Dev) (k : Nat) : Bool := FTA_DF_CFG.pol d k == 1

/-- Input `k` may have become asserted or not: the absence time of its leg starts or stops, whether or not the input is
enabled (Table 6-3 names no enable; DEDUCED, log entry 112), and its row drives or
releases. `was` says that it was asserted. -/
def Dev.inputMoved (d : Dev) (k : Nat) (was : Bool) : Dev :=
  let is := d.inputAsserted k
  let d1 := if is = was then d else d.modLeg k (fun l => { l with absent := if is then some d.now else none })
  d1.driveRow (128 + k) (d1.rowSilent (128 + k))

/-- DRVFLT_ASSERT: input `k` stands at its active level for longer than its filter. -/
def drvfltAssert (k : Fin 24) (d : Dev) : Dev :=
  if !d.coreRuns then d
  else { d with drv := fileMod d.drv k (fun x => { x with level := d.activeLevel k }) }.inputMoved k (d.inputAsserted k)

/-- DRVFLT_DEASSERT: input `k` stands at its inactive level for longer than its filter: it has been seen deasserted, its
row releases and no latch does. -/
def drvfltDeassert (k : Fin 24) (d : Dev) : Dev :=
  if !d.coreRuns then d
  else
    { d with drv := fileMod d.drv k (fun _ => ⟨!d.activeLevel k, false⟩) }.inputMoved k (d.inputAsserted k)

end Sys2Proof.Machine
end

