-- ==== Sys2Proof/Machine/Feeds.lean ====
section
/-! DEFINITION. Feed controllers, the share loop, early warning, and the hold-off records they share with the branches
(spec/07_feed_controllers.md R199 to R217; spec/02 R42; spec/15 Table 15-4). -/
namespace Sys2Proof.Machine

/-! ### Hold-off records (R42, R211 to R213, R235) -/

/-- The calendar as a count of subseconds. -/
def KeepAlive.sub (k : KeepAlive) : Nat := k.seconds * 32768 + k.subsec

/-- A time in ticks as subseconds, rounded up: 32768 subseconds are 40 million ticks. -/
def ticksToSub (t : Nat) : Nat := ceilDiv (64 * t) 78125

/-- The calendar a deadline counts in: a loaded one that the next X32 edge brings into force is that already (R40,
R42). -/
def KeepAlive.coming (k : KeepAlive) : KeepAlive :=
  match k.loading with
  | some x => k.takeLoad x
  | none => k

/-- A hold-off record written now (R42, R212). -/
def Dev.newHold (d : Dev) (len retries cause : Nat) : HoldRecord :=
  ⟨true, d.ka.coming.sub + ticksToSub len, len, d.ka.coming.valid, retries, cause, d.now + len⟩

/-- What remains of a hold-off, in ticks. -/
def Dev.holdLeft (d : Dev) (h : HoldRecord) : Nat := if h.live then h.endUp - d.now else 0

/-- A record as a start reads it (R213): its remainder now counts in uptime. -/
def Dev.readHold (d : Dev) (h : HoldRecord) : HoldRecord :=
  let k := d.ka.coming
  let left := if k.valid && h.calValid then min h.length ((h.deadline - k.sub) * 78125 / 64) else h.length
  { h with endUp := d.now + left }

/-- What remains of a deadline: before step 8 of a start has read the record, what it would read now (R42, R213). -/
def Dev.deadlineLeft (d : Dev) (h : HoldRecord) : Nat :=
  if d.core.phase = .running then d.holdLeft h else (d.readHold h).endUp - d.now

/-- A stored deadline rewritten when CALENDAR_SET changes the calendar to `k` (R42). -/
def Dev.rewriteHold (d : Dev) (k : KeepAlive) (h : HoldRecord) : HoldRecord :=
  if h.live then { h with deadline := k.coming.sub + ticksToSub (d.deadlineLeft h), calValid := k.coming.valid } else h

/-- Milliseconds of a remaining hold-off. -/
def Dev.holdMs (d : Dev) (h : HoldRecord) : Nat := held 0xFFFFFFFF (ceilDiv (d.holdLeft h) ticksPerMs)

/-- The hold-off of retry count `n` (R211). -/
def holdTicks (holdoff backoff n : Nat) : Nat := holdoff * 10 * ticksPerMs * 2 ^ min n backoff

/-! ### Thermal nodes: temperatures in 2^-32 K (log entry 11) -/

/-- One step of a Foster node: d + (x - d) * a with `a` in Q0.16. -/
def fosterStep (x node : Int) (a : Nat) : Int := node + shiftRound ((x - node) * (a : Int)) 16

/-- Whole degrees in 2^-32. -/
def degrees (c : Int) : Int := c * 2 ^ 32

/-- The temperature of a thermistor, or the fixed one while it has no result (R209, R490, R491). -/
def Dev.trefOf (d : Dev) (src th fix : Nat) : Int :=
  if src = 1 then
    match fileGet d.house.therm th none with
    | some t => t * 2 ^ 32 / 10
    | none => degrees (signedOf 8 fix)
  else degrees (signedOf 8 fix)

/-! ### Converters of a feed (R200) -/

/-- The converter with a role and index: the lowest that runs, else the lowest. -/
def Dev.roleConv (d : Dev) (role idx : Nat) : Option Nat :=
  let ns := (indices 48).filter (fun n => MA_CH_CFG.role d n == role && MA_CH_CFG.role_idx d n == idx)
  match ns.find? (fun n => MA_CH_CFG.en d n == 1) with
  | some n => some n
  | none => ns.head?

/-- Result period of a converter in ticks (R61). -/
def Dev.resultPeriod (d : Dev) (n : Nat) : Nat :=
  if MA_CH_CFG.grp_en d n = 1 then d.livePeriod (MA_CH_CFG.grp d n) else 8 * (MA_CH_CFG.fr_div d n + 1)

/-- The converter runs and delivers at least every `limit` ticks. -/
def Dev.convFast (d : Dev) (limit : Nat) (n : Option Nat) : Bool :=
  match n with
  | some n => MA_CH_CFG.en d n == 1 && d.resultPeriod n ≤ limit
  | none => false

/-- Current converter of a feed: AIN(40 + f) in role 4. -/
def Dev.feedCur (d : Dev) (f : Nat) : Option Nat :=
  if MA_CH_CFG.role d (40 + f) = 4 ∧ MA_CH_CFG.role_idx d (40 + f) = f then some (40 + f) else none
/-- Input voltage converter of a feed. -/
def Dev.feedVin (d : Dev) (f : Nat) : Option Nat := d.roleConv 5 f
/-- Output voltage converter of a feed. -/
def Dev.feedVout (d : Dev) (f : Nat) : Option Nat := d.roleConv 5 (4 + f)

/-- The three converters of R200 run, fast enough and with one voltage scale. -/
def Dev.feedReady (d : Dev) (f : Nat) : Bool :=
  let scale := fun (n : Option Nat) => n.map (fun n => d.reg (MA_CH_SCALE.reg n))
  d.convFast 400 (d.feedCur f) && d.convFast 400 (d.feedVin f) && d.convFast 400 (d.feedVout f)
    && scale (d.feedVin f) == scale (d.feedVout f)

/-- Latest result of a converter in Q0.15 of full scale. -/
def Dev.latest (d : Dev) (n : Option Nat) : Int := (n.map (fun n => (d.sar n).result)).getD 0
/-- Full scale of a converter, 0 without one. -/
def Dev.scaleOf (d : Dev) (n : Option Nat) : Nat := (n.map d.fsOf).getD 0

/-- The result period Tm of a feed's current converter, or, once that has stopped, the one it had before (R200). -/
def Dev.feedTm (d : Dev) (f : Nat) : Nat :=
  match d.feedCur f with
  | some n => if MA_CH_CFG.en d n = 1 ∨ (fileGet d.feeds f default).tm = 0 then d.resultPeriod n
    else (fileGet d.feeds f default).tm
  | none => (fileGet d.feeds f default).tm

/-- V_in - V_out in Q0.15 of full scale. -/
def Dev.feedDiff (d : Dev) (f : Nat) : Int := d.latest (d.feedVin f) - d.latest (d.feedVout f)

/-! ### Feed file -/

/-- Feed `f`. -/
def Dev.feed (d : Dev) (f : Nat) : Feed := fileGet d.feeds f default
/-- Change feed `f`. -/
def Dev.modFeed (d : Dev) (f : Nat) (g : Feed → Feed) : Dev := { d with feeds := fileMod d.feeds f g }

/-- Coding of FC_CTRL.state. -/
def FeedState.code : FeedState → Nat
  | .off => 0 | .starting => 1 | .inrush => 2 | .on => 3 | .blocked => 4 | .tripped => 5 | .locked => 6

/-- A feed is stopped in OFF and LOCKED (Table 18-3). -/
def FeedState.stopped : FeedState → Bool
  | .off => true
  | .locked => true
  | _ => false

/-- The supplying group of a feed (R214). -/
def Dev.supplier (d : Dev) (f : Nat) : Option Nat :=
  (indices 16).find? (fun g => ELE_GRP_CFG.feed_en d g == 1 && ELE_GRP_CFG.feed d g == f)

/-! ### Early warning (R216, R217) -/

/-- The conditions (a) to (d) of R216 as a mask. -/
def Dev.warnConditions (d : Dev) (f : Nat) : Nat :=
  let x := d.feed f
  let v := d.latest (d.feedVin f)
  let uv : Int := FC_VOLT.uv_thr d f
  let tm : Int := d.feedTm f
  let lead : Int := FC_TIME.warn_lead d f * 10 * ticksPerUs
  let a := decide (2 * v < (FC_VOLT.warn_thr d f : Int))
  let b := match x.vins.head?, x.vins[8]? with
    | some v0, some v8 => FC_TIME.warn_lead d f != 0 && decide (v0 < v8)
        && decide ((2 * v0 - uv) * 8 * tm < lead * 2 * (v8 - v0))
    | _, _ => false
  let lim := FC_SOA_T.lim_warn d f
  let c := match d.supplier f with
    | some g => match (d.group g).watch.warnSince with
      | some t => lim != 0 && decide (t + lim * 10 * ticksPerUs ≤ d.now)
      | none => false
    | none => false
  let dd := match d.supplier f with
    | some g => (d.group g).state != .run
    | none => false
  flag a + 2 * flag b + 4 * flag c + 8 * flag dd

/-- FWARNf as the present state and conditions call for it (R216): a new assertion in ON raises FEED_WARN. -/
def Dev.feedWarn (d : Dev) (f : Nat) : Dev :=
  let x := d.feed f
  if FC_CTRL.fwarn_en d f = 0 then d.modFeed f (fun x => { x with warn := false, warnMask := 0, clearAt := none })
  else if x.state ≠ .on then d.modFeed f (fun x => { x with warn := true, warnMask := 0, clearAt := none })
  else
    let m := d.warnConditions f
    if m ≠ 0 then
      let d1 := d.modFeed f (fun x => { x with warn := true, warnMask := m, clearAt := none })
      if x.warn then d1 else d1.raise 0x0142 clsC (96 + f) (Config.coding 0x0142 m) 0
    else d.modFeed f (fun x => { x with warnMask := 0, clearAt := if x.warn then some (x.clearAt.getD d.now) else none })

/-- A change of a group's state, winner or clamp flag reaches the feeds it supplies (R217). -/
def Dev.feedsOfGroup (d : Dev) (g : Nat) : Dev :=
  forAll (fun f d => if d.supplier f = some g then d.feedWarn f else d) (indices 4) d

/-! ### Transitions (Table 7-1) -/

/-- Run counters of a state begin afresh. -/
def Feed.fresh (x : Feed) : Feed := { x with uvRun := 0, revRun := 0, backRun := 0 }

/-- The feed enters a state. -/
def Dev.feedEnter (d : Dev) (f : Nat) (s : FeedState) : Dev :=
  (d.modFeed f (fun x => { x.fresh with state := s, since := d.now })).feedWarn f

/-- Commands in flight end with a status. -/
def Dev.feedEnd (d : Dev) (f status : Nat) : Dev :=
  let ks := (d.feed f).cmds
  (d.modFeed f (fun x => { x with cmds := [], wanted := false })).finishAll ks status

/-- The feed enters TRIPPED, writing its hold-off record (R203, R211, R212). -/
def Dev.feedTrip (d : Dev) (f cause status : Nat) : Dev :=
  let n := (d.feed f).retries
  let len := holdTicks (FC_RETRY.holdoff d f) (FC_RETRY.backoff d f) n
  let h := d.newHold len n cause
  let d1 := (d.release (slotFeed f)).modFeed f (fun x => { x with cause := cause, hold := h })
  ((d1.feedEnter f .tripped).feedEnd f status).wroteLearned.stored 0x12 (96 + f)

/-- The feed blocks (Table 7-1). -/
def Dev.feedBlock (d : Dev) (f cause : Nat) : Dev :=
  let d1 := d.modFeed f (fun x => { x with cause := cause, blockedAt := d.now, blockedFor := 0 })
  (d1.feedEnter f .blocked).raise 0x0140 clsB (96 + f) cause 0

/-- The feed enters ON. -/
def Dev.feedOn (d : Dev) (f : Nat) : Dev :=
  let ks := (d.feed f).cmds
  let d1 := (d.release (slotFeed f)).modFeed f (fun x => { x with cmds := [], wanted := false })
  (d1.feedEnter f .on).doneAll ks

/-- The inrush current limit in mA (R204). -/
def Dev.inrushLimit (d : Dev) (f : Nat) : Nat :=
  roundDivN (FC_INRUSH.inrush_ilim d f * d.scaleOf (d.feedCur f)) 256

/-- The feed enters INRUSH: its ramp reference starts at the present V_out (R205). -/
def Dev.feedInrush (d : Dev) (f : Nat) : Dev :=
  (d.modFeed f (fun x => { x with rampFrom := d.latest (d.feedVout f) })).feedEnter f .inrush

/-- The ramp reference of a feed in INRUSH now, in Q0.16 of full scale times the ticks of a millisecond (R205). -/
def Dev.feedReference (d : Dev) (f : Nat) : Int :=
  let x := d.feed f
  2 * x.rampFrom * (ticksPerMs : Int) + ((FC_INRUSH.inrush_rate d f * (d.now - x.since) : Nat) : Int)

/-- What drives a gate: nothing (pulled down), the ramp amplifier, which regulates the output to its reference, the
current limit in mA, or full enhancement. -/
inductive GateDrive where
  | down | ramp (reference : Int) | limit (amount : Nat) | enhanced
  deriving DecidableEq, Repr

/-- The drive of a feed's gates (R205, R206): in INRUSH the current limit controls where the current stands above it,
which asks for less drive than the ramp then, and the ramp elsewhere, by the latest result (DEDUCED, log entry 113).
-/
def Dev.feedDrive (d : Dev) (f : Nat) : GateDrive :=
  if d.isLatched (colFeed f) then .down
  else match (d.feed f).state with
    | .inrush =>
      if ((FC_INRUSH.inrush_ilim d f * 128 : Nat) : Int) < d.latest (d.feedCur f) then .limit (d.inrushLimit f)
      else .ramp (d.feedReference f)
    | .on => .enhanced
    | _ => .down

/-- The feed enters STARTING and asks for leave (R204). -/
def Dev.feedStart (d : Dev) (f : Nat) (from_ : StartFrom) : Dev :=
  let x := d.feed f
  let ring := (x.cmds.head?.bind d.cmd).map (fun c => c.desc.ring.val)
  let rank := match ring with
    | some n => ringRank n
    | none => 1
  let stay := if x.state = .blocked then x.blockedFor + (d.now - x.blockedAt) else x.blockedFor
  let d1 := (d.modFeed f (fun x => { x with source := from_, blockedFor := stay })).feedEnter f .starting
  d1.request (slotFeed f) {
    rank := rank, surge := d.inrushLimit f, span := FC_INRUSH.inrush_timeout d f * ticksPerMs,
    tagged := !x.cmds.isEmpty }

/-- A start that did not happen leads back to where it came from (R203). -/
def Dev.feedFailed (d : Dev) (f status : Nat) : Dev :=
  match (d.feed f).source with
  | .fresh => ((d.release (slotFeed f)).feedEnter f .off).feedEnd f status
  | .blocked =>
    let d1 := (d.release (slotFeed f)).modFeed f (fun x => { x with blockedAt := d.now })
    (d1.feedEnter f .blocked).feedEnd f status
  | .retry => d.feedTrip f (d.feed f).cause status

/-- Leave is granted to a feed in STARTING (Table 7-1). -/
def Dev.feedGranted (d : Dev) (f : Nat) : Dev :=
  if (d.feed f).state ≠ .starting then d.release (slotFeed f)
  else
    let d1 := forAll (fun k d => d.commit k 1) (d.feed f).cmds d
    if d1.colHeld (colFeed f) then d1.feedFailed f stRejected
    else
      let d2 := d1.clearLatch (colFeed f)
      let d3 := forAll (fun k d => d.commit k 2) (d.feed f).cmds d2
      if (FC_ORING.inrush_dv d f * 32 : Nat) ≤ d.feedDiff f then d3.feedInrush f else d3.feedOn f

/-- No leave within the timeout (Table 7-1). -/
def Dev.feedGaveUp (d : Dev) (f : Nat) : Dev :=
  if (d.feed f).state = .starting then d.feedFailed f stTokenTimeout else d

/-- No start of its own: stop lines are driven. -/
def Dev.noStarts (d : Dev) : Bool := d.withdrawn || d.il.stopAll

/-- A TRIPPED feed whose hold-off has ended retries, starts for a waiting command, or locks (Table 7-1, R211). -/
def Dev.feedRetry (d : Dev) (f : Nat) : Dev :=
  let x := d.feed f
  let cool := decide (x.tj ≤ degrees (FC_SOA_T.soa_restart d f))
  let most := FC_RETRY.retry_max d f
  if x.state ≠ .tripped ∨ 0 < d.holdLeft x.hold ∨ d.noStarts = true then d
  else if x.wanted then if cool then d.feedStart f .fresh else d
  else if most ≠ 15 ∧ most ≤ x.retries then (d.feedEnter f .locked).raise 0x0143 clsB (96 + f) x.cause 0
  else if cool then (d.modFeed f (fun x => { x with retries := held 15 (x.retries + 1) })).feedStart f .retry
  else d

/-- A column latch reaches its feed (Table 7-1): `row` set it. -/
def Dev.feedLatched (d : Dev) (f row : Nat) : Dev :=
  match (d.feed f).state with
  | .inrush => d.feedTrip f 5 stAborted
  | .on => if row = 120 + f then d.feedBlock f 1 else d.feedTrip f 6 stAborted
  | _ => d

/-- A stop line turns a feed off (Table 7-1). -/
def Dev.feedStop (d : Dev) (f : Nat) : Dev :=
  if (d.feed f).state = .off then d
  else
    let d1 := (d.release (slotFeed f)).modFeed f (fun x => { x with cause := 7 })
    (d1.feedEnter f .off).feedEnd f stAborted

/-! ### Evaluation at each current result (R200, R209, Table 7-1) -/

/-- Converters of the feed that have stopped are reported once while they stay stopped (R200). -/
def Dev.feedMissing (d : Dev) (f : Nat) : Dev :=
  if (d.feed f).state = .off then d.modFeed f (fun x => { x with told := [] })
  else
    let ns := [d.feedCur f, d.feedVin f, d.feedVout f].filterMap id
    let gone := ns.filter (fun n => MA_CH_CFG.en d n == 0)
    let told := (d.feed f).told
    let d1 := d.modFeed f (fun x => { x with told := gone })
    forAll (fun n d => d.report (det 0x05 (96 + f) 0x42 accMeasure (detAddr 0x01 n)))
      (gone.filter (fun n => !told.contains n)) d1

/-- The SOA model (R209), p in mV times mA. -/
def Dev.feedSoaModel (d : Dev) (f : Nat) : Dev :=
  let x := d.feed f
  let live := x.state == .inrush || x.state == .on
  let p : Nat := if live then
      (d.feedDiff f).natAbs * d.scaleOf (d.feedVin f) * (d.latest (d.feedCur f)).natAbs * d.scaleOf (d.feedCur f)
    else 0
  let rise := fun (r : Nat) => divUp ((p * r : Nat) : Int) ((2 ^ 14 * 1000000 : Nat) : Int)
  let d1 := fosterStep (rise (FC_SOA_R.r1 d f)) x.d1 (FC_SOA_A.a1 d f)
  let d2 := fosterStep (rise (FC_SOA_R.r2 d f)) x.d2 (FC_SOA_A.a2 d f)
  let tref := d.trefOf (FC_CTRL.tref_src d f) (FC_CTRL.th_idx d f) (FC_SOA_T.tref_fix d f)
  let vins := (d.latest (d.feedVin f) :: x.vins).take 9
  d.modFeed f (fun x => { x with d1 := d1, d2 := d2, tj := tref + d1 + d2, vins := vins })

/-- The model temperature lies above soa_trip: the feed trips (Table 7-1, R206). -/
def Dev.feedSoa (d : Dev) (f : Nat) : Dev :=
  (d.report (det 0x21 (96 + f) 0x42 accMeasure (detAddr 0x03 f))).feedTrip f 3 stAborted

/-- The conditions of ON at a result (Table 7-1). -/
def Dev.feedInOn (d : Dev) (f : Nat) : Dev :=
  let v := d.latest (d.feedVin f)
  let low := decide (2 * v < (FC_VOLT.uv_thr d f : Int))
  let back := FC_ORING.rev_slow d f != 0 && decide (d.latest (d.feedCur f) < -((FC_ORING.rev_slow d f * 32 : Nat) : Int))
  let count := fun (b : Bool) (n : Nat) => if b then n + 1 else 0
  let d1 := d.modFeed f (fun x => { x with uvRun := count low x.uvRun, revRun := count back x.revRun })
  if 2 ≤ (d1.feed f).revRun then d1.feedBlock f 1
  else if FC_TIME.uv_filt d f ≤ (d1.feed f).uvRun then d1.feedBlock f 2
  else d1

/-- The conditions of BLOCKED at a result (Table 7-1). -/
def Dev.feedInBlocked (d : Dev) (f : Nat) : Dev :=
  let v := d.latest (d.feedVin f)
  let dv := d.feedDiff f
  let good := decide ((FC_VOLT.uv_thr d f + FC_TIME.uv_hyst d f * 16 : Nat) ≤ 2 * v)
    && decide ((FC_ORING.on_dv d f * 4 : Nat) ≤ dv)
  let d1 := d.modFeed f (fun x => { x with backRun := if good then held 255 (x.backRun + 1) else 0 })
  if (d1.feed f).backRun < FC_ORING.on_time d f ∨ d1.noStarts = true then d1
  else if d1.colHeld (colFeed f) then d1
  else if dv < (FC_ORING.inrush_dv d f * 32 : Nat) then
    let us := held 0xFFFFFFFF (((d.feed f).blockedFor + (d.now - (d.feed f).blockedAt)) / ticksPerUs)
    ((d1.clearLatch (colFeed f)).feedOn f).raise 0x0141 clsC (96 + f) us 0
  else d1.feedStart f .blocked

/-- One evaluation of a feed (R200). -/
def Dev.feedEvaluate (d : Dev) (f : Nat) : Dev :=
  let d1 := ((d.modFeed f (fun x => { x with tm := d.feedTm f })).feedMissing f).feedSoaModel f
  let hot := decide (degrees (FC_SOA_T.soa_trip d1 f) < (d1.feed f).tj)
  let d2 := match (d1.feed f).state with
    | .inrush =>
      if hot then d1.feedSoa f
      else if d1.feedDiff f < (FC_ORING.on_dv d f * 4 : Nat) then d1.feedOn f else d1
    | .on => if hot then d1.feedSoa f else d1.feedInOn f
    | .blocked => d1.feedInBlocked f
    | .tripped => d1.feedRetry f
    | _ => d1
  d2.feedWarn f

/-! ### Timers -/

/-- INRUSH_TIMEOUT (Table 7-1, R206). -/
def inrushTimeout (f : Fin 4) (d : Dev) : Dev :=
  if d.coreRuns && (d.feed f).state == .inrush then
    let d1 := d.until ((d.feed f).since + FC_INRUSH.inrush_timeout d f * ticksPerMs)
    (d1.report (det 0x20 (96 + f) 0x42 accMeasure (detAddr 0x03 f))).feedTrip f 4 stAborted
  else d

/-- FEED_HOLDOFF_END (R211). -/
def feedHoldoffEnd (f : Fin 4) (d : Dev) : Dev :=
  if d.coreRuns && (d.feed f).hold.live && (d.feed f).state == .tripped then
    (d.until (d.feed f).hold.endUp).feedRetry f
  else d

/-- FEED_RETRY_CLEAR (R211). -/
def feedRetryClear (f : Fin 4) (d : Dev) : Dev :=
  if d.coreRuns && (d.feed f).state == .on then
    (d.until ((d.feed f).since + FC_RETRY.retry_clear d f * ticksPerS)).modFeed f (fun x => { x with retries := 0 })
  else d

/-- FWARN_RELEASE (R216): no condition has held for warn_hold. -/
def fwarnRelease (f : Fin 4) (d : Dev) : Dev :=
  match (d.feed f).clearAt with
  | some t =>
    if d.coreRuns && (d.feed f).state == .on && (d.feed f).warnMask == 0 then
      (d.until (t + FC_TIME.warn_hold d f * ticksPerMs)).modFeed f (fun x =>
        { x with warn := false, clearAt := none })
    else d
  | none => d

/-- LIM_WARN_EXPIRY (R217): condition (c) comes to hold. -/
def limWarnExpiry (f : Fin 4) (d : Dev) : Dev :=
  match (d.supplier f).bind (fun g => (d.group g).watch.warnSince) with
  | some t =>
    if d.coreRuns && FC_SOA_T.lim_warn d f != 0 then
      (d.until (t + FC_SOA_T.lim_warn d f * 10 * ticksPerUs)).feedWarn f
    else d
  | none => d

/-! ### The share loop (R214, R215) -/

/-- Members of a share set. -/
def Dev.members (d : Dev) (s : Nat) : List Nat := (indices 4).filter (fun f => FC_CTRL.share_set d f == s + 1)

/-- A member participates (R214). -/
def Dev.participates (d : Dev) (f : Nat) : Bool :=
  (d.feed f).state == .on && match d.supplier f with
    | some g =>
      let x := d.group g
      x.state == .run && x.winner == 0 && !x.clampHi && !x.clampLo
    | none => false

/-- Move a trim towards 0 by at most a step. -/
def towardsZero (t : Int) (step : Nat) : Int := if 0 < t then max 0 (t - step) else min 0 (t + step)

/-- Change the trim of a member's group: it is 0 outside RUN (R119). -/
def Dev.modTrim (d : Dev) (f : Nat) (h : Int → Int) : Dev :=
  match d.supplier f with
  | some g => if (d.group g).state = .run then d.modGroup g (fun x => { x with trim := h x.trim }) else d
  | none => d

/-- One participating member's update; currents in Q0.16. -/
def Dev.shareStep (d : Dev) (s : Nat) (mean : Int) (f : Nat) : Dev :=
  let step : Int := FC_SHARE.step d s
  let i := 2 * d.latest (d.feedCur f)
  let delta := clampI (-step) step (asr ((mean - i) * (FC_SHARE.ki d s : Int)) 12)
  let top : Int := match d.supplier f with
    | some g => (ELE_GRP_SLEW.trim_max d g : Int)
    | none => 0
  d.modTrim f (fun t => clampI (-top) top (t + delta))

/-- SHARE_PERIOD: a share period of set `s` ends (R214). -/
def sharePeriod (s : Fin 2) (d : Dev) : Dev :=
  if !d.coreRuns || d.il.slw then d
  else
    let step := FC_SHARE.step d s
    let ms := d.members s
    if FC_SHARE.en d s = 0 then forAll (fun f d => d.modTrim f (fun t => towardsZero t step)) ms d
    else
      let ps := ms.filter d.participates
      let mean := divUp ((ps.map (fun f => 2 * d.latest (d.feedCur f))).foldl (· + ·) 0) (ps.length : Int)
      let d1 := if 2 ≤ ps.length then forAll (fun f d => d.shareStep s mean f) ps d else d
      let rest := if 2 ≤ ps.length then ms.filter (fun f => !ps.contains f) else ms
      forAll (fun f d1 =>
        if ps == [f] || (d1.feed f).state != .on then d1.modTrim f (fun t => towardsZero t step) else d1) rest d1

/-- The output voltage full scale of a feed: its supplying group's, else its own V_out converter's. -/
def Dev.shareVfs (d : Dev) (f : Nat) : Nat :=
  match (d.supplier f).bind d.voutFs with
  | some v => v
  | none => d.scaleOf (d.feedVout f)

/-- All entries of a list are equal. -/
def allSame : List Nat → Bool
  | [] => true
  | x :: xs => xs.all (· == x)

/-- Limit a derived gain or step to 1 to 255 (R215). -/
def oneToByte (n : Nat) : Nat := if n < 1 then 1 else if 255 < n then 255 else n

/-- The feeds a FEED_SHARE names. -/
def shareNamed (p : Desc) : List Nat := bitsIn 4 (bitsOf (p.byte 21) 0 4)

/-- The word a FEED_SHARE gives FC_SHARE (R215). -/
def Dev.shareImage (d : Dev) (p : Desc) : Nat × Dev :=
  let ms := shareNamed p
  let i := (ms.map (fun f => d.scaleOf (some (40 + f)))).headD 0
  let v := (ms.map d.shareVfs).headD 0
  let image : Nat × Dev :=
    if p.expert then (p.num 24 4, d)
    else
      let per := roundDivN (p.num 24 4) 10
      let ki := d.orFree (if ms.isEmpty then none
        else some (roundDivN (p.num 28 4 * per * i * 4096) (100000000 * v)))
      let st := ki.2.orFree (if ms.isEmpty then none else some (roundDivN (p.num 32 4 * per * 65536) (100000 * v)))
      ((if 255 < per then 0 else per) * 65536 + oneToByte ki.1 * 256 + oneToByte st.1, st.2)
  (putBit image.1 31 (p.byte 20 == 1), image.2)

/-- The parameters of a FEED_SHARE are in range: its members have one current and one voltage full scale (R214). -/
def Dev.shareFits (d : Dev) (p : Desc) : Bool :=
  let ms := shareNamed p
  let vfs := ms.map d.shareVfs
  p.byte 20 ≤ 1 && allSame (ms.map (fun f => d.scaleOf (some (40 + f)))) && allSame vfs && !vfs.contains 0
    && imageOk (FC_SHARE.reg p.idx) (d.shareImage p).1

/-- FEED_SHARE (R214, R215). -/
def specFeedShare : OpSpec where
  code := 0x32
  cls := clsShare
  count := 2
  stdOk := true
  expOk := true
  total := fun _ _ => 1
  params := fun c d => d.shareFits c
  begin := fun c d =>
    let s := c.desc.idx
    let p := c.desc
    let ms := shareNamed p
    let i := (ms.map (fun f => d.scaleOf (some (40 + f)))).headD 0
    let v := (ms.map d.shareVfs).headD 0
    if !d.shareFits p then d.finish c.fetch stBadParam []
    else
      let image := d.shareImage p
      let w := image.1
      let d1 := image.2.setImage (FC_SHARE.reg s) w
      let d2 := forAll (fun f d =>
        if ms.contains f then d.setField (FC_CTRL.reg f) 18 2 (s + 1)
        else if FC_CTRL.share_set d f = s + 1 then d.setField (FC_CTRL.reg f) 18 2 0 else d) (indices 4) d1
      let per := bitsOf w 16 8
      let g := d2.orFree (if ms.isEmpty then none
        else some (roundDivN (bitsOf w 8 8 * v * 100000000) (per * i * 4096)))
      let r := g.2.orFree (if ms.isEmpty then none else some (roundDivN (bitsOf w 0 8 * v * 100000) (per * 65536)))
      r.2.commitAll c.fetch stDone [g.1, r.1]

/-! ### FEED_SWITCH and FEED_CONFIGURE (R203, R207, R201, R202) -/

/-- FEED_SWITCH on (Table 7-1, R200, R203). -/
def Dev.feedSwitchOn (d : Dev) (k f : Nat) : Dev :=
  let join := fun (d : Dev) => d.modFeed f (fun x => { x with cmds := x.cmds ++ [k] })
  let zero := fun (d : Dev) => d.modFeed f (fun x => { x with retries := 0 })
  match (d.feed f).state with
  | .on | .blocked => d.commitAll k stDone []
  | .inrush => (join d).commit k 2
  | .starting => if (d.slot (slotFeed f)).state = .holding then (join d).commit k 1 else join d
  | .off =>
    if !d.feedReady f || d.slotBusy (slotFeed f) || d.noStarts then d.finish k stRejected []
    else if 0 < d.holdLeft (d.feed f).hold then
      ((join (zero d)).modFeed f (fun x => { x with wanted := true })).feedEnter f .tripped
    else (join (zero d)).feedStart f .fresh
  | .tripped =>
    if !d.feedReady f || d.noStarts then d.finish k stRejected []
    else ((join (zero d)).modFeed f (fun x => { x with wanted := true })).feedRetry f
  | .locked =>
    if !d.feedReady f || d.slotBusy (slotFeed f) || d.noStarts then d.finish k stRejected []
    else (join (zero d)).feedStart f .fresh

/-- FEED_SWITCH off (Table 7-1, R207): gates off, a stored hold-off kept. -/
def Dev.feedSwitchOff (d : Dev) (k f : Nat) : Dev :=
  if (d.feed f).state = .off then d.commitAll k stDone []
  else (((d.release (slotFeed f)).feedEnter f .off).feedEnd f stSuperseded).commitAll k stDone []

/-- FEED_SWITCH (R207, R208). -/
def specFeedSwitch : OpSpec where
  code := 0x31
  cls := clsFeed
  count := 4
  stdOk := true
  expOk := false
  total := fun c _ => if c.byte 20 = 1 then 3 else 1
  inSlw := fun c => c.byte 20 == 0
  preempt := fun c => c.byte 20 == 0
  params := fun c _ => c.byte 20 ≤ 1
  begin := fun c d =>
    if c.desc.byte 20 = 1 then d.feedSwitchOn c.fetch c.desc.idx else d.feedSwitchOff c.fetch c.desc.idx
  resume := fun c d =>
    let f := c.desc.idx
    match (d.feed f).state, c.desc.byte 20 with
    | .on, 1 => some (d.commitAll c.fetch stDone [])
    | .starting, 1 => if c.done = 1 then some (d.feedSwitchOn c.fetch f) else none
    | .inrush, 1 => some (d.feedSwitchOn c.fetch f)
    | _, _ => none

/-- The registers of FEED_CONFIGURE. -/
def feedRegs (f : Nat) : List Nat := (indices 9).map (fun j => 0x3800 + 0x40 * f + 4 * j)

/-- A physical word as a code: nearest, ties away from zero (R395); `none` without a full scale. -/
def nearest (v scale fs : Nat) : Option Int := if fs = 0 then none else some (roundDivN (v * scale) fs : Nat)

/-- The Standard parameters of FEED_CONFIGURE's fields (R209, R394): voltage fields in mV, current fields in mA. -/
def Dev.feedConv (d : Dev) (f off : Nat) (x : Field) (v : Nat) : Option Int :=
  let vfs := d.scaleOf (d.feedVout f)
  let ifs := d.fsOf (40 + f)
  let tm := d.resultPeriod (40 + f)
  match (off - 0x3800) % 0x40, x.lo with
  | 0x04, _ => nearest v 65536 vfs
  | 0x08, 24 => nearest v 4096 vfs
  | 0x0C, 24 => nearest v 8192 vfs
  | 0x0C, 8 => nearest v 1024 vfs
  | 0x0C, 0 => nearest v 1024 ifs
  | 0x10, 16 => nearest v 65536 vfs
  | 0x10, 8 => nearest v 256 ifs
  | 0x18, _ => some (roundDivN (v * 65536) 1000 : Nat)
  | 0x1C, _ => nearest tm 65536 (v * ticksPerUs)
  | 0x20, 8 => some (signedOf 32 v)
  | _, _ => some v

/-- Cross-field limits of a feed's registers (Tables 7-4, 7-6, 7-11), each where `gives` has one of its fields by register
and lowest bit (R395). -/
def Dev.feedRegsOk (d : Dev) (f : Nat) (gives : Nat → Nat → Bool) : Bool :=
  let pair := fun (off a b : Nat) => gives off a || gives off b
  (!pair (FC_VOLT.reg f) 16 0 || FC_VOLT.uv_thr d f < FC_VOLT.warn_thr d f)
    && (!pair (FC_ORING.reg f) 24 8 || FC_ORING.on_dv d f < 8 * FC_ORING.inrush_dv d f)
    && (!pair (FC_SOA_T.reg f) 24 16 || FC_SOA_T.soa_restart d f < FC_SOA_T.soa_trip d f)

/-- What a FEED_CONFIGURE gives: its images and the code of CP120 + f (R201), `none` where a word has no code. -/
def Dev.feedGiven (d : Dev) (p : Desc) : Option (List (Nat × Nat) × Nat) :=
  let f := p.idx
  if p.expert then some (p.images (feedRegs f), p.bufWord 9)
  else
    let fl := fieldList (feedRegs f)
    let fs := d.fsOf (40 + f)
    let code := if fs = 0 then 0 else p.bufWord fl.length * 1024 / fs
    (standardImages (d.feedConv f) d.reg 0 p.given fl []).map (fun ims => (ims, code))

/-- The parameters of a FEED_CONFIGURE are in range (R5, R201). -/
def Dev.feedFits (d : Dev) (p : Desc) : Bool :=
  let n := if p.expert then 9 else (fieldList (feedRegs 0)).length
  match d.feedGiven p with
  | none => false
  | some (ims, code) =>
    4 * (n + 1) ≤ p.length.toNat && p.imagesFit ims
      && (d.setImages ims).feedRegsOk p.idx (p.gives (fieldList (feedRegs p.idx))) && 1 ≤ code && code ≤ 1023

/-- The images of a FEED_CONFIGURE take effect, with the reverse trip and its row (R201, R202); FC_CTRL.fwarn_en acts at
once (R216). -/
def Dev.feedConfigured (d : Dev) (k f code : Nat) (ims : List (Nat × Nat)) : Dev :=
  let n := 120 + f
  let d2 := ((d.setImages ims).setThreshold n code).setField (FTA_CP_CFG.reg n) 23 2 0
  let d3 := (d2.nameColumn n (colFeed f)).feedWarn f
  d3.commitAll k stDone [code, roundDivN (code * d.fsOf (40 + f)) 1024]

/-- FEED_CONFIGURE (R201, R202, R209). -/
def specFeedConfigure : OpSpec where
  code := 0x30
  cls := clsFeed
  count := 4
  stdOk := true
  expOk := true
  total := fun _ _ => 1
  params := fun c d => d.feedFits c
  begin := fun c d =>
    let f := c.desc.idx
    if !(d.feed f).state.stopped then d.finish c.fetch stRejected []
    else match d.feedGiven c.desc with
      | none => d.finish c.fetch stBadParam []
      | some (ims, code) =>
        if d.feedFits c.desc then d.feedConfigured c.fetch f code ims else d.finish c.fetch stBadParam []

/-! ### Starts (R203, R213) -/

/-- A start reads the feed's hold-off record (R213). -/
def Dev.feedAtStart (d : Dev) (f : Nat) : Dev :=
  let h := d.readHold (d.feed f).hold
  if !h.live then d
  else
    let d1 := d.modFeed f (fun x => { x with hold := h, retries := h.retries })
    if 0 < d1.holdLeft h then
      d1.raise 0x0144 clsC (96 + f) (d1.holdMs h) (flag (h.calValid && d.ka.coming.valid))
    else if FC_RETRY.retry_max d f = h.retries ∧ h.retries ≠ 15 then
      d1.modFeed f (fun x => { x with state := .locked, cause := h.cause })
    else d1

/-- A start with auto_on set (Table 7-1); a feed without its converters stays OFF. -/
def Dev.feedAuto (d : Dev) (f : Nat) : Dev :=
  if FC_CTRL.auto_on d f = 0 ∨ (d.feed f).state ≠ .off ∨ d.noStarts = true then d
  else if 0 < d.holdLeft (d.feed f).hold then
    (d.modFeed f (fun x => { x with cause := x.hold.cause })).feedEnter f .tripped
  else if d.feedReady f then d.feedStart f .fresh
  else d

end Sys2Proof.Machine
end

