-- ==== Sys2Proof/Machine/Branches.lean ====
section
/-! DEFINITION. Branch channels and banks (spec/08_branch_channels.md R218 to R238; spec/15 Table 15-4). -/
namespace Sys2Proof.Machine

/-! ### Branch file, results and scale (R219, R221) -/

/-- Branch `n`. -/
def Dev.branch (d : Dev) (n : Nat) : Branch := fileGet d.branches n default
/-- Change branch `n`. -/
def Dev.modBranch (d : Dev) (n : Nat) (g : Branch → Branch) : Dev := { d with branches := fileMod d.branches n g }

/-- Coding of BC_CTRL.state. -/
def BranchState.code : BranchState → Nat
  | .off => 0 | .starting => 1 | .ramp => 2 | .on => 3 | .limiting => 4 | .tripped => 5 | .locked => 6

/-- A branch is stopped in OFF, TRIPPED and LOCKED (Table 18-3). -/
def BranchState.stopped : BranchState → Bool
  | .off => true
  | .tripped => true
  | .locked => true
  | _ => false

/-- A branch conducts in RAMP, ON and LIMITING. -/
def BranchState.conducts : BranchState → Bool
  | .ramp => true
  | .on => true
  | .limiting => true
  | _ => false

/-- The latest code of a housekeeping input, if it has one (R491). -/
def Dev.hkCode (d : Dev) (i : Nat) : Option Nat := fileGet d.house.codes i none

/-- Branch current in 2^-16 mA (R219). -/
def Dev.branchI (d : Dev) (n : Nat) : Nat := (d.hkCode n).getD 0 * BC_SCALE.fs d n
/-- Branch output voltage in 2^-16 mV. -/
def Dev.branchV (d : Dev) (n : Nat) : Nat := (d.hkCode (24 + n)).getD 0 * 80000
/-- The bus converter of a branch's bank. -/
def Dev.busConv (d : Dev) (n : Nat) : Nat := BC_BANK_CFG.bus_conv d (BC_CTRL.bank d n)
/-- V_bus in 2^-16 mV. -/
def Dev.branchBus (d : Dev) (n : Nat) : Int := (d.sar (d.busConv n)).result * 2 * (d.fsOf (d.busConv n) : Int)
/-- V_bus - V_out in 2^-16 mV. -/
def Dev.branchDiff (d : Dev) (n : Nat) : Int := d.branchBus n - (d.branchV n : Int)
/-- V_bus - V_out lies below on_dv, in units of 10 mV. -/
def Dev.rampedUp (d : Dev) (n : Nat) : Bool := d.branchDiff n < (BC_RAMP.on_dv d n * 10 * 65536 : Nat)

/-- A housekeeping input is named by an enabled entry within the sequence (R74). -/
def Dev.hkListed (d : Dev) (input : Nat) : Bool :=
  (indices (MA_HK_CTRL.len d)).any (fun i => MA_HK_SEQ.en d i == 1 && MA_HK_SEQ.input d i == input)

/-- R221: the bank names a running bus converter and both inputs are in the sequence. -/
def Dev.branchReady (d : Dev) (n : Nat) : Bool :=
  MA_CH_CFG.en d (d.busConv n) == 1 && d.hkListed n && d.hkListed (24 + n)

/-- Both inputs have a result since the start (R491). -/
def Dev.branchSeen (d : Dev) (n : Nat) : Bool := (d.hkCode n).isSome && (d.hkCode (24 + n)).isSome

/-- The current limit in mA (R219). -/
def Dev.branchLimit (d : Dev) (n : Nat) : Nat := roundDivN (BC_LIMIT.ilim d n * BC_SCALE.fs d n) 1024

/-- The catch point code of a limit (R219). -/
def tripCode (ilim mult : Nat) : Nat := ilim * mult / 8

/-! ### Transitions (Table 8-1) -/

/-- The branch enters a state; what the state before had due at a model step goes, a latch only with conduction. Its
charge pump runs on while it conducts (R226), and the ramp reference of RAMP starts at the present V_out (R228). -/
def Dev.branchEnter (d : Dev) (n : Nat) (s : BranchState) : Dev :=
  d.modBranch n (fun x =>
    let y := { x with state := s, since := d.now, awaiting := false, limDue := false, rampDue := false, gateDue := false,
                      pump := s.conducts, rampFrom := if s = .ramp then d.branchV n * 1000 else x.rampFrom,
                      rampAt := if s = .ramp then d.now else x.rampAt }
    if s.conducts then y else { y with lim := false, letGo := none, latchDue := 0 })

/-- The ramp of a branch now at a rate, in 2^-16 µV: it rises by rate / 1000 mV each microsecond (R228). -/
def Dev.branchRamp (d : Dev) (n rate : Nat) : Nat :=
  let x := d.branch n
  x.rampFrom + rate * 65536 * ((d.now - x.rampAt) / ticksPerUs)

/-- The ramp reference of a branch in RAMP now, in 2^-16 µV: no further than V_bus (R228). -/
def Dev.branchReference (d : Dev) (n : Nat) : Int :=
  min (d.branchBus n * 1000) (d.branchRamp n (BC_RAMP.ramp_rate d n) : Int)

/-- A new ramp_rate has been written: the reference rises on from where it stands after its last whole microsecond. -/
def Dev.branchRateWritten (d : Dev) (n oldRate : Nat) : Dev :=
  d.modBranch n (fun x => { x with rampFrom := d.branchRamp n oldRate, rampAt := d.now - (d.now - x.rampAt) % ticksPerUs })

/-- The drive of a branch's gate (R226, R228, R229): down whatever the state under a latched column. -/
def Dev.branchDrive (d : Dev) (n : Nat) : GateDrive :=
  let x := d.branch n
  if d.isLatched (colBranch n) || !x.state.conducts then .down
  else if x.lim then .limit (d.branchLimit n)
  else if x.state = .ramp then .ramp (d.branchReference n)
  else .enhanced

/-- Commands in flight end with a status. -/
def Dev.branchEnd (d : Dev) (n status : Nat) : Dev :=
  let ks := (d.branch n).cmds
  (d.modBranch n (fun x => { x with cmds := [], wanted := false })).finishAll ks status

/-- The branch enters TRIPPED, writing its hold-off record (R223, R235). -/
def Dev.branchTrip (d : Dev) (n cause status : Nat) : Dev :=
  let r := (d.branch n).retries
  let h := d.newHold (holdTicks (BC_RETRY.holdoff d n) (BC_RETRY.backoff d n) r) r cause
  let d1 := (d.release (slotBranch n)).modBranch n (fun x => { x with cause := cause, hold := h })
  ((d1.branchEnter n .tripped).branchEnd n status).wroteLearned.stored 0x12 (64 + n)

/-- The branch enters ON from STARTING or RAMP. -/
def Dev.branchOn (d : Dev) (n : Nat) : Dev :=
  let ks := (d.branch n).cmds
  let d1 := (d.release (slotBranch n)).modBranch n (fun x => { x with cmds := [], wanted := false })
  (d1.branchEnter n .on).doneAll ks

/-- The branch enters STARTING and asks for leave (R225). -/
def Dev.branchStart (d : Dev) (n : Nat) (from_ : StartFrom) : Dev :=
  let x := d.branch n
  let rank := match (x.cmds.head?.bind d.cmd).map (fun c => c.desc.ring.val) with
    | some r => ringRank r
    | none => 1
  let d1 := (d.modBranch n (fun x => { x with source := from_ })).branchEnter n .starting
  d1.request (slotBranch n) {
    rank := rank, surge := d.branchLimit n, gate := TO_DECL.pump_ma d,
    span := BC_RAMP.ramp_timeout d n * ticksPerMs, tagged := !x.cmds.isEmpty }

/-- A start that did not happen (R223). -/
def Dev.branchFailed (d : Dev) (n status : Nat) : Dev :=
  match (d.branch n).source with
  | .retry => d.branchTrip n (d.branch n).cause status
  | _ => ((d.release (slotBranch n)).branchEnter n .off).branchEnd n status

/-- A branch whose leave is held takes its row of Table 8-1, or waits for its inputs' first results (R491). -/
def Dev.branchGo (d : Dev) (n : Nat) : Dev :=
  if !d.branchSeen n then d.modBranch n (fun x => { x with awaiting := true })
  else if d.colHeld (colBranch n) then d.branchFailed n stRejected
  else
    let d1 := d.clearLatch (colBranch n)
    let d2 := forAll (fun k d => d.commit k 2) (d.branch n).cmds d1
    if d.rampedUp n then d2.branchOn n else d2.branchEnter n .ramp

/-- Leave is granted to a branch. -/
def Dev.branchGranted (d : Dev) (n : Nat) : Dev :=
  if (d.branch n).state ≠ .starting then d.release (slotBranch n)
  else (forAll (fun k d => d.commit k 1) (d.branch n).cmds (d.modBranch n (fun x => { x with pump := true }))).branchGo n

/-- No leave within the timeout. -/
def Dev.branchGaveUp (d : Dev) (n : Nat) : Dev :=
  if (d.branch n).state = .starting then d.branchFailed n stTokenTimeout else d

/-- The retry policy allows a retry (Table 8-3). -/
def Dev.branchMayRetry (d : Dev) (n retries cause : Nat) : Bool :=
  let p := BC_CTRL.policy d n
  let most := BC_RETRY.retry_max d n
  p != 0 && !(p == 2 && (cause == 1 || cause == 2)) && (most == 15 || retries < most)

/-- A branch that Single-Line Working sheds: it holds it from entry on, also before its turn (R327; DEDUCED, log
entry 151). -/
def Dev.slwHoldsBranch (d : Dev) (n : Nat) : Bool := d.il.slw && !bitOf (IL_SLW_BR.br_keep d) n

/-- A branch may not start: a rank above the commands holds it (R17, R18). -/
def Dev.branchHeld (d : Dev) (n : Nat) : Bool := d.noStarts || d.slwHoldsBranch n

/-- TRIPPED, or LOCKED with a BRANCH_RETRY that waits (Table 8-1). -/
def Branch.retryOpen (x : Branch) : Bool := x.state == .tripped || (x.state == .locked && x.wanted)

/-- A branch whose hold-off has ended retries, starts for a BRANCH_RETRY that waits, or locks (Table 8-1, R234). A
BRANCH_SWITCH on that waits since OFF takes the rows of TRIPPED; where the policy allows no retry it is rejected (log
entry 114), and a start of its that does not happen leads to OFF (R223). -/
def Dev.branchRetry (d : Dev) (n : Nat) : Dev :=
  let x := d.branch n
  let cool := decide (x.t1 ≤ degrees (BC_TH_T.tj_restart d n))
  if x.retryOpen = false ∨ 0 < d.holdLeft x.hold ∨ d.branchHeld n = true then d
  else if x.wanted then if cool then d.branchStart n .fresh else d
  else if !d.branchMayRetry n x.retries x.cause then
    ((d.branchEnter n .locked).raise 0x0131 clsB (64 + n) x.cause x.retries).branchEnd n stRejected
  else if cool then
    (d.modBranch n (fun x => { x with retries := held 15 (x.retries + 1) })).branchStart n
      (if x.cmds.isEmpty then .retry else .fresh)
  else d

/-- A column latch reaches its branch: the gate is down at once, and the state follows at the next model step (R224). -/
def Dev.branchLatched (d : Dev) (n : Nat) : Dev :=
  let x := d.branch n
  let cause := if x.state = .ramp then 1 else 2
  if x.state.conducts && x.latchDue == 0 then d.modBranch n (fun x => { x with latchDue := cause }) else d

/-- A stop line, or a shedding, turns a branch off (Table 8-1, R237). -/
def Dev.branchStop (d : Dev) (n : Nat) : Dev :=
  if (d.branch n).state = .off then d
  else
    let d1 := (d.release (slotBranch n)).modBranch n (fun x => { x with cause := 7 })
    (d1.branchEnter n .off).branchEnd n stAborted

/-! ### The model step (R224, R231, R233) -/

/-- Dissipation in 2^-32 µW (R231). -/
def Dev.branchPower (d : Dev) (n : Nat) : Nat :=
  let x := d.branch n
  let dv := (d.branchDiff n).toNat
  if !x.state.conducts then 0
  else if x.lim then dv * (BC_LIMIT.ilim d n * BC_SCALE.fs d n * 64)
  else if x.state = .ramp then dv * d.branchI n
  else roundDivN (d.branchI n * d.branchI n * BC_TH_R3.rds d n) 100000

/-- Heat that a flow through `r` carries in one step, in 2^-32 K of a node with rate `k`. -/
def heatStep (dt : Int) (r k : Nat) : Int := divUp (dt * (k : Int)) ((r * 65536 : Nat) : Int)

/-- One step of the three-node ladder (R231). -/
def Dev.branchModel (d : Dev) (n : Nat) : Dev :=
  let x := d.branch n
  let p := d.branchPower n
  let tref := d.trefOf (BC_CTRL.tref_src d n) (BC_CTRL.th_idx d n) (BC_TH_T.tref_fix d n)
  let r1 := BC_TH_R.r1 d n
  let r2 := BC_TH_R.r2 d n
  let r3 := BC_TH_R3.r3 d n
  let k1 := BC_TH_K1.k d n
  let k2 := BC_TH_K2.k d n
  let k3 := BC_TH_K3.k d n
  let t1 := x.t1 + divUp ((p * k1 : Nat) : Int) ((2 ^ 28 * 1000000 : Nat) : Int) - heatStep (x.t1 - x.t2) r1 k1
  let t2 := x.t2 + heatStep (x.t1 - x.t2) r1 k2 - heatStep (x.t2 - x.t3) r2 k2
  let t3 := x.t3 + heatStep (x.t2 - x.t3) r2 k3 - heatStep (x.t3 - tref) r3 k3
  d.modBranch n (fun x => { x with t1 := t1, t2 := t2, t3 := t3, p := p })

/-- A detection of a branch (R224). -/
def Dev.branchReport (d : Dev) (n code : Nat) : Dev :=
  d.report (det code (64 + n) 0x42 accMeasure (detAddr 0x03 n))

/-- The exits to TRIPPED that are due, in the order of R224. -/
def Dev.branchExits (d : Dev) (n : Nat) : Dev :=
  let x := d.branch n
  if !x.state.conducts then d
  else if x.latchDue ≠ 0 then d.branchTrip n x.latchDue stAborted
  else if degrees (BC_TH_T.tj_trip d n) < x.t1 then (d.branchReport n 0x2A).branchTrip n 5 stAborted
  else if x.limDue then (d.branchReport n 0x29).branchTrip n 4 stAborted
  else if x.rampDue then (d.branchReport n 0x28).branchTrip n 3 stAborted
  else if x.gateDue then (d.branchReport n 0x2B).branchTrip n 6 stAborted
  else d

/-- A stopped bus converter of a branch that is not OFF is reported once while it stays stopped (R221). -/
def Dev.branchMissing (d : Dev) (n : Nat) : Dev :=
  let c := d.busConv n
  let gone := (d.branch n).state != .off && MA_CH_CFG.en d c == 0
  if !gone then d.modBranch n (fun x => { x with told := [] })
  else if (d.branch n).told.contains c then d
  else (d.modBranch n (fun x => { x with told := [c] })).report (det 0x05 (64 + n) 0x42 accMeasure (detAddr 0x01 c))

/-- The amplifier holds the gate of a branch that is ON: LIMITING, with its timer, count and event (Table 8-1, R230). -/
def Dev.branchLimits (d : Dev) (n : Nat) : Dev :=
  ((d.branchEnter n .limiting).modBranch n (fun x =>
    { x with limFrom := d.now, limits := (x.limits + 1) % 2 ^ 32 })).raiseLimited 0x0130 clsC (64 + n)
      (BranchState.code .on) 0

/-- BRANCH_MODEL_STEP: one step of Tb of branch `n` (R224, R231, Table 8-1). -/
def branchModelStep (n : Fin 24) (d : Dev) : Dev :=
  if !d.coreRuns then d
  else
    let d1 := ((d.branchMissing n).branchModel n).branchExits n
    match (d1.branch n).state with
    | .ramp => if d1.rampedUp n then d1.branchOn n else d1
    | .on => if (d1.branch n).lim then d1.branchLimits n else d1
    | .tripped | .locked => d1.branchRetry n
    | _ => d1

/-! ### Current limit and timers (R224, R229, R230) -/

/-- BRANCH_LIMIT_ENGAGE: the current-limit amplifier takes the gate (R229, R230). -/
def branchLimitEngage (n : Fin 24) (d : Dev) : Dev :=
  let x := d.branch n
  if !d.coreRuns || !x.state.conducts then d
  else
    let d1 := d.modBranch n (fun x => { x with lim := true, letGo := none })
    if x.state = .on then d1.branchLimits n else d1

/-- BRANCH_LIMIT_RELEASE: the amplifier lets go of the gate, or, with `through`, has let go for 100 µs (Table 8-1). -/
def branchLimitRelease (n : Fin 24) (through : Bool) (d : Dev) : Dev :=
  let x := d.branch n
  if !d.coreRuns || !x.state.conducts then d
  else if !through then
    if x.lim then d.modBranch n (fun x => { x with lim := false, letGo := some d.now }) else d
  else
    let d1 := (d.until ((x.letGo.getD d.now) + 100 * ticksPerUs)).modBranch n (fun x =>
      { x with lim := false, letGo := none })
    if x.state = .limiting then d1.branchEnter n .on else d1

/-- GATE_UNDERDRIVE: the gate-source voltage has stayed below 7.0 V for 100 µs; the exit is due at the next model
step. -/
def gateUnderdrive (n : Fin 24) (d : Dev) : Dev :=
  if d.coreRuns && (d.branch n).state == .on then d.modBranch n (fun x => { x with gateDue := true }) else d

/-- LIMIT_TIMEOUT: lim_time has passed on the limit timer; the exit is due at the next model step. -/
def limitTimeout (n : Fin 24) (d : Dev) : Dev :=
  if d.coreRuns && (d.branch n).state == .limiting then
    (d.until ((d.branch n).limFrom + BC_LIMIT.lim_time d n * ticksPerMs)).modBranch n (fun x =>
      { x with limDue := true })
  else d

/-- RAMP_TIMEOUT: ramp_timeout has passed since the ramp started; the exit is due at the next model step. -/
def rampTimeout (n : Fin 24) (d : Dev) : Dev :=
  if d.coreRuns && (d.branch n).state == .ramp then
    (d.until ((d.branch n).since + BC_RAMP.ramp_timeout d n * ticksPerMs)).modBranch n (fun x =>
      { x with rampDue := true })
  else d

/-- BRANCH_HOLDOFF_END (R235). -/
def branchHoldoffEnd (n : Fin 24) (d : Dev) : Dev :=
  if d.coreRuns && (d.branch n).hold.live && (d.branch n).retryOpen then
    (d.until (d.branch n).hold.endUp).branchRetry n
  else d

/-- BRANCH_RETRY_CLEAR (R235). -/
def branchRetryClear (n : Fin 24) (d : Dev) : Dev :=
  if d.coreRuns && (d.branch n).state == .on then
    (d.until ((d.branch n).since + BC_RETRY.retry_clear d n * ticksPerS)).modBranch n (fun x => { x with retries := 0 })
  else d

/-! ### Banks (R222) -/

/-- Change bank `b`. -/
def Dev.modBank (d : Dev) (b : Nat) (g : Bank → Bank) : Dev := { d with banks := fileMod d.banks b g }

/-- BANK_CHECK: the millisecond check of bank `b`; sums compared in 2^-16 mA. -/
def bankCheck (b : Fin 4) (d : Dev) : Dev :=
  if !d.coreRuns || BC_BANK_CFG.en d b == 0 then d
  else
    let c := BC_BANK_CFG.sum_conv d b
    let ms := (indices 24).filter (fun n => BC_CTRL.bank d n == b && (d.branch n).state != .off)
    let whole : Int := (d.sar c).filtered * 2 * (d.fsOf c : Int)
    let parts := (ms.map d.branchI).sum
    let far := decide (BC_BANK_CFG.tol d b * 64 * d.fsOf c < (whole - (parts : Int)).natAbs)
    let sum := roundDiv whole 65536
    let total := roundDivN parts 65536
    let was := fileGet d.banks b default
    let count := if far then held 255 (was.count + 1) else 0
    let hit := far && decide (BC_BANK_CFG.bank_persist d b ≤ count)
    let d1 := d.modBank b (fun _ => ⟨hit || (far && was.mismatch), count, sum, total⟩)
    if hit && !was.mismatch then d1.raise 0x0133 clsB (88 + b) (unsignedOf 32 sum) (total % 2 ^ 32) else d1

/-! ### Commands -/

/-- BRANCH_SWITCH on (Table 8-1, R221, R223). -/
def Dev.branchSwitchOn (d : Dev) (k n : Nat) : Dev :=
  let join := fun (d : Dev) => d.modBranch n (fun x => { x with cmds := x.cmds ++ [k] })
  match (d.branch n).state with
  | .ramp | .on | .limiting => d.commitAll k stDone []
  | .tripped | .locked => d.finish k stRejected []
  | .starting =>
    if (d.branch n).awaiting ∨ (d.slot (slotBranch n)).state = .holding then (join d).commit k 1 else join d
  | .off =>
    if !d.branchReady n || d.slotBusy (slotBranch n) || d.branchHeld n then d.finish k stRejected []
    else
      let d1 := (join d).modBranch n (fun x => { x with retries := 0 })
      if 0 < d.holdLeft (d.branch n).hold then d1.branchEnter n .tripped else d1.branchStart n .fresh

/-- BRANCH_SWITCH off (Table 8-1, R236). -/
def Dev.branchSwitchOff (d : Dev) (k n : Nat) : Dev :=
  if (d.branch n).state = .off then d.commitAll k stDone []
  else (((d.release (slotBranch n)).branchEnter n .off).branchEnd n stSuperseded).commitAll k stDone []

/-- Whether a start still carries a command past its committed stages (R387), and what joining it does. -/
def Dev.branchRejoin (d : Dev) (c : OpenCmd) : Option Dev :=
  let n := c.desc.idx
  let join := d.modBranch n (fun x => { x with cmds := x.cmds ++ [c.fetch] })
  match (d.branch n).state with
  | .on | .limiting => some (d.commitAll c.fetch stDone [])
  | .ramp => some (join.commit c.fetch 2)
  | .starting => if c.done = 1 then some join else none
  | _ => none

/-- A resumed command with no stage committed finds the start, or the wait for one, that its closed command left
(R387). -/
def Dev.branchLeft (d : Dev) (c : OpenCmd) : Bool :=
  let x := d.branch c.desc.idx
  c.resumed
    && (x.state == .starting || ((x.state == .tripped || x.state == .locked) && (x.wanted || !x.cmds.isEmpty)))
    && x.cmds.all (fun k => d.gone (some k))

/-- It takes over that start; stage 1 commits at once where leave is held. -/
def Dev.branchTake (d : Dev) (k n : Nat) : Dev :=
  let d1 := d.modBranch n (fun x => { x with cmds := x.cmds ++ [k] })
  if (d.branch n).state = .starting ∧ ((d.branch n).awaiting = true ∨ (d.slot (slotBranch n)).state = .holding) then
    d1.commit k 1
  else d1

/-- BRANCH_SWITCH (R236, R237). -/
def specBranchSwitch : OpSpec where
  code := 0x21
  cls := clsBranch
  count := 24
  stdOk := true
  expOk := false
  total := fun c _ => if c.byte 20 = 1 then 3 else 1
  inSlw := fun c => c.byte 20 == 0
  preempt := fun c => c.byte 20 == 0
  params := fun c _ => c.byte 20 ≤ 1
  begin := fun c d =>
    if c.desc.byte 20 = 1 then
      if d.branchLeft c then d.branchTake c.fetch c.desc.idx else d.branchSwitchOn c.fetch c.desc.idx
    else d.branchSwitchOff c.fetch c.desc.idx
  resume := fun c d => if c.desc.byte 20 = 1 then d.branchRejoin c else none

/-- BRANCH_RETRY (R236, R237). -/
def specBranchRetry : OpSpec where
  code := 0x22
  cls := clsBranch
  count := 24
  stdOk := true
  expOk := false
  total := fun _ _ => 3
  params := fun _ _ => true
  begin := fun c d =>
    let n := c.desc.idx
    let st := (d.branch n).state
    if d.branchLeft c then d.branchTake c.fetch n
    else if (st ≠ .tripped ∧ st ≠ .locked) ∨ d.branchReady n = false ∨ d.slotBusy (slotBranch n) = true ∨ d.branchHeld n = true
    then d.finish c.fetch stRejected []
    else
      let d1 := d.modBranch n (fun x => { x with retries := 0, wanted := true, cmds := x.cmds ++ [c.fetch] })
      d1.branchRetry n
  resume := fun c d => d.branchRejoin c

/-- The registers of BRANCH_CONFIGURE. -/
def branchRegs (n : Nat) : List Nat := (indices 11).map (fun j => 0x3C00 + 0x40 * n + 4 * j)

/-- The full scale a Standard BRANCH_CONFIGURE leaves: its sixth word is the shunt in µΩ (Table 8-4). -/
def Dev.branchFs (d : Dev) (n : Nat) (c : Desc) : Nat :=
  match c.given 5 with
  | .unchanged => BC_SCALE.fs d n
  | .value rs => if rs = 0 then 0 else 100000000 / rs

/-- The derivations of Table 8-4. -/
def branchConv (fs off : Nat) (x : Field) (v : Nat) : Option Int :=
  match (off - 0x3C00) % 0x40, x.lo with
  | 0x04, _ => some (fs : Int)
  | 0x08, 22 => if fs = 0 then none else some ((v * 1024 / fs : Nat) : Int)
  | 0x0C, 8 => some (roundDivN v 10 : Nat)
  | 0x10, 0 => some (ceilDiv v 10 : Nat)
  | 0x14, _ => some (roundDivN (v * 4096) 1000 : Nat)
  | 0x18, 16 => some (roundDivN (v * 4096) 1000 : Nat)
  | 0x18, _ => some (roundDivN v 10 : Nat)
  | 0x1C, _ | 0x20, _ | 0x24, _ => if v = 0 then none else some (roundDivN (2 ^ 28) (v * 100) : Nat)
  | 0x28, 8 => some (signedOf 32 v)
  | _, _ => some v

/-- The limits of R232 on a branch's thermal rates; k in 2^-28, r in 2^-12. -/
def Dev.branchRatesOk (d : Dev) (n : Nat) : Bool :=
  let r1 := BC_TH_R.r1 d n
  let r2 := BC_TH_R.r2 d n
  let r3 := BC_TH_R3.r3 d n
  2 * BC_TH_K1.k d n ≤ r1 * 65536
    && 2 * BC_TH_K2.k d n * (r1 + r2) ≤ r1 * r2 * 65536
    && 2 * BC_TH_K3.k d n * (r2 + r3) ≤ r2 * r3 * 65536

/-- Cross-field limits of a branch's registers (R232, Tables 8-10 and 8-16), each where `gives` has one of its fields by
register and lowest bit (R395). -/
def Dev.branchRegsOk (d : Dev) (n : Nat) (gives : Nat → Nat → Bool) : Bool :=
  let any := fun (xs : List (Nat × Nat)) => xs.any (fun x => gives x.1 x.2)
  (!any [(BC_TH_R.reg n, 16), (BC_TH_R.reg n, 0), (BC_TH_R3.reg n, 16), (BC_TH_K1.reg n, 0), (BC_TH_K2.reg n, 0),
         (BC_TH_K3.reg n, 0)] || d.branchRatesOk n)
    && (!any [(BC_TH_T.reg n, 24), (BC_TH_T.reg n, 16)] || BC_TH_T.tj_restart d n < BC_TH_T.tj_trip d n)
    && (!any [(BC_LIMIT.reg n, 22), (BC_LIMIT.reg n, 16)] || tripCode (BC_LIMIT.ilim d n) (BC_LIMIT.mult d n) ≤ 1023)

/-- The images a BRANCH_CONFIGURE gives, `none` where a word has no code. -/
def Dev.branchGiven (d : Dev) (p : Desc) : Option (List (Nat × Nat)) :=
  let n := p.idx
  if p.expert then some (p.images (branchRegs n))
  else standardImages (branchConv (d.branchFs n p)) d.reg 0 p.given (fieldList (branchRegs n)) []

/-- The parameters of a BRANCH_CONFIGURE are in range (R5, R232, R238). -/
def Dev.branchFits (d : Dev) (p : Desc) : Bool :=
  let n := if p.expert then 11 else (fieldList (branchRegs 0)).length
  match d.branchGiven p with
  | none => false
  | some ims =>
    4 * n ≤ p.length.toNat && p.imagesFit ims
      && (d.setImages ims).branchRegsOk p.idx (p.gives (fieldList (branchRegs p.idx)))

/-- The images of a BRANCH_CONFIGURE take effect, with the fast trip and its row (R219, R220, R238). -/
def Dev.branchConfigured (d : Dev) (k n : Nat) (ims : List (Nat × Nat)) : Dev :=
  let d1 := d.setImages ims
  let code := tripCode (BC_LIMIT.ilim d1 n) (BC_LIMIT.mult d1 n)
  let d2 := (d1.setThreshold (96 + n) code).setField (FTA_CP_CFG.reg (96 + n)) 23 2 0
  let d3 := d2.nameColumn (96 + n) (colBranch n)
  d3.commitAll k stDone [d3.branchLimit n, roundDivN (code * BC_SCALE.fs d3 n) 1024, BC_RAMP.ramp_rate d3 n]

/-- BRANCH_CONFIGURE (R238). -/
def specBranchConfigure : OpSpec where
  code := 0x20
  cls := clsBranch
  count := 24
  stdOk := true
  expOk := true
  total := fun _ _ => 1
  params := fun c d => d.branchFits c
  begin := fun c d =>
    let n := c.desc.idx
    if !(d.branch n).state.stopped then d.finish c.fetch stRejected []
    else match d.branchGiven c.desc with
      | none => d.finish c.fetch stBadParam []
      | some ims =>
        if d.branchFits c.desc then d.branchConfigured c.fetch n ims else d.finish c.fetch stBadParam []

/-! ### Starts (R223, R233, R235) -/

/-- A start reads the branch's hold-off record and sets its thermal nodes (R233, R235). -/
def Dev.branchAtStart (d : Dev) (n : Nat) : Dev :=
  let h := d.readHold (d.branch n).hold
  let tref := d.trefOf (BC_CTRL.tref_src d n) (BC_CTRL.th_idx d n) (BC_TH_T.tref_fix d n)
  let left := d.holdLeft h
  let hot := if 0 < left then degrees (BC_TH_T.tj_trip d n) else tref
  let d1 := d.modBranch n (fun x => { x with t1 := hot, t2 := hot, t3 := tref })
  if !h.live then d1
  else
    let d2 := d1.modBranch n (fun x => { x with hold := h, retries := h.retries })
    if 0 < left then d2.raise 0x0132 clsC (64 + n) (d2.holdMs h) (flag (h.calValid && d.ka.coming.valid))
    else if !d.branchMayRetry n h.retries h.cause then
      d2.modBranch n (fun x => { x with state := .locked, cause := h.cause })
    else d2

/-- A start with auto_on set (Table 8-1). -/
def Dev.branchAuto (d : Dev) (n : Nat) : Dev :=
  if BC_CTRL.auto_on d n = 0 ∨ (d.branch n).state ≠ .off ∨ d.noStarts = true then d
  else if 0 < d.holdLeft (d.branch n).hold then
    (d.modBranch n (fun x => { x with cause := x.hold.cause })).branchEnter n .tripped
  else d.branchStart n .fresh

end Sys2Proof.Machine
end

