-- ==== Sys2Proof/Machine/Strings.lean ====
section
/-! DEFINITION. The battery shelf: strings, contactors, hold-up, the charge estimator and the charge limit
(spec/09_battery_shelf.md R239 to R264; spec/15 Table 15-5). -/
namespace Sys2Proof.Machine

/-! ### String file and measurements (R239, R241) -/

/-- String `s`. -/
def Dev.str (d : Dev) (s : Nat) : BString := fileGet d.strings s default
/-- Change string `s`. -/
def Dev.modStr (d : Dev) (s : Nat) (g : BString → BString) : Dev := { d with strings := fileMod d.strings s g }
/-- Change the estimator of string `s`. -/
def Dev.modEst (d : Dev) (s : Nat) (g : Estimator → Estimator) : Dev := d.modStr s (fun x => { x with est := g x.est })

/-- Coding of BSM_STR_CFG.state. -/
def StringState.code : StringState → Nat
  | .opened => 0 | .starting => 1 | .precharge => 2 | .closing => 3 | .connected => 4 | .opening => 5 | .faulted => 6

/-- A string is stopped in OPEN and FAULTED (Table 18-3). -/
def StringState.stopped : StringState → Bool
  | .opened => true
  | .faulted => true
  | _ => false

/-- V_str in 2^-16 mV. -/
def Dev.strV (d : Dev) (s : Nat) : Nat := (d.hkCode (56 + s)).getD 0 * 80000
/-- V_bus in 2^-16 mV. -/
def Dev.strBus (d : Dev) (s : Nat) : Int :=
  (d.sar (BSM_STR_CFG.bus_conv d s)).result * 2 * (d.fsOf (BSM_STR_CFG.bus_conv d s) : Int)
/-- |V_bus - V_str| in 2^-16 mV. -/
def Dev.strDiff (d : Dev) (s : Nat) : Nat := (d.strBus s - (d.strV s : Int)).natAbs
/-- The string current in 2^-15 mA. -/
def Dev.strI (d : Dev) (s : Nat) : Int :=
  match d.stringConv s with
  | some n => (d.sar n).result * (d.fsOf n : Int)
  | none => 0
/-- A voltage in units of 10 mV as 2^-16 mV. -/
def tenMv (v : Nat) : Nat := v * 655360
/-- A current in mA as 2^-15 mA. -/
def inMa (i : Nat) : Nat := i * 32768

/-- The role-6 converter of a string runs. -/
def Dev.strConvOn (d : Dev) (s : Nat) : Bool :=
  match d.stringConv s with
  | some n => MA_CH_CFG.en d n == 1
  | none => false
/-- R241. -/
def Dev.strReady (d : Dev) (s : Nat) : Bool :=
  d.strConvOn s && MA_CH_CFG.en d (BSM_STR_CFG.bus_conv d s) == 1 && d.hkListed (56 + s)
    && d.hkListed (60 + BSM_STR_CFG.th_idx d s)
/-- Both housekeeping inputs have a result since the start (R491). -/
def Dev.strSeen (d : Dev) (s : Nat) : Bool :=
  (d.hkCode (56 + s)).isSome && (d.hkCode (60 + BSM_STR_CFG.th_idx d s)).isSome

/-- A detection of a string (R243). -/
def Dev.strReport (d : Dev) (s code : Nat) : Dev := d.report (det code (104 + s) 0x42 accMeasure (detAddr 0x03 s))

/-! ### Transitions (Table 9-1) -/

/-- The string enters a state. -/
def Dev.strEnter (d : Dev) (s : Nat) (st : StringState) : Dev :=
  d.modStr s (fun x => { x with state := st, since := d.now, gapping := false, awaiting := false, dvRun := 0,
                                cutFrom := none, wait := none })

/-- The precharge drive turns off; pre_gap counts from here (R244). -/
def Dev.pcOff (d : Dev) (s : Nat) : Dev :=
  d.modStr s (fun x => { x with pc := false, shut := none, preEnd := if x.pc then d.now else x.preEnd })

/-- Both drives turn off, and held leave returns. -/
def Dev.drivesOff (d : Dev) (s : Nat) : Dev :=
  ((d.release (slotString s)).pcOff s).modStr s (fun x => { x with kd := false, held := false })

/-- The commands to connect end with a status. -/
def Dev.strEndOn (d : Dev) (s status : Nat) : Dev :=
  let ks := (d.str s).ons
  (d.modStr s (fun x => { x with ons := [] })).finishAll ks status

/-- The string enters OPENING with both drives off (R245): a command to connect ends, one to open commits its first
stage. -/
def Dev.strOpen (d : Dev) (s cause status : Nat) : Dev :=
  let d1 := ((d.drivesOff s).modStr s (fun x => { x with cause := cause })).strEnter s .opening
  forAll (fun k d => d.commit k 1) (d.str s).offs (d1.strEndOn s status)

/-- The string enters FAULTED. -/
def Dev.strFault (d : Dev) (s cause : Nat) : Dev :=
  let offs := (d.str s).offs
  let d1 := ((d.drivesOff s).modStr s (fun x => { x with cause := cause, offs := [] })).strEnter s .faulted
  (d1.strEndOn s stAborted).finishAll offs stAborted

/-- The string enters OPEN. -/
def Dev.strOpened (d : Dev) (s : Nat) : Dev :=
  let offs := (d.str s).offs
  ((d.modStr s (fun x => { x with offs := [] })).strEnter s .opened).doneAll offs

/-- The SURGE that a connect declares (R244): while V_str has no result since the start nothing takes a value from it
(R491), and the amount is free. -/
def Dev.strSurge (d : Dev) (s : Nat) : Nat × Dev :=
  d.orFree ((d.hkCode (56 + s)).map (fun _ => roundDivN (d.strDiff s * 10) (BSM_STR_PRE.pre_ohm d s * 65536)))

/-- STARTING asks for leave against SURGE and GATE (R244). -/
def Dev.strAsk (d : Dev) (s : Nat) : Dev :=
  let x := d.str s
  let rank := match (x.ons.head?.bind d.cmd).map (fun c => c.desc.ring.val) with
    | some r => ringRank r
    | none => 1
  let surge := d.strSurge s
  (surge.2.modStr s (fun x => { x with gapping := false })).request (slotString s) {
    rank := rank, surge := surge.1, gate := TO_DECL.coil_ma d,
    span := BSM_STR_PRE.pre_timeout d s * 100 * ticksPerMs, tagged := !x.ons.isEmpty }

/-- When pre_gap has passed since the last precharge. -/
def Dev.gapEnd (d : Dev) (s : Nat) : Nat := (d.str s).preEnd + BSM_STR_OPEN.pre_gap d s * ticksPerS

/-- A start from OPEN or FAULTED (Table 9-1): a closed contact is a weld. -/
def Dev.strStart (d : Dev) (s : Nat) : Dev :=
  if (d.str s).kas then (((d.strReport s 0x33).strEndOn s stRejected).strFault s 6)
  else
    let d1 := d.strEnter s .starting
    if d.now < d.gapEnd s then d1.modStr s (fun x => { x with gapping := true }) else d1.strAsk s

/-- A start that did not happen. -/
def Dev.strFailed (d : Dev) (s status : Nat) : Dev :=
  ((d.release (slotString s)).strEnter s .opened).strEndOn s status

/-- A string whose leave is held takes its row of Table 9-1, or waits for first results (R491). -/
def Dev.strGo (d : Dev) (s : Nat) : Dev :=
  if !d.strSeen s then d.modStr s (fun x => { x with awaiting := true })
  else if d.colHeld (colString s) then d.strFailed s stRejected
  else ((d.clearLatch (colString s)).strEnter s .precharge).modStr s (fun x => { x with pc := true })

/-- Leave is granted to a string. -/
def Dev.strGranted (d : Dev) (s : Nat) : Dev :=
  if (d.str s).state ≠ .starting then d.release (slotString s)
  else (forAll (fun k d => d.commit k 1) (d.str s).ons d).strGo s

/-- No leave within the timeout. -/
def Dev.strGaveUp (d : Dev) (s : Nat) : Dev :=
  if (d.str s).state = .starting then d.strFailed s stTokenTimeout else d

/-- A column latch reaches its string: any state but OPEN leads to OPENING (Table 9-1). -/
def Dev.strLatched (d : Dev) (s : Nat) : Dev :=
  match (d.str s).state with
  | .opened => d
  | .opening => d.modStr s (fun x => { x with cause := 3 })
  | _ => d.strOpen s 3 stAborted

/-- A stop line opens a string (Table 9-1). -/
def Dev.strStop (d : Dev) (s : Nat) : Dev :=
  match (d.str s).state with
  | .opened => d
  | .opening => d.modStr s (fun x => { x with cause := 2 })
  | _ => d.strOpen s 2 stAborted

/-- The contactor opens under load (R243, R246). -/
def Dev.loadBreak (d : Dev) (s : Nat) : Dev :=
  let d1 := (d.modStr s (fun x => { x with breaks := x.breaks + 1 })).wroteLearned
  let ma := unsignedOf 32 (roundDiv (d.strI s) 32768)
  let d2 := d1.raise 0x0156 clsB (104 + s) ma 0
  let n := (d1.str s).breaks
  if n % BSM_SHELF.wear_lim d = 0 then d2.raise 0x0157 clsC (104 + s) (n % 2 ^ 32) 0 else d2

/-- |I| is at or below open_i. -/
def Dev.openCurrent (d : Dev) (s : Nat) : Bool := (d.strI s).natAbs ≤ inMa (BSM_STR_OPEN.open_i d s * 1000)

/-- A CONNECTED string is told to open: it waits for a low current, for open_wait at most. -/
def Dev.strLeave (d : Dev) (s : Nat) : Dev :=
  if d.openCurrent s then d.strOpen s 1 stAborted
  else if BSM_STR_OPEN.open_wait d s = 0 then (d.loadBreak s).strOpen s 1 stAborted
  else if (d.str s).wait.isSome then d
  else d.modStr s (fun x => { x with wait := some (d.now + BSM_STR_OPEN.open_wait d s * 10 * ticksPerMs) })

/-- A string is turned off as STRING_CONNECT off does (Table 9-1). -/
def Dev.strOff (d : Dev) (s : Nat) : Dev :=
  match (d.str s).state with
  | .starting | .precharge | .closing => d.strOpen s 1 stSuperseded
  | .connected => d.strLeave s
  | _ => d

/-! ### Estimator arithmetic (R250 to R258) -/

/-- K = 2^23 * 3,600,000: charges are held in 1/K mAh. -/
def chargeUnit : Int := 30198988800000

/-- A charge in mAh, rounded towards zero (R250). -/
def inMah (q : Int) : Int := q.tdiv chargeUnit

/-- The capacity a string counts with: the checkpoint's, and never below 1/K mAh. -/
def Estimator.cap (x : Estimator) : Int := if x.c < 1 then 1 else x.c

/-- q / C to the nearest 2^-40. -/
def Estimator.ratio (x : Estimator) : Int := roundDiv (x.q * 2 ^ 40) x.cap

/-- `p` hundredths of a per cent to the nearest 2^-40. -/
def percentLevel (p : Int) : Int := roundDiv (p * 2 ^ 40) 10000

/-- q / C + e in 2^-40. -/
def Estimator.level (x : Estimator) : Int := x.ratio + x.e

/-- How q / C + e compares with `p` hundredths of a per cent, both to the nearest 2^-40. -/
def Estimator.exceeds (x : Estimator) (p : Int) : Int := x.level - percentLevel p

/-- The lower bound lo in 0.01 % (R255). -/
def Estimator.lo (x : Estimator) (floor : Nat) : Int := if x.low then 0 else floor

/-- The reported state of charge in 0.01 % (R255). -/
def Estimator.shown (x : Estimator) (floor : Nat) : Int :=
  clampI (x.lo floor) 10000 (roundDiv (x.level * 10000) (2 ^ 40))

/-- The relative uncertainty U in 0.01 %, rounded up (R252). -/
def Estimator.unc (x : Estimator) : Int := -((-x.u) / (100 * x.cap))

/-- u in mAh, rounded towards zero. -/
def Estimator.uMah (x : Estimator) : Int := x.u.tdiv (chargeUnit * 1000000)

/-- The display offset after an update of q or C, from the value shown before: q / C + e is that value again (R256). -/
def Estimator.redisplay (x : Estimator) (old : Int) : Estimator :=
  let e := percentLevel old - x.ratio
  { x with e := e, e0 := e }

/-- The seconds since the last anchor. -/
def Dev.anchorAge (d : Dev) (x : Estimator) : Nat := x.age + (d.now - x.anchored) / ticksPerS

/-- `n` hundredths of a per cent of C, as an uncertainty. -/
def Estimator.part (x : Estimator) (n : Nat) : Int := x.cap * 100 * (n : Int)

/-- A data word of a signed number. -/
def word32 (z : Int) : Nat := unsignedOf 32 z

/-- The flags COUNTER_EXHAUSTED and lo follow an update of the count from `old` (R255, R257): lo returns to floor when
q / C + e comes to exceed it (DEDUCED from the example of R260, log entry 115); the flag is set while lo equals floor,
and a new setting raises the event. -/
def Dev.strExhaust (d : Dev) (s : Nat) (old : Estimator) : Dev :=
  let floor := BSM_STR_EST.floor d s
  let x := (d.str s).est
  let low := x.low && !(decide (old.exceeds floor ≤ 0) && decide (0 < x.exceeds floor))
  let used := decide (x.exceeds floor < 0) && (x.used || !low || floor == 0)
  let d1 := d.modEst s (fun x => { x with low := low, used := used })
  if used && !x.used then d1.raise 0x0154 clsC (104 + s) (word32 (inMah x.q)) 0 else d1

/-- U against unc_limit (R259). -/
def Dev.strStale (d : Dev) (s : Nat) : Dev :=
  let x := (d.str s).est
  if !x.stale && decide ((BSM_STR_EST.unc_limit d s : Int) < x.unc) then
    (d.modEst s (fun x => { x with stale := true })).raise 0x0153 clsC (104 + s) (word32 x.unc) (d.anchorAge x)
  else d

/-- A checkpoint of a string is written, in the next rotation slot (R263); before step 8 of a start has restored the
string (R264, R416) there is nothing new to write. -/
def Dev.strCheckpoint (d : Dev) (s : Nat) (final : Bool) : Dev :=
  let x := (d.str s).est
  let p : Checkpoint := ⟨x.c, x.q, x.u, x.e, x.e0, x.low, x.span, d.anchorAge x, x.cal, final⟩
  if !x.live then d
  else (d.modEst s (fun x => { x with prior := x.ckpt, ckpt := some p, ckptAt := d.now })).wroteLearned.stored 0x13 (104 + s)

/-- A checkpoint that counts, or not, as one that a shutdown in sight wrote. -/
def Checkpoint.asFinal (p : Checkpoint) (b : Bool) : Checkpoint := ⟨p.c, p.q, p.u, p.e, p.e0, p.low, p.span, p.age, p.cal, b⟩

/-- Whether the last checkpoint of every string counts as one that a shutdown in sight wrote (R264). -/
def Dev.checkpointsLast (d : Dev) (final : Bool) : Dev :=
  forAll (fun s d => d.modEst s (fun x =>
      if x.live then { x with ckpt := x.ckpt.map (fun p => p.asFinal final) } else x))
    (indices 4) d

/-- Checkpoints of every string. -/
def Dev.checkpointAll (d : Dev) (final : Bool) : Dev := forAll (fun s d => d.strCheckpoint s final) (indices 4) d

/-- Seconds count afresh from an anchor, and ANCHOR_STALE clears. -/
def Dev.anchored (d : Dev) (s : Nat) : Dev :=
  d.modEst s (fun x => { x with age := 0, anchored := d.now, cal := d.ka.calWord, stale := false, used := false,
                                full := none, empty := none })

/-- ANCHOR_FULL: the full conditions have held for full_time (R253). -/
def anchorFull (s : Fin 4) (d : Dev) : Dev :=
  match d.coreRuns && (d.str s).est.live, (d.str s).est.full with
  | true, some t =>
    let d0 := d.until (t + BSM_STR_ANCH.full_time d s * ticksPerS)
    let x := (d0.str s).est
    let old := x.shown (BSM_STR_EST.floor d s)
    let put := fun (x : Estimator) =>
      ({ x with q := x.c, u := x.part (BSM_STR_UNC.anc_unc d s), low := false, span := true } : Estimator).redisplay old
    let d1 := ((d0.modEst s put).anchored s).raise 0x0150 clsC (104 + s) (word32 (inMah x.c)) (word32 x.unc)
    (d1.strExhaust s x).strCheckpoint s false
  | _, _ => d

/-- The string temperature lies within chg_tmin to chg_tmax, narrowed by `inset` tenths of a degree (R258, R262,
R491). -/
def Dev.strWarm (d : Dev) (s : Nat) (inset : Int) : Bool :=
  match fileGet d.house.therm (BSM_STR_CFG.th_idx d s) none with
  | some t => decide (signedOf 8 (BSM_STR_CHG.chg_tmin d s) * 10 + inset ≤ t)
      && decide (t + inset ≤ signedOf 8 (BSM_STR_CHG.chg_tmax d s) * 10)
  | none => false

/-- Capacity learned from a residual (R258). -/
def Dev.strLearn (d : Dev) (s : Nat) : Dev :=
  let x := (d.str s).est
  if !x.span || !d.strWarm s 0 || x.q = 0 then d
  else
    let lam := x.cap * (BSM_STR_EST.learn_lim d s : Int) / 10000
    let c := if x.q < 0 then x.c + min (-x.q) lam else x.c - min x.q lam
    (d.modEst s (fun x => { x with c := c })).raise 0x0152 clsC (104 + s) (word32 (inMah x.c)) (word32 (inMah c))

/-- ANCHOR_EMPTY: the empty conditions have held for empty_time (R254). -/
def anchorEmpty (s : Fin 4) (d : Dev) : Dev :=
  match d.coreRuns && (d.str s).est.live, (d.str s).est.empty with
  | true, some t =>
    let d0 := d.until (t + BSM_STR_CUT.empty_time d s * 100 * ticksPerMs)
    let x := (d0.str s).est
    let old := x.shown (BSM_STR_EST.floor d s)
    let d1 := (d0.raise 0x0151 clsC (104 + s) (word32 (inMah x.q)) (word32 x.unc)).strLearn s
    let put := fun (x : Estimator) =>
      ({ x with q := 0, u := x.part (BSM_STR_UNC.anc_unc d s), low := true, span := false } : Estimator).redisplay old
    ((((d1.modEst s put).anchored s).strExhaust s x).strCheckpoint s false)
  | _, _ => d

/-- ESTIMATOR_CHECKPOINT: ckpt_period has passed (R263). -/
def estimatorCheckpoint (s : Fin 4) (d : Dev) : Dev :=
  if d.coreRuns && (d.str s).est.live then
    (d.until ((d.str s).est.ckptAt + BSM_SHELF.ckpt_period d * ticksPerS)).strCheckpoint s false
  else d

/-! ### Counting (R71, R250 to R252, R256) -/

/-- Interval of a code of MA_CC_CFG.dec in ms. -/
def intervalMs (dec : Nat) : Nat := if dec = 0 then 1 else if dec = 1 then 10 else 100

/-- The choice of R251 after a result of `ma` * 2^-23 mA: the run of low results, and the code, in force from the next
interval boundary on. -/
def Dev.chooseDec (d : Dev) (s : Nat) (z : Int) : Dev :=
  let lo := BSM_STR_CC.lo_i d s * 100 * 2 ^ 23
  let run := if z.natAbs < lo then held 10 ((d.str s).est.lowRun + 1) else 0
  let now := MA_CC_CFG.dec d s
  let next := if lo = 0 ∨ 2 * lo ≤ z.natAbs then 1 else if 10 ≤ run then 2 else if now = 0 then 1 else now
  let d1 := d.modEst s (fun x => { x with lowRun := run })
  if BSM_STR_CFG.dec_auto d s = 1 then d1.setField (MA_CC_CFG.reg s) 0 2 next else d1

/-- An interval is counted: q, u and e move, and lo, the flag and ANCHOR_STALE follow (R250, R252, R255 to R257, R259). -/
def Dev.strCount (d : Dev) (s : Nat) (i : Counted) : Dev :=
  let old := (d.str s).est
  let step := ceilDiv (old.e0.natAbs * i.ms) (BSM_STR_ANCH.ramp d s * 1000)
  let d1 := d.modEst s (fun x => { x with q := x.q + i.dq, u := x.u + i.du, e := towardsZero x.e step })
  (d1.strExhaust s old).strStale s

/-- An interval of a string ends: before the string is restored it waits, so that none is missed (R250, R264). -/
def Dev.strInterval (d : Dev) (s : Nat) (i : Counted) : Dev :=
  if (d.str s).est.live then d.strCount s i else d.modEst s (fun x => { x with early := i :: x.early })

/-- CC_RESULT: a coulomb interval ends with result `x`, its sign inverted where cc_pol says so, and the next begins with
the code that MA_CC_CFG.dec holds at this boundary (R71, R240, R250 to R257, R259). -/
def ccResult (s : Fin 4) (x : BitVec 24) (d : Dev) : Dev :=
  if !d.coreRuns then d
  else
    let cc := fileGet d.ccs s default
    let ms := intervalMs cc.ivl
    let z : Int := if BSM_STR_CFG.cc_pol d s = 1 then -x.toInt else x.toInt
    let fs : Int := BSM_STR_CC.fs_cc d s
    let dq := -(z * (ms : Int) * fs)
    let grow := (dq.natAbs * BSM_STR_UNC.gain_err d s : Nat) + ((d.str s).ofs * ms * 2 ^ 23 : Nat) * fs
    let d1 := match d.shelf.since with
      | some _ => { d with shelf := { d.shelf with charge := d.shelf.charge - dq } }
      | none => d
    let after := fun (c : Coulomb) => { c with result := z, count := c.count + 1, ivl := MA_CC_CFG.dec d s }
    ({ d1 with ccs := fileMod d1.ccs s after }.chooseDec s (z * fs)).strInterval s ⟨dq, grow, ms⟩

/-! ### Evaluation (R241, R242, R248, R253, R254, R262) -/

/-- The inputs of R241 that have stopped are reported once while they stay stopped; a housekeeping input is numbered
from 64. -/
def Dev.strMissing (d : Dev) (s : Nat) : Dev :=
  let th := 60 + BSM_STR_CFG.th_idx d s
  let bus := BSM_STR_CFG.bus_conv d s
  let gone := (if d.strConvOn s then [] else [((d.stringConv s).getD (44 + s))])
    ++ (if MA_CH_CFG.en d bus = 1 then [] else [bus]) ++ (if d.hkListed (56 + s) then [] else [120 + s])
    ++ (if d.hkListed th then [] else [64 + th])
  if (d.str s).state = .opened then d.modStr s (fun x => { x with told := [] })
  else
    let told := (d.str s).told
    let addr := fun (n : Nat) => if n < 64 then n else Config.coding 0x05 (n - 64)
    forAll (fun n d => d.report (det 0x05 (104 + s) 0x42 accMeasure (detAddr 0x01 (addr n))))
      (gone.filter (fun n => !told.contains n)) (d.modStr s (fun x => { x with told := gone }))

/-- KAs is sampled: a level counts after two equal samples (R242). -/
def Dev.sampleKa (d : Dev) (s : Nat) (low : Bool) : Dev :=
  d.modStr s (fun x => { x with kasLast := low, kas := if x.kasLast = low then low else x.kas })

/-- Since when a condition holds. -/
def sinceWhen (now : Nat) (was : Option Nat) (holds : Bool) : Option Nat := if holds then some (was.getD now) else none

/-- Anchor conditions and the cut-off of an evaluation (R253, R254, Table 9-1). -/
def Dev.strLevels (d : Dev) (s : Nat) : Dev :=
  let v := d.strV s
  let i := d.strI s
  let up := decide (tenMv (BSM_STR_VLIM.full_v d s) ≤ v)
    && decide (i.natAbs ≤ inMa (BSM_STR_ANCH.full_i d s * 100))
  let down := decide (v ≤ tenMv (BSM_STR_VLIM.empty_v d s))
    && decide ((inMa (BSM_STR_ANCH.empty_i d s * 1000) : Int) ≤ i)
  let seen := (d.hkCode (56 + s)).isSome
  let d1 := d.modEst s (fun x => { x with full := sinceWhen d.now x.full (up && seen),
                                          empty := sinceWhen d.now x.empty (down && seen) })
  let under := decide (v < tenMv (BSM_STR_CUT.cut_v d s)) && (d.str s).state == .connected
  d1.modStr s (fun x => { x with cutFrom := sinceWhen d.now x.cutFrom (under && seen) })

/-- The charge limit L_s, and the AUX target of its group, at every evaluation (R262). A limit lost through temperature stays lost,
connected or not, until the temperature lies 2 °C inside the window. -/
def Dev.strCharge (d : Dev) (s : Nat) : Dev :=
  let on := (d.str s).state == .connected
  let cold := if (d.str s).cold then !d.strWarm s 20 else on && !d.strWarm s 0
  let lim := if on && !cold then BSM_STR_CHG.chg_max d s * 100 else 0
  let d1 := d.modStr s (fun x => { x with limit := lim, cold := cold })
  if BSM_STR_CFG.aux_en d s = 1 then d1.refreshAux (BSM_STR_CFG.aux_grp d s) else d1

/-- The transitions an evaluation takes (Table 9-1). -/
def Dev.strMoves (d : Dev) (s : Nat) : Dev :=
  let x := d.str s
  match x.state with
  | .starting => if x.awaiting then d.strGo s else d
  | .precharge =>
    let near := decide (d.strDiff s ≤ BSM_STR_PRE.pre_dv d s * 50 * 65536)
    if !near then d.modStr s (fun x => { x with dvRun := 0 })
    else if x.dvRun < 2 then d.modStr s (fun x => { x with dvRun := x.dvRun + 1 })
    else
      let d1 := forAll (fun k d => d.commit k 2) x.ons (d.strEnter s .closing)
      d1.modStr s (fun x => { x with kd := true, held := false, kdAt := d.now })
  | .closing =>
    if x.kas then
      let shut := some (d.now + BSM_STR_K.pc_overlap d s * ticksPerMs)
      let d1 := ((d.release (slotString s)).strEnter s .connected).modStr s (fun x =>
        { x with ons := [], shut := shut, closes := x.closes + 1 })
      (d1.wroteLearned).doneAll x.ons
    else d
  | .connected =>
    if !x.kas then (d.strReport s 0x32).strOpen s 6 stAborted
    else if x.wait.isSome && d.openCurrent s then d.strOpen s 1 stAborted
    else d
  | .opening =>
    if x.kas then d
    else if x.cause ≤ 2 then d.strOpened s
    else d.strFault s x.cause
  | _ => d

/-- The sum of the role-6 results of the CONNECTED strings, in 2^-15 mA. -/
def Dev.shelfSum (d : Dev) : Int :=
  ((indices 4).filter (fun s => (d.str s).state == .connected)).foldl (fun a s => a + d.strI s) 0

/-- The hold-up check of R248. -/
def Dev.holdup (d : Dev) : Dev :=
  let lim := inMa (BSM_SHELF.holdup_i d * 10000)
  let sum := d.shelfSum
  let sh := d.shelf
  if lim = 0 then { d with shelf := { sh with run := 0, since := none, lowFrom := none } }
  else if (lim : Int) < sum then
    match sh.since with
    | some _ => { d with shelf := { sh with lowFrom := none } }
    | none =>
      if sh.run < 9 then { d with shelf := { sh with run := sh.run + 1 } }
      else
        let d1 := { d with shelf := { sh with run := 0, since := some d.now, lowFrom := none, charge := 0 } }
        d1.raise 0x0158 clsC 108 (word32 (roundDiv sum 32768)) 0
  else { d with shelf := { sh with run := 0, lowFrom := sh.since.map (fun _ => sh.lowFrom.getD d.now) } }

/-- STRING_EVALUATION: the millisecond evaluation of string `s`, `low` being the level sampled on KAs (R242). The
shelf's sum is checked with string 3. -/
def stringEvaluation (s : Fin 4) (low : Bool) (d : Dev) : Dev :=
  if !d.coreRuns then d
  else
    let d1 := ((((d.strMissing s).sampleKa s low).strMoves s).strLevels s).strCharge s
    if s.val = 3 then d1.holdup else d1

/-! ### Timers (Table 9-1, R248) -/

/-- PRE_GAP_END: a waiting start asks for leave. -/
def preGapEnd (s : Fin 4) (d : Dev) : Dev :=
  if d.coreRuns && (d.str s).state == .starting && (d.str s).gapping then (d.until (d.gapEnd s)).strAsk s else d

/-- PRECHARGE_TIMEOUT. -/
def prechargeTimeout (s : Fin 4) (d : Dev) : Dev :=
  if d.coreRuns && (d.str s).state == .precharge then
    let d1 := d.until ((d.str s).since + BSM_STR_PRE.pre_timeout d s * 100 * ticksPerMs)
    (d1.strReport s 0x30).strFault s 4
  else d

/-- CONTACTOR_NO_CLOSE. -/
def contactorNoClose (s : Fin 4) (d : Dev) : Dev :=
  if d.coreRuns && (d.str s).state == .closing && !(d.str s).kas then
    let d1 := d.until ((d.str s).since + BSM_STR_K.close_time d s * ticksPerMs)
    (d1.strReport s 0x31).strOpen s 5 stAborted
  else d

/-- The active time of the coil drive in 1/256: all of it during pull_in, and after it with a hold_duty of 0 (R242). -/
def Dev.coilDuty (d : Dev) (s : Nat) : Nat :=
  let x := d.str s
  if !x.kd then 0 else if x.held && BSM_STR_K.hold_duty d s != 0 then BSM_STR_K.hold_duty d s else 256

/-- PULL_IN_END: the coil drive goes to its hold duty (R242). -/
def pullInEnd (s : Fin 4) (d : Dev) : Dev :=
  if d.coreRuns && (d.str s).kd && !(d.str s).held then
    (d.until ((d.str s).kdAt + BSM_STR_K.pull_in d s * ticksPerMs)).modStr s (fun x => { x with held := true })
  else d

/-- PC_OVERLAP_END: the precharge drive turns off. -/
def pcOverlapEnd (s : Fin 4) (d : Dev) : Dev :=
  match d.coreRuns, (d.str s).shut with
  | true, some t => (d.until t).pcOff s
  | _, _ => d

/-- R268: a low voltage with no feed ON and depot_auto set calls for Depot. -/
def Dev.depotCall (d : Dev) : Dev :=
  let on := (indices 4).any (fun f => (d.feed f).state == .on)
  if BSM_SHELF.depot_auto d = 1 ∧ on = false then d.owe .depotAuto else d

/-- STRING_UNDERVOLTAGE: V_str has stayed below cut_v for cut_time. -/
def stringUndervoltage (s : Fin 4) (d : Dev) : Dev :=
  match d.coreRuns && (d.str s).state == .connected, (d.str s).cutFrom with
  | true, some t =>
    let d1 := d.until (t + BSM_STR_CUT.cut_time d s * 10 * ticksPerMs)
    ((d1.strReport s 0x34).strOpen s 7 stAborted).depotCall
  | _, _ => d

/-- OPEN_WAIT_EXPIRY: the contactor opens under load. -/
def openWaitExpiry (s : Fin 4) (d : Dev) : Dev :=
  match d.coreRuns && (d.str s).state == .connected, (d.str s).wait with
  | true, some t => ((d.until t).loadBreak s).strOpen s 1 stAborted
  | _, _ => d

/-- CONTACTOR_WELDED: open_time has passed with KAs closed. -/
def contactorWelded (s : Fin 4) (d : Dev) : Dev :=
  if d.coreRuns && (d.str s).state == .opening && (d.str s).kas then
    let d1 := d.until ((d.str s).since + BSM_STR_OPEN.open_time d s * ticksPerMs)
    (d1.strReport s 0x33).strFault s 6
  else d

/-- HOLDUP_END: the sum has stayed at or below holdup_i for 1 s (R248). -/
def holdupEnd (d : Dev) : Dev :=
  match d.coreRuns, d.shelf.since, d.shelf.lowFrom with
  | true, some t, some l =>
    let d1 := d.until (l + ticksPerS)
    let d2 := { d1 with shelf := { d1.shelf with since := none, lowFrom := none, run := 0 } }
    d2.raise 0x0159 clsC 108 (held 0xFFFFFFFF ((d1.now - t) / ticksPerMs)) (word32 (inMah d1.shelf.charge))
  | _, _, _ => d

/-! ### Commands -/

/-- STRING_CONNECT on (R241, R243, R245). -/
def Dev.strConnectOn (d : Dev) (k s : Nat) : Dev :=
  let st := (d.str s).state
  if st = .connected then d.commitAll k stDone []
  else if !st.stopped then d.finish k stRejected []
  else if !d.strReady s || d.slotBusy (slotString s) || d.noStarts then d.finish k stRejected []
  else (d.modStr s (fun x => { x with ons := [k] })).strStart s

/-- STRING_CONNECT off (R243, R245). -/
def Dev.strConnectOff (d : Dev) (k s : Nat) : Dev :=
  let st := (d.str s).state
  if st.stopped then d.commitAll k stDone []
  else
    let d1 := d.modStr s (fun x => { x with offs := x.offs ++ [k] })
    if st = .opening then d1.commit k 1 else d1.strOff s

/-- A resumed STRING_CONNECT on with no stage committed finds the start that its closed command left (R387). -/
def Dev.strLeft (d : Dev) (c : OpenCmd) : Bool :=
  let x := d.str c.desc.idx
  c.resumed && (x.state == .starting || x.state == .precharge || x.state == .closing)
    && x.ons.all (fun k => d.gone (some k))

/-- It takes over that start; the stages whose condition holds commit at once. -/
def Dev.strTake (d : Dev) (k s : Nat) : Dev :=
  let d1 := d.modStr s (fun x => { x with ons := x.ons ++ [k] })
  match (d.str s).state with
  | .precharge => d1.commit k 1
  | .closing => d1.commit k 2
  | _ => d1

/-- STRING_CONNECT (R243 to R247). -/
def specStringConnect : OpSpec where
  code := 0x41
  cls := clsString
  count := 4
  stdOk := true
  expOk := false
  total := fun c _ => if c.byte 20 = 1 then 3 else 2
  inSlw := fun c => c.byte 20 == 0
  preempt := fun c => c.byte 20 == 0
  params := fun c _ => c.byte 20 ≤ 1
  begin := fun c d =>
    if c.desc.byte 20 = 1 then
      if d.strLeft c then d.strTake c.fetch c.desc.idx else d.strConnectOn c.fetch c.desc.idx
    else d.strConnectOff c.fetch c.desc.idx
  resume := fun c d =>
    let s := c.desc.idx
    let join := d.modStr s (fun x => { x with ons := x.ons ++ [c.fetch] })
    match (d.str s).state, c.desc.byte 20, c.done with
    | .connected, 1, _ => some (d.commitAll c.fetch stDone [])
    | .closing, 1, _ => some (join.commit c.fetch 2)
    | .precharge, 1, 1 => some join
    | .starting, 1, 1 => some join
    | .opened, 0, _ => some (d.commitAll c.fetch stDone [])
    | .opening, 0, _ => some (d.modStr s (fun x => { x with offs := x.offs ++ [c.fetch] }))
    | _, _, _ => none

/-- The field of BSM_STR_UNC that the fuses give, not the Rule Book (Table 9-13), under an offset of its own. -/
def ofsEntry (s : Nat) : Nat × Field := (0x20000 + s, rw 0 8)

/-- The registers of STRING_CONFIGURE. -/
def stringRegs (s : Nat) : List Nat := (indices 13).map (fun j => 0x4400 + 0x40 * s + 4 * j)

/-- Its Standard field list: ofs stands between gain_err and anc_unc. -/
def stringFields (s : Nat) : List (Nat × Field) :=
  (fieldList (stringRegs s)).flatMap (fun p =>
    if p.1 = BSM_STR_UNC.reg s ∧ p.2.lo = 16 then [p, ofsEntry s] else [p])

/-- The units of R394: millivolts, milliamps and whole degrees. -/
def stringConvert (s off : Nat) (x : Field) (v : Nat) : Option Int :=
  match off - (0x4400 + 0x40 * s), x.lo with
  | 0x04, 24 => some (roundDivN v 100 : Nat)
  | 0x08, 12 => some (roundDivN v 50 : Nat)
  | 0x10, 8 => some (roundDivN v 1000 : Nat)
  | 0x14, _ => some (roundDivN v 10 : Nat)
  | 0x18, 16 => some (roundDivN v 10 : Nat)
  | 0x1C, 16 => some (roundDivN v 100 : Nat)
  | 0x1C, 8 => some (roundDivN v 1000 : Nat)
  | 0x28, 16 => some ((v * 100 : Nat) : Int)
  | 0x2C, 16 => some (roundDivN v 100 : Nat)
  | 0x2C, _ => some (signedOf 32 v)
  | _, _ => some v

/-- Cross-field limits of a string's registers (Tables 9-9, 9-10, 9-15), each where `gives` has one of its fields by register
and lowest bit (R395). -/
def Dev.stringRegsOk (d : Dev) (s : Nat) (gives : Nat → Nat → Bool) : Bool :=
  let empty := gives (BSM_STR_VLIM.reg s) 0
  (!(gives (BSM_STR_VLIM.reg s) 16 || empty) || BSM_STR_VLIM.empty_v d s < BSM_STR_VLIM.full_v d s)
    && (!(gives (BSM_STR_CUT.reg s) 16 || empty) || BSM_STR_CUT.cut_v d s < BSM_STR_VLIM.empty_v d s)
    && (!(gives (BSM_STR_CHG.reg s) 8 || gives (BSM_STR_CHG.reg s) 0)
      || signedOf 8 (BSM_STR_CHG.chg_tmin d s) < signedOf 8 (BSM_STR_CHG.chg_tmax d s))

/-- The images a STRING_CONFIGURE gives, with ofs, `none` where a word has no code. -/
def Dev.stringGiven (d : Dev) (p : Desc) : Option (List (Nat × Nat) × Nat) :=
  let s := p.idx
  if p.expert then some (p.images (stringRegs s), bitsOf (p.bufWord 9) 8 8)
  else
    let read := fun off => if off = 0x20000 + s then (d.str s).ofs else d.reg off
    (standardImages (stringConvert s) read 0 p.given (stringFields s) []).map (fun ims =>
      (ims.filter (fun p => p.1 < 0x20000),
       ((ims.find? (fun p => p.1 == 0x20000 + s)).map (·.2)).getD (d.str s).ofs))

/-- The parameters of a STRING_CONFIGURE are in range (R5). -/
def Dev.stringFits (d : Dev) (p : Desc) : Bool :=
  4 * (if p.expert then 13 else (stringFields 0).length) ≤ p.length.toNat
    && match d.stringGiven p with
      | none => false
      | some (ims, _) => p.imagesFit ims && (d.setImages ims).stringRegsOk p.idx (p.gives (stringFields p.idx))

/-- The images of a STRING_CONFIGURE take effect; the groups the string leaves and joins take their AUX targets. -/
def Dev.stringConfigured (d : Dev) (k s : Nat) (ims : List (Nat × Nat)) (ofs : Nat) : Dev :=
  let d1 := (d.setImages ims).modStr s (fun x => { x with ofs := ofs })
  ((d1.refreshAux (BSM_STR_CFG.aux_grp d s)).refreshAux (BSM_STR_CFG.aux_grp d1 s)).commitAll k stDone []

/-- STRING_CONFIGURE (R399, Table 15-1). -/
def specStringConfigure : OpSpec where
  code := 0x40
  cls := clsString
  count := 4
  stdOk := true
  expOk := true
  total := fun _ _ => 1
  params := fun c d => d.stringFits c
  begin := fun c d =>
    let s := c.desc.idx
    if !(d.str s).state.stopped then d.finish c.fetch stRejected []
    else match d.stringGiven c.desc with
      | none => d.finish c.fetch stBadParam []
      | some (ims, ofs) =>
        if d.stringFits c.desc then d.stringConfigured c.fetch s ims ofs else d.finish c.fetch stBadParam []

/-! ### Starts (R246, R264, R269, Table 9-2) -/

/-- The calendar-invalid word of R39, with epoch 0. -/
def noCalendar : Nat := 0x3FFFFFFFF * 2 ^ 30

/-- The off-time in subseconds, when both calendars are valid (R264). -/
def Dev.offTime (d : Dev) : Option Nat :=
  let down := d.ka.calDown / 2 ^ 15
  if d.ka.valid && d.ka.calDown / 2 ^ 30 != 0x3FFFFFFFF then some (d.ka.sub - down) else none

/-- The seconds since the anchor of a checkpoint (R252): from the calendar word of that anchor while the calendar that
gave it still runs, else the age the checkpoint holds and the off-time (log entry 154). -/
def Dev.ageOf (d : Dev) (p : Checkpoint) : Nat :=
  if d.ka.valid && p.cal / 2 ^ 30 != 0x3FFFFFFFF && p.cal % 2 ^ 15 == d.ka.epoch then
    (d.ka.sub - p.cal / 2 ^ 15) / 2 ^ 15
  else p.age + (d.offTime.getD 0) / 2 ^ 15

/-- What a checkpoint restores; without one, C is cap_nom (Table 9-16). -/
def Dev.strRestored (d : Dev) (s : Nat) (p : Option Checkpoint) : Estimator :=
  let x : Estimator := { (default : Estimator) with anchored := d.now, ckptAt := d.now, live := true }
  match p with
  | none => { x with c := (BSM_STR_CAP.cap_nom d s : Int) * chargeUnit, cal := noCalendar }
  | some p => { x with c := p.c, q := p.q, u := p.u, e := p.e, e0 := p.e0, low := p.low, span := p.span,
                       age := d.ageOf p, cal := p.cal }

/-- Table 9-2: the change of q in 1/K mAh, of u in 1/(10^6 K) mAh, and whether the span is kept. `lastRow` forces the
last row (Table 12-4, memory 0x13). -/
def Dev.adjustment (d : Dev) (s : Nat) (x : Estimator) (final lastRow : Bool) : Int × Int × Bool :=
  let drain := fun (t : Nat) => ((2560 * BSM_STR_IDLE.idle_drain d s * t : Nat) : Int)
  let full := ((BSM_SHELF.ckpt_period d * ((d.stringConv s).map d.fsOf).getD 0 * 2 ^ 23 * 1000 : Nat) : Int)
  let depot := x.part (BSM_STR_IDLE.depot_unc d s)
  let last := (0, depot + (if final then 0 else full * 1000000), false)
  match lastRow, d.ka.cause, d.offTime with
  | true, _, _ => last
  | false, 4, _ => (0, depot, false)
  | false, 3, some t => (-(drain t), drain t * 1000000, true)
  | false, 7, some t => (-(drain t), drain t * 1000000, true)
  | false, 1, some t => (-(drain t), (drain t + full) * 1000000, false)
  | false, 2, some t => (-(drain t), (drain t + full) * 1000000, false)
  | false, 5, some t => (-(drain t), (drain t + full) * 1000000, false)
  | false, 6, some t => (-(drain t), (drain t + full) * 1000000, false)
  | false, _, _ => last

/-- Restore a checkpoint and adjust it (R264), after which it is no longer one that a shutdown in sight wrote; the
event carries the amount added to u, in mAh. The intervals that have ended since step 3 are then counted (R250). -/
def Dev.strResume (d : Dev) (s : Nat) (p : Option Checkpoint) (lastRow : Bool) : Dev :=
  let x := d.strRestored s p
  let a := d.adjustment s x ((p.map (·.final)).getD false) lastRow
  let old := x.shown (BSM_STR_EST.floor d s)
  let y := { x with u := x.u + a.2.1, span := x.span && a.2.2 }
  let z := if a.1 = 0 then y else ({ y with q := y.q + a.1 } : Estimator).redisplay old
  let keep := (d.str s).est
  let last := keep.ckpt.map (fun p => p.asFinal false)
  let d1 := d.modEst s (fun _ => { z with ckpt := last, prior := keep.prior, full := keep.full, empty := keep.empty,
                                           lowRun := keep.lowRun })
  let d2 := d1.raise 0x0155 clsC (104 + s) d.ka.cause (word32 (a.2.1.tdiv (chargeUnit * 1000000)))
  forAll (fun i d => d.strCount s i) keep.early.reverse d2

/-- Step 8 of a start (R264, R269): a string that its estimator's command or a reaction has restored stands. -/
def Dev.stringAtStart (d : Dev) (s : Nat) : Dev :=
  if (d.str s).est.live then d else d.strResume s (d.str s).est.ckpt false

/-- What of a string outlives the core domain: counts and checkpoints in MRAM. -/
def BString.kept (x : BString) (now ofs : Nat) : BString :=
  let e := { (default : Estimator) with ckpt := x.est.ckpt, prior := x.est.prior }
  { (default : BString) with closes := x.closes, breaks := x.breaks, preEnd := now, ofs := ofs, est := e }

/-- A start with auto_conn set (Table 9-1). -/
def Dev.stringAuto (d : Dev) (s : Nat) : Dev :=
  if BSM_STR_CFG.auto_conn d s = 0 ∨ !(d.str s).state.stopped ∨ d.noStarts = true ∨ d.strReady s = false then d
  else d.strStart s

/-! ### ESTIMATOR_SET -/

/-- A word is all ones, which leaves its item unchanged, or lies in a range. -/
def onesOr (n : Nat) (lo hi w : Nat) : Bool := w == 2 ^ n - 1 || (lo ≤ w && w ≤ hi)

/-- ESTIMATOR_SET (R256, R260). Before step 8 of a start it restores the string first (log entry 154). -/
def specEstimatorSet : OpSpec where
  code := 0x42
  cls := clsString
  count := 4
  stdOk := true
  expOk := false
  total := fun _ _ => 1
  params := fun c _ => onesOr 32 1 0x7FFFFFFF (c.num 20 4) && onesOr 16 0 10000 (c.num 24 2)
  begin := fun c d0 =>
    let s := c.desc.idx
    let p := c.desc
    let d := d0.stringAtStart s
    let est := (d.str s).est
    let old := est.shown (BSM_STR_EST.floor d s)
    let put := fun (x : Estimator) =>
      let x1 := if p.num 20 4 = 0xFFFFFFFF then x else { x with c := (p.num 20 4 : Int) * chargeUnit }
      let x2 := if p.num 24 2 = 0xFFFF then x1 else { x1 with q := x1.cap * (p.num 24 2 : Int) / 10000 }
      let x3 := if p.num 26 2 = 0xFFFF then x2 else { x2 with u := x2.part (p.num 26 2) }
      ({ x3 with span := false, stale := false } : Estimator).redisplay old
    let d1 := (((d.modEst s put).strExhaust s est).strStale s).strCheckpoint s false
    let x := (d1.str s).est
    d1.commitAll c.fetch stDone [word32 (inMah x.q), word32 (x.shown (BSM_STR_EST.floor d s))]

end Sys2Proof.Machine
end

