-- ==== Sys2Proof/Machine/Timetable.lean ====
section
/-! DEFINITION. The Timetable: rails, steps, HALT_N and the Bell line, and the queues of the point-of-load masters that
its rails use (spec/10_timetable.md R270 to R287, R289, R291). -/
namespace Sys2Proof.Machine

/-! ### Files -/

/-- Rail `n`. -/
def Dev.rail (d : Dev) (n : Nat) : Rail := fileGet d.tt.rails n default
/-- Change the Timetable. -/
def Dev.modTt (d : Dev) (g : Timetable → Timetable) : Dev := { d with tt := g d.tt }
/-- Change rail `n`. -/
def Dev.modRail (d : Dev) (n : Nat) (g : Rail → Rail) : Dev := d.modTt (fun t => { t with rails := fileMod t.rails n g })
/-- PMBus master `b`. -/
def Dev.pb (d : Dev) (b : Nat) : PmbusMaster := fileGet d.pmbus b default
/-- Change PMBus master `b`. -/
def Dev.modPb (d : Dev) (b : Nat) (g : PmbusMaster → PmbusMaster) : Dev := { d with pmbus := fileMod d.pmbus b g }

/-- Coding of TT_RAIL_CFG.state. -/
def RailState.code : RailState → Nat
  | .off => 0 | .waiting => 1 | .ramping => 2 | .good => 3 | .late => 4 | .falling => 5 | .failedDown => 6
/-- Coding of TT_CTRL.state. -/
def TimetableState.code : TimetableState → Nat
  | .down => 0 | .rising => 1 | .up => 2 | .falling => 3 | .halted => 4

/-- Rails of the Timetable. -/
def Dev.railsIn (d : Dev) : List Nat := (indices 16).filter (fun n => TT_RAIL_CFG.en d n == 1)
/-- Rails of step `k`. -/
def Dev.railsOf (d : Dev) (k : Nat) : List Nat := d.railsIn.filter (fun n => TT_RAIL_CFG.step d n == k)
/-- Rails of step `k` that a run up may move: those Single-Line Working has not shed. -/
def Dev.railsUp (d : Dev) (k : Nat) : List Nat := (d.railsOf k).filter (fun n => !bitOf d.tt.shed n)

/-- Pin control (R271). -/
def Dev.pinCtl (d : Dev) (n : Nat) : Bool := TT_RAIL_CFG.ctl d n != 1
/-- PMBus control. -/
def Dev.busCtl (d : Dev) (n : Nat) : Bool := TT_RAIL_CFG.ctl d n != 0
/-- Pin monitoring. -/
def Dev.pinMon (d : Dev) (n : Nat) : Bool := TT_RAIL_CFG.mon d n != 1
/-- PMBus monitoring. -/
def Dev.busMon (d : Dev) (n : Nat) : Bool := TT_RAIL_CFG.mon d n != 0
/-- The rail uses its PMBus master. -/
def Dev.onBus (d : Dev) (n : Nat) : Bool := d.busCtl n || d.busMon n

/-! ### PMBus queues (R289, R291) -/

/-- The first element with a property, with what stands before and after it. -/
def splitFirst (p : BusItem → Bool) : List BusItem → Option (List BusItem × BusItem × List BusItem)
  | [] => none
  | x :: xs => if p x then some ([], x, xs) else (splitFirst p xs).map (fun r => (x :: r.1, r.2.1, r.2.2))

/-- The transaction a master serves next: the lowest rank, the oldest of it (R291). -/
def nextItem (q : List BusItem) : Option (List BusItem × BusItem × List BusItem) :=
  (indices 5).findSome? (fun r => splitFirst (fun x => x.rank == r) q)

/-- One bit of the CRC-8 of SMBus, x^8 + x^2 + x + 1 (PRESUMED, log entry 117). -/
def pecBits : Nat → BitVec 8 → BitVec 8
  | 0, c => c
  | n + 1, c => pecBits n (if c.getLsbD 7 then (c <<< 1) ^^^ 0x07 else c <<< 1)

/-- The packet error code of bytes. -/
def pecOf (bytes : List Byte) : Byte := bytes.foldl (fun c b => pecBits 8 (c ^^^ b)) 0

/-- The address, command code, data and read address a transaction puts on its bus, and, with PEC, the code of a
write; the slave sends the code of a read (R288). -/
def BusItem.bytes (x : BusItem) (pec : Bool) : List Byte :=
  match x.use with
  | .alertRead => leBytes (2 * x.addr + 1) 1
  | _ =>
    let head := leBytes (2 * x.addr) 1 ++ leBytes x.code 1 ++ x.wr
    if x.rd ≠ 0 then head ++ leBytes (2 * x.addr + 1) 1 else if pec then head ++ [pecOf head] else head

/-- A transaction goes out on its bus. -/
def Dev.pbEmit (d : Dev) (b : Nat) (x : BusItem) : Dev := d.emit (.bus b (x.bytes (PB_CFG.pec d b == 1)))

/-- A transaction begins. A POL_TRANSACTION leaves the page in force unknown (R292). -/
def Dev.pbStart (d : Dev) (b : Nat) (q : List BusItem) (x : BusItem) : Dev :=
  let keep := match x.use with
    | .user _ => none
    | _ => (d.pb b).paged
  (d.modPb b (fun m => { m with queue := q, current := some x, paged := keep })).pbEmit b x

/-- The PAGE transaction before a command to a paged rail (Table 10-5). -/
def pageItem (x : BusItem) (p : Nat) : BusItem := ⟨.page, x.rank, x.addr, some p, 0x00, leBytes p 1, 0, false, 0⟩

/-- A read of the Alert Response Address. -/
def alertItem : BusItem := ⟨.alertRead, 2, 0x0C, none, 0, [], 1, false, 0⟩

/-- While PBbALERT_N is low and alert_en is set, the master reads the Alert Response Address (R291): a read is queued
unless one waits or runs. -/
def Dev.pbAlert (d : Dev) (b : Nat) : Dev :=
  let m := d.pb b
  if m.alert && PB_CFG.alert_en d b == 1 && !(m.current.toList ++ m.queue).any (fun x => x.use == .alertRead) then
    d.modPb b (fun m => { m with queue := m.queue ++ [alertItem] })
  else d

/-- An idle master serves its queue. -/
def Dev.pbServe (d' : Dev) (b : Nat) : Dev :=
  let d := d'.pbAlert b
  let m := d.pb b
  if PB_CFG.en d b = 0 ∨ m.current.isSome = true then d
  else
    match nextItem m.queue with
    | none => d
    | some (pre, x, post) =>
      match x.page with
      | none => d.pbStart b (pre ++ post) x
      | some p =>
        if x.lead || m.paged != some (x.addr, p) then d.pbStart b (pre ++ { x with lead := false } :: post) (pageItem x p)
        else d.pbStart b (pre ++ post) x

/-- Queue transactions on a master. -/
def Dev.pbPut (d : Dev) (b : Nat) (xs : List BusItem) : Dev :=
  (d.modPb b (fun m => { m with queue := m.queue ++ xs })).pbServe b

/-- A transaction of a rail. -/
def Dev.railItem (d : Dev) (n : Nat) (use : BusUse) (rank code : Nat) (wr : List Byte) (rd : Nat) (lead : Bool) : BusItem :=
  let page := TT_RAIL_PMB.page d n
  ⟨use, rank, TT_RAIL_PMB.addr d n, if page = 0xFF then none else some page, code, wr, rd, lead, 0⟩

/-- ON_OFF_CONFIG of a rail (Table 10-5). -/
def Dev.onOffConfig (d : Dev) (n : Nat) : Nat :=
  let high := TT_RAIL_CFG.pol_en d n == 1
  if !d.pinCtl n then 0x18
  else if d.busCtl n then if high then 0x1E else 0x1C
  else if high then 0x16 else 0x14

/-- The start commands of a rail in the order R289 gives; OPERATION for a rail controlled by PMBus. -/
def Dev.startItems (d : Dev) (n : Nat) : List BusItem :=
  let word := fun (code v : Nat) => if v = 0 then [] else [(code, leBytes v 2)]
  let cmds := [(0x03, []), (0x02, leBytes (d.onOffConfig n) 1)] ++ word 0x24 (TT_RAIL_VLIM.vmax d n)
    ++ word 0x2B (TT_RAIL_VLIM.vmin d n) ++ word 0x21 (TT_RAIL_VOUT.vout d n)
    ++ (if d.busCtl n then [(0x01, leBytes 0x80 1)] else [])
  (indices cmds.length).map (fun i =>
    let c := cmds.getD i (0, [])
    d.railItem n (.start n (i + 1 == cmds.length)) 1 c.1 c.2 0 (i == 0))

/-- OPERATION to a rail controlled by PMBus, its waiting start commands withdrawn. -/
def Dev.operate (d : Dev) (n rank code : Nat) : Dev :=
  let b := TT_RAIL_CFG.bus d n
  let mine := fun (x : BusItem) => match x.use with
    | .start r _ => r != n
    | _ => true
  let d1 := d.modPb b (fun m => { m with queue := m.queue.filter mine })
  if d.busCtl n then d1.pbPut b [d.railItem n (.off n) rank 0x01 (leBytes code 1) 0 true] else d1

/-- A STATUS_WORD read of a rail, unless one waits. -/
def Dev.pollRail (d : Dev) (n : Nat) : Dev :=
  let b := TT_RAIL_CFG.bus d n
  if (d.pb b).queue.any (fun x => x.use == .poll n) then d
  else d.pbPut b [d.railItem n (.poll n) 2 0x79 [] 2 true]

/-! ### Rail monitors (R272, Table 10-1) -/

/-- STATUS_WORD shows good. -/
def Dev.statusGood (d : Dev) (n : Nat) : Bool :=
  let s := (d.rail n).status
  (d.rail n).read && !bitOf s 11 && !bitOf s 6 && Nat.land s (TT_RAIL_VOUT.fault_mask d n) == 0
/-- STATUS_WORD shows off. -/
def Dev.statusOff (d : Dev) (n : Nat) : Bool := (d.rail n).read && bitOf (d.rail n).status 6
/-- STATUS_WORD shows a fault on a good rail. -/
def Dev.statusFault (d : Dev) (n : Nat) : Bool :=
  let s := (d.rail n).status
  (d.rail n).read && (bitOf s 11 || Nat.land s (TT_RAIL_VOUT.fault_mask d n) != 0)
/-- RMONn stands at its active level. -/
def Dev.railActive (d : Dev) (n : Nat) : Bool := (d.rail n).level == (TT_RAIL_CFG.pol_mon d n == 1)
/-- The rail is good. -/
def Dev.railGood (d : Dev) (n : Nat) : Bool :=
  (!d.pinMon n || d.railActive n) && (!d.busMon n || d.statusGood n)
/-- The rail is off. -/
def Dev.railOff (d : Dev) (n : Nat) : Bool :=
  (!d.pinMon n || !d.railActive n) && (!d.busMon n || d.statusOff n)

/-! ### States, events, commands -/

/-- The Timetable enters a state (TIMETABLE_STATE, spec/15). -/
def Dev.ttEnter (d : Dev) (s : TimetableState) : Dev :=
  if d.tt.state = s then d
  else (d.modTt (fun t => { t with state := s })).raise 0x0164 clsC 144 s.code d.tt.step

/-- The device drives its own sequence: it is the head, or runs alone (R283). -/
def Dev.leadsBell (d : Dev) : Bool := TT_BELL.en d == 0 || TT_BELL.head d == 1

/-- The run's command ends with a status. -/
def Dev.ttEnd (d : Dev) (status : Nat) : Dev :=
  let k := d.tt.fetch
  (d.modTt (fun t => { t with fetch := none })).finishOpt k status []

/-- A queued run up ends with a status. -/
def Dev.ttUnqueue (d : Dev) (status : Nat) : Dev :=
  let k := d.tt.queued.bind (·.fetch)
  (d.modTt (fun t => { t with queued := none })).finishOpt k status []

/-- The eight cells of a Bell frame, cell 0 in bit 7: start, direction, step, odd parity over cells 1 to 5, stop
(R284). -/
def bellCells (up : Bool) (k : Nat) : Nat :=
  let body := 16 * flag up + k % 16
  128 + 4 * body + 2 * flag (popcount 5 body % 2 == 0)

/-- A frame leaves on BELL_OUT (R284). -/
def Dev.bellSend (d : Dev) (up : Bool) (k : Nat) : Dev :=
  (d.modTt (fun t => { t with lastUp := up, lastStep := k })).emit (.bell (bellCells up k))

/-- RDISn is driven for dis_time. -/
def Dev.discharge (d : Dev) (n : Nat) : Dev :=
  d.modRail n (fun r => { r with dis := some (d.now + TT_RAIL_TIM.dis_time d n * ticksPerMs) })

/-- The off action of a rail (R277, R279): REN inactive, OPERATION, RDISn where it is to be driven. A rail whose
monitors show off already is OFF at once (R272). -/
def Dev.railCut (d : Dev) (n rank code : Nat) (st : RailState) (force : Bool) : Dev :=
  let d1 := d.modRail n (fun r => { r with state := st, ren := false, since := d.now, read := false })
  let d2 := d1.operate n rank code
  let d3 := if force || TT_RAIL_CFG.dis_en d n == 1 then d2.discharge n else d2
  if d3.railOff n then d3.modRail n (fun r => { r with state := .off }) else d3

/-- A rail goes down. -/
def Dev.railOffAction (d : Dev) (n rank code : Nat) (force : Bool) : Dev := d.railCut n rank code .falling force

/-! ### Shut-off (R279, R282) -/

/-- Every rail is shut off at once; `own` when a rail of this device showed the fault (R279, R282). -/
def Dev.ttShutOff (d : Dev) (own : Bool) : Dev :=
  match d.tt.state with
  | .rising | .up | .falling =>
    let pull := own && TT_CTRL.halt_out d == 1
    let fall := fun (n : Nat) (d : Dev) =>
      match (d.rail n).state with
      | .off | .waiting => d.railCut n 0 0x00 .off false
      | _ => d.railCut n 0 0x00 .falling false
    let d1 := forAll fall d.railsIn (d.release slotTimetable)
    let d2 := d1.modTt (fun t => { t with haltAt := d.now, drive := pull, level := t.level && !pull, gap := none,
                                          busy := false, ringEnd := none, shedStep := none, shedGap := none })
    (((d2.ttEnter .halted).raise 0x0167 clsB 146 (flag pull) 0).ttEnd stAborted).ttUnqueue stAborted
  | _ => d

/-! ### Steps (R274, R275, R277, R280) -/

/-- How a device tells the ring that it has done a step, or that it goes on by itself. -/
inductive StepEnd where
  | alone
  | head
  | member
  deriving DecidableEq, Repr

/-- The part the device plays in its ring. -/
def Dev.ringPart (d : Dev) : StepEnd :=
  if TT_BELL.en d = 0 then .alone else if TT_BELL.head d = 1 then .head else .member

/-- A run is over: PARTIAL when something was late or slow (R280). -/
def Dev.ttRunDone (d : Dev) (bad : Bool) : Dev := d.ttEnd (if bad then stPartial else stDone)

/-- The Timetable enters DOWN; off_min begins. -/
def Dev.ttDown (d : Dev) : Dev :=
  (d.modTt (fun t => { t with downAt := d.now, drive := false, gap := none, busy := false })).ttEnter .down

/-- One more step of the run's command commits. -/
def Dev.ttCommit (d : Dev) : Dev :=
  let n := d.tt.taken + 1
  (d.modTt (fun t => { t with taken := n })).commitOpt d.tt.fetch n

/-- Single-Line Working holds a rail of step `k` down. -/
def Dev.stepHeld (d : Dev) (k : Nat) : Bool := (d.railsOf k).any (fun n => bitOf d.tt.shed n)

/-- The rails of step `k` up ask for leave, or the step has none (R275). Answers whether the step is over at once. A
stage that would raise a shed rail is rejected, and the run goes on for the others without its command (R18, log entry
118). -/
def Dev.stepUp (d' : Dev) (k : Nat) : Bool × Dev :=
  let d := if d'.stepHeld k then d'.ttEnd stRejected else d'
  let ns := d.railsUp k
  let d0 := d.modTt (fun t => { t with step := k, gap := none, busy := true })
  if ns.isEmpty then (true, d0)
  else
    let sum := (ns.map (fun n => TT_RAIL_CFG.inrush d n * 100)).sum
    let longest := ns.foldl (fun m n => max m (TT_RAIL_TIM.pg_timeout d n)) 0
    let d1 := forAll (fun n d => d.modRail n (fun r => { r with state := .waiting })) ns d0
    (false, d1.request slotTimetable {
      rank := d.tt.rank, surge := sum, span := longest * ticksPerMs, tagged := d.tt.fetch.isSome })

/-- The rails of step `k` go down (R277). Answers whether the step is over at once. -/
def Dev.stepDown (d : Dev) (k : Nat) : Bool × Dev :=
  let ns := (d.railsOf k).filter (fun n => (d.rail n).state != .off)
  let move := fun (n : Nat) (d : Dev) =>
    match (d.rail n).state with
    | .falling => d
    | .waiting => d.modRail n (fun r => { r with state := .off })
    | .ramping => d.railOffAction n 1 0x00 true
    | _ => d.railOffAction n 1 0x40 false
  let d1 := forAll move ns (d.modTt (fun t => { t with step := k, gap := none, busy := true }))
  ((d1.railsOf k).all (fun n => (d1.rail n).state == .off), d1)

/-- What a finished step leads to, `n` bounding the steps without gap or rails that follow at once. `returned` when the
ring has brought the frame back, or it never goes out. -/
def Dev.stepNext : Nat → Bool → Bool → Dev → Dev
  | 0, _, _, d => d
  | n + 1, up, returned, d =>
    let k := d.tt.step
    let part := d.ringPart
    if part = .member then
      let d1 := (d.modTt (fun t => { t with busy := false })).bellSend up k
      if up then if k = TT_CTRL.last_step d then d1.ttEnter .up else d1
      else if k = 0 then d1.ttDown else d1
    else if part = .head ∧ returned = false then
      let back := some (d.now + TT_BELL.bell_timeout d * ticksPerMs)
      (d.modTt (fun t => { t with busy := false, ringEnd := back })).bellSend up k
    else
      let d1 := (d.modTt (fun t => { t with busy := false, ringEnd := none })).ttCommit
      if up then
        if k = TT_CTRL.last_step d then
          let late := d1.railsIn.any (fun r => (d1.rail r).state == .late)
          (d1.ttEnter .up).ttRunDone late
        else if TT_STEP.gap_up d (k + 1) = 0 then
          let s := d1.stepUp (k + 1)
          if s.1 then Dev.stepNext n up false s.2 else s.2
        else d1.modTt (fun t => { t with step := k + 1, gap := some (d.now + TT_STEP.gap_up d (k + 1) * ticksPerMs) })
      else if k = 0 then
        (d1.ttDown).ttRunDone d1.tt.partly
      else if TT_STEP.gap_down d (k - 1) = 0 then
        let s := d1.stepDown (k - 1)
        if s.1 then Dev.stepNext n up false s.2 else s.2
      else d1.modTt (fun t => { t with step := k - 1, gap := some (d.now + TT_STEP.gap_down d (k - 1) * ticksPerMs) })

/-- A step begins now and, where it is over at once, leads on. -/
def Dev.runStep (d : Dev) (up : Bool) (k : Nat) : Dev :=
  let s := if up then d.stepUp k else d.stepDown k
  if s.1 then Dev.stepNext 40 up false s.2 else s.2

/-- A rail's change completes its step, when every rail of it is through (R275, R277). -/
def Dev.stepCheck (d : Dev) : Dev :=
  let ns := d.railsOf d.tt.step
  if !d.tt.busy then d
  else
    match d.tt.state with
    | .rising =>
      let through := (d.railsUp d.tt.step).all (fun n => (d.rail n).state == .good || (d.rail n).state == .late)
      if through then Dev.stepNext 40 true false (d.release slotTimetable) else d
    | .falling => if ns.all (fun n => (d.rail n).state == .off) then Dev.stepNext 40 false false d else d
    | _ => d

/-! ### Leave for a step (R275, R276) -/

/-- A rail becomes LATE: cause 0 timeout, 1 no leave (Table 10-6). -/
def Dev.railLate (d : Dev) (n cause : Nat) : Dev :=
  (d.modRail n (fun r => { r with state := .late })).raise 0x0160 clsB (128 + n) (TT_RAIL_CFG.step d n)
    (Config.coding 0x0160 cause)

/-- A rail starts (R275): its transactions, then REN; a rail without a bus asserts REN now. -/
def Dev.railStart (d : Dev) (n : Nat) : Dev :=
  let d1 := d.modRail n (fun r => { r with state := .ramping, since := d.now, read := false })
  if d.onBus n then d1.pbPut (TT_RAIL_CFG.bus d n) (d.startItems n) else d1.modRail n (fun r => { r with ren := true })

/-- A rail that is good already when it starts is GOOD at once. -/
def Dev.railTop (d : Dev) (n : Nat) : Dev :=
  if (d.rail n).state = .ramping ∧ d.railGood n = true then d.modRail n (fun r => { r with state := .good }) else d

/-- Leave is granted to a step. -/
def Dev.ttGranted (d : Dev) : Dev :=
  let ns := (d.railsOf d.tt.step).filter (fun n => (d.rail n).state == .waiting)
  if d.tt.state ≠ .rising ∨ ns.isEmpty = true then d.release slotTimetable
  else (forAll (fun n d => (d.railStart n).railTop n) ns d).stepCheck

/-- No leave for a step within the timeout: its rails become LATE and it completes (R276). -/
def Dev.ttGaveUp (d : Dev) : Dev :=
  let ns := (d.railsOf d.tt.step).filter (fun n => (d.rail n).state == .waiting)
  if d.tt.state = .rising then (forAll (fun n d => d.railLate n 1) ns d).stepCheck else d

/-! ### Runs (R274, R277, R280, R283) -/

/-- A run up may begin: HALT_N is high and off_min has passed. -/
def Dev.upReady (d : Dev) : Bool :=
  d.tt.level && decide (d.tt.downAt + TT_CTRL.off_min d * 10 * ticksPerMs ≤ d.now)

/-- The rails that Single-Line Working takes down (R327). -/
def Dev.shedMask (d : Dev) : Nat := maskOf 16 (fun n => !bitOf (IL_SLW_RL.rl_keep d) n)

/-- A run up begins at a step, its gap first where the device leads: the stages of its command are counted again (R398). It
raises no rail that Single-Line Working has shed (R17). -/
def Dev.ttRise (d : Dev) (q : QueuedRun) : Dev :=
  let d0 := d.recount q.fetch (TT_CTRL.last_step d + 1)
  let d1 := d0.modTt (fun t => { t with queued := none, fetch := q.fetch, rank := q.rank, taken := 0, step := q.step,
                                        shed := if d.il.slw && d.il.railsShed then d.shedMask else 0, partly := false })
  let d2 := d1.ttEnter .rising
  let gap := TT_STEP.gap_up d q.step
  if d.leadsBell && gap != 0 then d2.modTt (fun t => { t with gap := some (d.now + gap * ticksPerMs) })
  else d2.runStep true q.step

/-- A queued run up begins when its condition holds. -/
def Dev.ttTryQueued (d : Dev) : Dev :=
  match d.tt.queued with
  | some q => if d.tt.state = .down ∧ d.upReady = true ∧ d.noStarts = false then d.ttRise q else d
  | none => d

/-- A run up from a command, auto_up or a Bell frame in DOWN. -/
def Dev.ttUp (d : Dev) (q : QueuedRun) : Dev :=
  if d.upReady then d.ttRise q else d.modTt (fun t => { t with queued := some q })

/-- A run down begins at step `k` (R277): a run up in progress ends SUPERSEDED, and FALLING is told with that step. -/
def Dev.ttFall (d : Dev) (fetch : Option Nat) (k : Nat) : Dev :=
  let d1 := ((d.release slotTimetable).ttEnd stSuperseded).modTt (fun t =>
    { t with step := k, fetch := fetch, taken := 0, partly := false, gap := none, busy := false, ringEnd := none, shedStep := none,
             shedGap := none })
  (d1.ttEnter .falling).runStep false k

/-! ### Monitors at work (R272 to R279) -/

/-- A good rail shows a fault (R278, R279). `bus` when its PMBus monitor showed it; `word` is what it showed. -/
def Dev.railFault (d : Dev) (n word : Nat) (bus : Bool) : Dev :=
  match d.tt.state with
  | .rising | .up =>
    let d1 := d.ttShutOff true
    d1.report (det 0x38 (128 + n) 0x30 (if bus then accRead else accMeasure) (detAddr 0x03 n))
  | .falling =>
    let d1 := (d.modRail n (fun r => { r with state := .failedDown })).modTt (fun t => { t with partly := true })
    d1.raise 0x0161 clsB (128 + n) word 0
  | _ => d

/-- HALTED ends when every rail is off and halt_min has passed (R282). -/
def Dev.ttUnhalt (d : Dev) : Dev :=
  let off := d.railsIn.all (fun n => (d.rail n).state == .off)
  if d.tt.state = .halted ∧ off = true ∧ d.tt.haltAt + TT_BELL.halt_min d * ticksPerMs ≤ d.now then
    (d.ttDown).ttTryQueued
  else d

/-- A step of the shedding is over when its rails are OFF (R327): the next lower one follows after its gap. -/
def Dev.shedNext : Nat → Dev → Dev
  | 0, d => d
  | m + 1, d =>
    match d.tt.shedStep, d.tt.shedGap with
    | some k, none =>
      let ns := (d.railsOf k).filter (fun n => bitOf d.tt.shed n)
      if !ns.all (fun n => (d.rail n).state == .off) then d
      else if k = 0 then d.modTt (fun t => { t with shedStep := none })
      else if TT_STEP.gap_down d (k - 1) = 0 then
        let low := (d.railsOf (k - 1)).filter (fun n => bitOf d.tt.shed n && (d.rail n).state != .off)
        let d1 := forAll (fun n d => d.railOffAction n 1 0x40 false) low
          (d.modTt (fun t => { t with shedStep := some (k - 1) }))
        Dev.shedNext m d1
      else d.modTt (fun t => { t with shedStep := some (k - 1),
                                      shedGap := some (d.now + TT_STEP.gap_down d (k - 1) * ticksPerMs) })
    | _, _ => d

/-- What a rail that has become OFF completes: its step, HALTED, or the shedding. -/
def Dev.railGone (d : Dev) : Dev := ((d.stepCheck).ttUnhalt).shedNext 40

/-- A monitor of a rail has shown something new (R272, R276). -/
def Dev.railUpdate (d : Dev) (n : Nat) : Dev :=
  match (d.rail n).state with
  | .ramping | .late => if d.railGood n then (d.modRail n (fun r => { r with state := .good })).stepCheck else d
  | .good =>
    if d.pinMon n && !d.railActive n then d.railFault n (flag (d.rail n).level) false
    else if d.busMon n && d.statusFault n then d.railFault n (d.rail n).status true
    else d
  | .falling => if d.railOff n then (d.modRail n (fun r => { r with state := .off })).railGone else d
  | _ => d

/-- RMON_CHANGE: RMONn has held level `high` for pg_filt (R272). -/
def rmonChange (n : Fin 16) (high : Bool) (d : Dev) : Dev :=
  if d.coreRuns then
    (d.modRail n (fun r => { r with level := high })).railUpdate n
  else d

/-- PG_TIMEOUT: pg_timeout has passed since a rail's start (R275). -/
def pgTimeout (n : Fin 16) (d : Dev) : Dev :=
  if d.coreRuns && (d.rail n).state == .ramping then
    ((d.until ((d.rail n).since + TT_RAIL_TIM.pg_timeout d n * ticksPerMs)).railLate n 0).stepCheck
  else d

/-- OFF_TIMEOUT: a falling rail counts as OFF (R277). -/
def offTimeout (n : Fin 16) (d : Dev) : Dev :=
  if d.coreRuns && (d.rail n).state == .falling then
    let d1 := d.until ((d.rail n).since + TT_RAIL_TIM.off_timeout d n * ticksPerMs)
    let d2 := (d1.modRail n (fun r => { r with state := .off })).modTt (fun t => { t with partly := true })
    (d2.raise 0x0162 clsC (128 + n) (TT_RAIL_CFG.step d n) 0).railGone
  else d

/-- DIS_TIME_END: RDISn is released (R277). -/
def disTimeEnd (n : Fin 16) (d : Dev) : Dev :=
  match d.coreRuns, (d.rail n).dis with
  | true, some t => (d.until t).modRail n (fun r => { r with dis := none })
  | _, _ => d

/-- STEP_GAP_UP_END (R275). -/
def stepGapUpEnd (d : Dev) : Dev :=
  match d.coreRuns && d.tt.state == .rising, d.tt.gap with
  | true, some t => (d.until t).runStep true d.tt.step
  | _, _ => d

/-- STEP_GAP_DOWN_END (R277), of a run down or of the shedding of R327. -/
def stepGapDownEnd (d : Dev) : Dev :=
  match d.coreRuns, d.tt.state, d.tt.gap, d.tt.shedGap, d.tt.shedStep with
  | true, .falling, some t, _, _ => (d.until t).runStep false d.tt.step
  | true, _, _, some t, some k =>
    let d0 := (d.until t).modTt (fun s => { s with shedGap := none })
    let ns := (d0.railsOf k).filter (fun n => bitOf d0.tt.shed n && (d0.rail n).state != .off)
    (forAll (fun n d => d.railOffAction n 1 0x40 false) ns d0).shedNext 40
  | _, _, _, _, _ => d

/-- Step 3 of R327: the rails without a keep bit go down, in reverse step order. A stage in progress that was to raise
one of them does not commit, also while a head waits for its frame: its command ends (R18). -/
def Dev.shedRails (d : Dev) : Dev :=
  let mask := d.shedMask
  match d.tt.state with
  | .rising | .up =>
    let d0 := d.modTt (fun t => { t with shed := mask })
    let under := d0.tt.state = .rising ∧ (d0.tt.busy = true ∨ d0.tt.ringEnd.isSome = true)
    let d1 := if under ∧ d0.stepHeld d0.tt.step = true then d0.ttEnd stAborted else d0
    let top := TT_CTRL.last_step d
    let mine := d1.railsIn.filter (fun n => bitOf mask n)
    let stop := fun (n : Nat) (d : Dev) => match (d.rail n).state with
      | .waiting => d.modRail n (fun r => { r with state := .off })
      | .ramping => d.railOffAction n 1 0x00 true
      | _ => d
    let d2 := (forAll stop mine d1).stepCheck
    let first := mine.filter (fun n => TT_RAIL_CFG.step d n == top && (d2.rail n).state != .off
      && (d2.rail n).state != .falling)
    let d3 := forAll (fun n d => d.railOffAction n 1 0x40 false) first
      (d2.modTt (fun t => { t with shedStep := some top, shedGap := none }))
    d3.shedNext 40
  | _ => d

/-- OFF_MIN_END: off_min has passed in DOWN (R274). -/
def offMinEnd (d : Dev) : Dev :=
  if d.coreRuns && d.tt.state == .down then
    (d.until (d.tt.downAt + TT_CTRL.off_min d * 10 * ticksPerMs)).ttTryQueued
  else d

/-- HALT_MIN_END: halt_min has passed in HALTED (R282). -/
def haltMinEnd (d : Dev) : Dev :=
  if d.coreRuns && d.tt.state == .halted then
    (d.until (d.tt.haltAt + TT_BELL.halt_min d * ticksPerMs)).ttUnhalt
  else d

/-- HALT_N_FALL: HALT_N has fallen and stayed low for 1 µs (R282). -/
def haltNFall (d : Dev) : Dev :=
  let d1 := d.modTt (fun t => { t with level := false })
  if d.coreRuns && d.tt.level && TT_CTRL.halt_in d == 1 then d1.ttShutOff false else d1

/-- HALT_N_RISE: HALT_N is high; this device does not pull it (R282). -/
def haltNRise (d : Dev) : Dev :=
  if d.tt.drive then d
  else
    let d1 := d.modTt (fun t => { t with level := true })
    if d.coreRuns then d1.ttTryQueued else d1

/-! ### The Bell line (R284 to R287) -/

/-- Cell `i` of a received frame, cell 0 first. -/
def cellOf (cells : BitVec 8) (i : Nat) : Bool := bitOf cells.toNat (7 - i)

/-- The cell that makes a frame fail (R284): start, parity or stop. -/
def badCell (cells : BitVec 8) : Option Nat :=
  if !cellOf cells 0 then some 0
  else if popcount 6 (cells.toNat / 2) % 2 = 0 then some 6
  else if cellOf cells 7 then some 7
  else none

/-- A frame for another step reaches a device that still executes one up: a request that waits is withdrawn, a token
that is held returns, and the rails that wait for leave stay OFF (log entry 116). -/
def Dev.stepAbandoned (d : Dev) : Dev :=
  let waits := (d.railsOf d.tt.step).filter (fun n => (d.rail n).state == .waiting)
  forAll (fun n d => d.modRail n (fun r => { r with state := .off })) waits (d.release slotTimetable)

/-- A member executes a frame's step and sends the frame on (R285, R286). -/
def Dev.bellMember (d : Dev) (up : Bool) (k : Nat) : Dev :=
  let drop := fun (n : Nat) (d : Dev) => match (d.rail n).state with
    | .waiting => d.modRail n (fun r => { r with state := .off })
    | .ramping => d.railOffAction n 1 0x00 true
    | _ => d
  match d.tt.state, up with
  | .down, true =>
    if d.noStarts || !d.tt.level || d.tt.queued.isSome then d else d.ttUp ⟨none, 1, k⟩
  | .down, false => (d.ttUnqueue stSuperseded).bellSend false k
  | .rising, true => (d.stepAbandoned).runStep true k
  | .rising, false =>
    let d1 := forAll drop (d.railsOf d.tt.step) d
    d1.ttFall none k
  | .up, true => d.bellSend true k
  | .up, false => d.ttFall none k
  | .falling, true => if d.tt.queued.isSome then d else d.modTt (fun t => { t with queued := some ⟨none, 1, k⟩ })
  | .falling, false => (d.ttUnqueue stSuperseded).runStep false k
  | .halted, _ => d

/-- A frame returns to the head (R285, R286). -/
def Dev.bellHead (d : Dev) (up : Bool) (k : Nat) : Dev :=
  if d.tt.ringEnd.isNone ∨ d.tt.step ≠ k then d
  else if (d.tt.state = .rising ∧ up = true) ∨ (d.tt.state = .falling ∧ up = false) then Dev.stepNext 40 up true d
  else d

/-- BELL_FRAME_RECEIVED: the eight cells as a receiver samples them, cell 0 in bit 7 (R284). -/
def bellFrameReceived (cells : BitVec 8) (d : Dev) : Dev :=
  if !d.coreRuns || TT_BELL.en d == 0 then d
  else
    match badCell cells with
    | some c =>
      (d.modTt (fun t => { t with frameErr := held 255 (t.frameErr + 1) })).raise 0x0166 clsC 145 c 0
    | none =>
      let up := cellOf cells 1
      let k := bitsOf cells.toNat 2 4
      let d1 := d.modTt (fun t => { t with lastUp := up, lastStep := k })
      if TT_BELL.head d = 1 then d1.bellHead up k else d1.bellMember up k

/-- BELL_LOST: a frame has not returned within bell_timeout (R287). -/
def bellLost (d : Dev) : Dev :=
  match d.coreRuns, d.tt.ringEnd with
  | true, some t =>
    let up := d.tt.state == .rising
    let d1 := (d.until t).modTt (fun t => { t with lost := held 255 (t.lost + 1) })
    Dev.stepNext 40 up true (d1.raise 0x0165 clsB 145 d.tt.step (flag up))
  | _, _ => d

/-! ### Commands -/

/-- A resumed command takes over the run in progress: the steps the run has taken commit at once (R387). -/
def Dev.runRejoin (d : Dev) (k : Nat) : Dev := (d.modTt (fun t => { t with fetch := some k })).commit k d.tt.taken

/-- A run up while one is queued: refused, but that a resumed command takes over the one its closed command left. -/
def Dev.queueRejoin (d : Dev) (c : OpenCmd) : Dev :=
  if c.resumed && d.gone (d.tt.queued.bind (·.fetch)) then
    d.modTt (fun t => { t with queued := t.queued.map (fun q => { q with fetch := some c.fetch }) })
  else d.finish c.fetch stRejected []

/-- TIMETABLE_RUN up (R274, R283). -/
def Dev.runUp (d : Dev) (c : OpenCmd) : Dev :=
  let k := c.fetch
  let q : QueuedRun := ⟨some k, ringRank c.desc.ring.val, 0⟩
  if !d.leadsBell || d.noStarts then d.finish k stRejected []
  else
    match d.tt.state with
    | .up => d.finish k stDone []
    | .halted => d.finish k stRejected []
    | .rising => if c.resumed && d.gone d.tt.fetch then d.runRejoin k else d.finish k stRejected []
    | .down =>
      if d.tt.queued.isSome then d.queueRejoin c
      else if !d.tt.level then d.finish k stRejected [] else d.ttUp q
    | .falling => if d.tt.queued.isSome then d.queueRejoin c else d.modTt (fun t => { t with queued := some q })

/-- TIMETABLE_RUN down (R274, R277, R283). In FALLING the run in progress goes on. -/
def Dev.runDown (d : Dev) (k : Nat) : Dev :=
  if !d.leadsBell then d.finish k stRejected []
  else
    let d1 := d.ttUnqueue stSuperseded
    match d1.tt.state with
    | .down | .halted => d1.finish k stDone []
    | .falling => d1.finish k stRejected []
    | .up => d1.ttFall (some k) (TT_CTRL.last_step d)
    | .rising => d1.ttFall (some k) d1.tt.step

/-- TIMETABLE_RUN (R280). -/
def specTimetableRun : OpSpec where
  code := 0x51
  cls := clsTimetable
  count := 1
  stdOk := true
  expOk := false
  total := fun c d =>
    if c.byte 20 = 1 then if d.tt.state = .up then 0 else TT_CTRL.last_step d + 1
    else match d.tt.state with
      | .down | .halted => 0
      | .up => TT_CTRL.last_step d + 1
      | _ => d.tt.step + 1
  inSlw := fun c => c.byte 20 == 0
  preempt := fun c => c.byte 20 == 0
  params := fun c _ => c.byte 20 ≤ 1
  begin := fun c d => if c.desc.byte 20 = 1 then d.runUp c else d.runDown c.fetch
  resume := fun c d =>
    let mine := d.gone d.tt.fetch && c.done ≤ d.tt.taken
    let late := (indices 16).any (fun n => (d.rail n).state == .late)
    match d.tt.state, c.desc.byte 20 == 1 with
    | .rising, true | .falling, false => if mine then some (d.runRejoin c.fetch) else none
    | .up, true => some (d.commitAll c.fetch (if late then stPartial else stDone) [])
    | .down, false => some (d.commitAll c.fetch (if d.tt.partly then stPartial else stDone) [])
    | _, _ => none

/-- The registers of TIMETABLE_LOAD (Table 15-5). -/
def timetableRegs : List Nat :=
  [0x4800, 0x4804] ++ (indices 16).map (fun k => 0x4810 + 4 * k)
  ++ (indices 16).flatMap (fun n => (indices 5).map (fun j => 0x4880 + 0x20 * n + 4 * j))

/-- The exponent a Standard field list leaves for a rail: its own word, else the register. -/
def Dev.newExp (d : Dev) (c : Desc) (n : Nat) : Int :=
  let at' := (fieldList timetableRegs).findIdx (fun p => p.1 == TT_RAIL_PMB.reg n && p.2.lo == 12)
  match c.given at' with
  | .unchanged => signedOf 5 (TT_RAIL_PMB.vout_exp d n)
  | .value v => signedOf 32 v

/-- A voltage in mV as a LINEAR16 mantissa (R290). -/
def linear16 (mv : Nat) (e : Int) : Nat :=
  if e < 0 then roundDivN (mv * 2 ^ (-e).toNat) 1000 else roundDivN mv (1000 * 2 ^ e.toNat)

/-- The Standard units of TIMETABLE_LOAD (R281, R290, R394): times in ms, currents in mA, voltages in mV. -/
def Dev.timetableConv (d : Dev) (c : Desc) (off : Nat) (x : Field) (v : Nat) : Option Int :=
  if off = 0x4800 ∧ x.lo = 9 then some (roundDivN v 10 : Nat)
  else if off < 0x4880 then some v
  else
    let n := (off - 0x4880) / 0x20
    match (off - 0x4880) % 0x20, x.lo with
    | 0x00, 0 => some (roundDivN v 100 : Nat)
    | 0x04, 0 => some ((v * 10 : Nat) : Int)
    | 0x08, 12 => some (signedOf 32 v)
    | 0x0C, 16 => some (linear16 v (d.newExp c n) : Nat)
    | 0x10, _ => some (linear16 v (d.newExp c n) : Nat)
    | _, _ => some v

/-- vmin does not lie above a non-zero vmax (Table 10-15), where `gives` has one of the two by register and lowest bit
(R395). -/
def Dev.railRegsOk (d : Dev) (gives : Nat → Nat → Bool) (n : Nat) : Bool :=
  !(gives (TT_RAIL_VLIM.reg n) 16 || gives (TT_RAIL_VLIM.reg n) 0)
    || TT_RAIL_VLIM.vmax d n == 0 || TT_RAIL_VLIM.vmin d n ≤ TT_RAIL_VLIM.vmax d n

/-- The images a TIMETABLE_LOAD gives, `none` where a word has no code. -/
def Dev.timetableGiven (d : Dev) (p : Desc) : Option (List (Nat × Nat)) :=
  if p.expert then some (p.images timetableRegs)
  else standardImages (d.timetableConv p) d.reg 0 p.given (fieldList timetableRegs) []

/-- The parameters of a TIMETABLE_LOAD are in range (R5, R290). -/
def Dev.timetableFits (d : Dev) (p : Desc) : Bool :=
  4 * (if p.expert then timetableRegs.length else (fieldList timetableRegs).length) ≤ p.length.toNat
    && match d.timetableGiven p with
      | none => false
      | some ims => p.imagesFit ims
        && (indices 16).all ((d.setImages ims).railRegsOk (p.gives (fieldList timetableRegs)))

/-- TIMETABLE_LOAD (R281, R290). -/
def specTimetableLoad : OpSpec where
  code := 0x50
  cls := clsTimetable
  count := 1
  stdOk := true
  expOk := true
  total := fun _ _ => 1
  params := fun c d => d.timetableFits c
  begin := fun c d =>
    if d.tt.state ≠ .down then d.finish c.fetch stRejected []
    else match d.timetableGiven c.desc with
      | none => d.finish c.fetch stBadParam []
      | some ims =>
        if d.timetableFits c.desc then (d.setImages ims).commitAll c.fetch stDone [] else d.finish c.fetch stBadParam []

/-- A start with auto_up set, at a head or a device running alone (Table 10-7, R282). -/
def Dev.timetableAuto (d : Dev) : Dev :=
  if TT_CTRL.auto_up d = 0 ∨ d.leadsBell = false ∨ d.noStarts = true ∨ d.tt.state ≠ .down then d
  else d.ttUp ⟨none, 1, 0⟩

end Sys2Proof.Machine
end

