-- ==== Sys2Proof/Machine/Buses.lean ====
section
/-! DEFINITION. The PMBus and AVSBus masters at work (spec/10_timetable.md R273, R288 to R294; spec/15 Table 15-5). -/
namespace Sys2Proof.Machine

/-! ### PMBus (R288 to R292) -/

/-- The periods of R289 begin, each where `poll` or `tele` asks: as the master begins to run, and afresh where a write
changes one (DESIGN CHOICE, log entry 153). -/
def Dev.pbPeriods (d : Dev) (b : Nat) (poll tele : Bool) : Dev :=
  d.modPb b (fun m => { m with
    pollAt := if poll then d.now + PB_CFG.poll_ms d b * ticksPerMs else m.pollAt,
    teleAt := if tele then d.now + PB_CFG.tele_ms d b * 10 * ticksPerMs else m.teleAt })

/-- PMBUS_POLL_TIMER: poll_ms has passed, and STATUS_WORD polls of the rails a master monitors are queued (R289). -/
def pmbusPollTimer (b : Fin 4) (d : Dev) : Dev :=
  if d.coreRuns && PB_CFG.en d b == 1 then
    let d1 := (d.until (d.pb b).pollAt).pbPeriods b true false
    forAll (fun n d => d.pollRail n) (d1.railsIn.filter (fun n => TT_RAIL_CFG.bus d1 n == b && d1.busMon n)) d1
  else d

/-- The READ polls of a rail, unless they wait. -/
def Dev.teleRail (d : Dev) (n : Nat) : Dev :=
  let b := TT_RAIL_CFG.bus d n
  let waits := fun (code : Nat) => (d.pb b).queue.any (fun x => x.use == .tele n code)
  let codes := [0x88, 0x8B, 0x8C, 0x8D].filter (fun c => !waits c)
  d.pbPut b (codes.map (fun c => d.railItem n (.tele n c) 4 c [] 2 true))

/-- PMBUS_TELE_TIMER: tele_ms has passed, and READ polls of the rails on a master are queued (R289); a tele_ms of 0
disables them. -/
def pmbusTeleTimer (b : Fin 4) (d : Dev) : Dev :=
  if d.coreRuns && PB_CFG.en d b == 1 && PB_CFG.tele_ms d b != 0 then
    let d1 := (d.until (d.pb b).teleAt).pbPeriods b false true
    forAll (fun n d => d.teleRail n) (d1.railsIn.filter (fun n => TT_RAIL_CFG.bus d1 n == b && d1.onBus n)) d1
  else d

/-- SMBALERT: PBbALERT_N takes a level, `low` or high; while it is low the Alert Response Address is read (R291). -/
def smbAlert (b : Fin 4) (low : Bool) (d : Dev) : Dev :=
  let d1 := d.modPb b (fun m => { m with alert := low })
  if d.coreRuns then d1.pbServe b else d1

/-- LINEAR11 as a number of thousandths. -/
def linear11 (w : Nat) : Int :=
  let e := signedOf 5 (bitsOf w 11 5)
  let y := signedOf 11 (bitsOf w 0 11)
  if e < 0 then roundDiv (y * 1000) (2 ^ (-e).toNat) else y * 1000 * 2 ^ e.toNat

/-- LINEAR16 in mV (R290). -/
def linear16Mv (w : Nat) (e : Int) : Int :=
  if e < 0 then roundDiv ((w * 1000 : Nat) : Int) (2 ^ (-e).toNat) else ((w * 1000 : Nat) : Int) * 2 ^ e.toNat

/-- A READ result reaches its rail's State Mirror words, in mV, mA and 0.1 °C (R290). -/
def Dev.railRead (d : Dev) (n code w : Nat) : Dev :=
  if code = 0x88 then d.modRail n (fun r => { r with vin := linear11 w })
  else if code = 0x8B then
    let v := linear16Mv w (signedOf 5 (TT_RAIL_PMB.vout_exp d n))
    d.modRail n (fun r => { r with vout := v })
  else if code = 0x8C then d.modRail n (fun r => { r with iout := linear11 w })
  else d.modRail n (fun r => { r with temp := roundDiv (linear11 w) 100 })

/-- Rails a failed or good transaction to an address counts for (R273). -/
def Dev.railsAt (d : Dev) (b addr : Nat) : List Nat :=
  d.railsIn.filter (fun n => TT_RAIL_CFG.bus d n == b && TT_RAIL_PMB.addr d n == addr && d.busMon n)

/-- A failed transaction counts for a rail: the third in a row raises RAIL_BUS_LOST and, with lost_act, is a fault. -/
def Dev.railMissed (d : Dev) (n outcome : Nat) : Dev :=
  let f := (d.rail n).fails + 1
  let d1 := d.modRail n (fun r => { r with fails := held 3 f })
  if f ≠ 3 then d1
  else
    let d2 := d1.raise 0x0163 clsB (128 + n) outcome 0
    if TT_RAIL_CFG.lost_act d n = 1 ∧ (d2.rail n).state = .good then d2.railFault n (d2.rail n).status true else d2

/-- REN of a rail whose start commands are through (R275), be it LATE or GOOD by then. -/
def Dev.railEnable (d : Dev) (n : Nat) : Dev :=
  let s := (d.rail n).state
  if d.pinCtl n && (s == .ramping || s == .late || s == .good) then d.modRail n (fun r => { r with ren := true }) else d

/-- What a transaction that is over means to its user; `outcome` of R292, `data` the bytes read. -/
def Dev.busDone (d : Dev) (b : Nat) (x : BusItem) (outcome : Nat) (data : List Byte) : Dev :=
  let ok := outcome == 0
  match x.use with
  | .page =>
    if ok then d.modPb b (fun m => { m with paged := x.page.map (fun p => (x.addr, p)) })
    else
      match splitFirst (fun y => y.rank == x.rank && y.addr == x.addr && y.page == x.page) (d.pb b).queue with
      | some (pre, y, post) =>
        let d1 := d.modPb b (fun m => { m with queue := pre ++ post, paged := none })
        match y.use with
        | .start n true => d1.railEnable n
        | _ => d1
      | none => d
  | .start n last => if last then d.railEnable n else d
  | .off _ => d
  | .poll n =>
    if ok then (d.modRail n (fun r => { r with status := leAt data 0 2, read := true })).railUpdate n else d
  | .tele n code => if ok then d.railRead n code (leAt data 0 2) else d
  | .alertRead =>
    if ok then
      let a := leAt data 0 1 / 2
      let ns := d.railsIn.filter (fun n => TT_RAIL_CFG.bus d n == b && TT_RAIL_PMB.addr d n == a && d.onBus n)
      forAll (fun n d => d.pollRail n) ns d
    else d
  | .user k =>
    let got := if ok then data.take x.rd else []
    let d1 := match d.cmd k with
      | some c => d.toBuffer c.desc got
      | none => d
    let kind := match d.cmd k with
      | some c => c.desc.byte 20
      | none => 0
    d1.commitAll k stDone [outcome, got.length, if kind = 3 ∨ kind = 4 then leAt got 0 2 else 0]

/-- The counters of PB_STATUS (Table 10-17). -/
def PmbusMaster.countFail (m : PmbusMaster) (outcome : Nat) : PmbusMaster :=
  if outcome = 3 then { m with pecErr := held 255 (m.pecErr + 1) }
  else if outcome = 4 then { m with timeout := held 255 (m.timeout + 1) }
  else { m with nack := held 255 (m.nack + 1) }

/-- After a timeout, or with SDA held low, a master clocks SCL nine times and sends a stop before the next attempt
(R288). -/
def Dev.pbClear (d : Dev) (b : Nat) (needed : Bool) : Dev := if needed then d.emit (.busClear b) else d

/-- The running transaction of a master has ended, and with it, where it has to be, the bus is cleared. -/
def Dev.pbOver (d : Dev) (b : Nat) (stuck : Bool) : Dev := (d.modPb b (fun m => { m with current := none })).pbClear b stuck

/-- The transaction is tried again, as the oldest of its rank (R288, R291). -/
def Dev.pbAgain (d : Dev) (b : Nat) (x : BusItem) : Dev :=
  d.modPb b (fun m => { m with queue := { x with tries := x.tries + 1 } :: m.queue })

/-- PMBUS_TRANSACTION_DONE: the running transaction of a master ends; a failed one is counted and retried, and then
the next is served (R288, R291). `stuck` says that SDA is held low at its end. A PEC mismatch exists only with
PB_CFG.pec. -/
def pmbusTransactionDone (b : Fin 4) (outcome : Fin 5) (data : List Byte) (stuck : Bool) (d : Dev) : Dev :=
  match d.coreRuns, (d.pb b).current with
  | true, some x =>
    if outcome.val = 0 ∨ (outcome.val = 3 ∧ PB_CFG.pec d b = 0) then
      let d1 := forAll (fun n d => d.modRail n (fun r => { r with fails := 0 })) (d.railsAt b x.addr) d
      ((d1.pbOver b stuck).busDone b x 0 data).pbServe b
    else
      let d1 := (d.modPb b (fun m => m.countFail outcome)).pbOver b (stuck || outcome == 4)
      let d2 := if x.tries < PB_CFG.retries d b then d1.pbAgain b x else d1.busDone b x outcome []
      let d3 := d2.raiseLimited 0x0168 clsC (148 + b) outcome x.addr
      (forAll (fun n d => d.railMissed n outcome) (d3.railsAt b x.addr) d3).pbServe b
  | _, _ => d

/-- The bytes a POL_TRANSACTION writes after its command code (R292). -/
def polWrite (c : Desc) : List Byte :=
  let kind := c.byte 20
  let n := c.byte 23
  if kind = 1 then slice c.params 4 1
  else if kind = 2 then slice c.params 4 2
  else if kind = 5 ∨ kind = 7 then leBytes n 1 ++ slice c.params 4 n
  else []

/-- The most bytes a POL_TRANSACTION reads. -/
def polRead (c : Desc) : Nat :=
  let kind := c.byte 20
  if kind = 3 then 1 else if kind = 4 then 2 else if kind = 6 ∨ kind = 7 then c.byte 56 else 0

/-- The transaction a closed POL_TRANSACTION left with its master becomes the resumed command's (R387). -/
def Dev.polRejoin (d : Dev) (c : OpenCmd) : Option Dev :=
  let b := c.desc.idx
  let left := fun (x : BusItem) => (match x.use with
    | .user k => d.gone (some k)
    | _ => false) && x.addr == c.desc.byte 21 && x.code == c.desc.byte 22 && x.wr == polWrite c.desc
      && x.rd == polRead c.desc
  let mine := fun (x : BusItem) => { x with use := .user c.fetch }
  if (d.pb b).current.any left then some (d.modPb b (fun m => { m with current := m.current.map mine }))
  else if (d.pb b).queue.any left then
    some (d.modPb b (fun m => { m with queue := m.queue.modify (m.queue.findIdx left) mine }))
  else none

/-- POL_TRANSACTION (R292). -/
def specPolTransaction : OpSpec where
  code := 0x60
  cls := clsPmbus
  count := 4
  stdOk := true
  expOk := false
  total := fun _ _ => 1
  inSlw := fun _ => true
  params := fun c _ =>
    let kind := c.byte 20
    kind ≤ 7 && c.byte 21 ≤ 0x7F && c.byte 23 ≤ 32
      && (!(kind == 6 || kind == 7) || (1 ≤ c.byte 56 && c.byte 56 ≤ 32)) && polRead c ≤ c.length.toNat
  begin := fun c d =>
    let b := c.desc.idx
    if PB_CFG.en d b = 0 then d.finish c.fetch stRejected []
    else match if c.resumed then d.polRejoin c else none with
    | some e => e
    | none =>
      d.pbPut b [⟨.user c.fetch, 3, c.desc.byte 21, none, c.desc.byte 22, polWrite c.desc, polRead c.desc, false, 0⟩]

/-! ### AVSBus (R293, R294) -/

/-- AVSBus master `a`. -/
def Dev.av (d : Dev) (a : Nat) : AvsMaster := fileGet d.avs a default
/-- Change AVSBus master `a`. -/
def Dev.modAv (d : Dev) (a : Nat) (g : AvsMaster → AvsMaster) : Dev := { d with avs := fileMod d.avs a g }

/-- The 29 bits of a frame before its CRC: start code, command type, group 0, data type, Select, data (PRESUMED, log entry
152). -/
def AvsItem.head (x : AvsItem) : Nat :=
  place 27 2 1 + place 25 2 x.cmd + place 20 4 x.typ + place 16 4 x.sel + place 0 16 x.data

/-- The remainder of `n` more bits of `w`, highest first, on the CRC-3 x^3 + x + 1 (PRESUMED, log entry 152). -/
def crc3Bits (w : Nat) : Nat → BitVec 3 → BitVec 3
  | 0, c => c
  | n + 1, c => crc3Bits w n (if c.getLsbD 2 != w.testBit n then (c <<< 1) ^^^ 0x3 else c <<< 1)

/-- The CRC-3 of a frame that is sent (R293). -/
def AvsItem.crc (x : AvsItem) : Nat := (crc3Bits x.head 29 0).toNat

/-- A frame goes out. -/
def Dev.avStart (d : Dev) (a : Nat) (x : AvsItem) (q : List AvsItem) : Dev :=
  (d.modAv a (fun m => { m with queue := q, current := some x })).emit (.avs a x.cmd x.typ x.sel x.data x.crc)

/-- A running master resynchronises, and again 100 ms later (R293). -/
def Dev.avSync (d : Dev) (a : Nat) : Dev :=
  if AV_CFG.en d a = 1 then
    (d.modAv a (fun m => { m with syncAt := d.now + 100 * ticksPerMs, syncOwed := false })).emit (.avsSync a)
  else d

/-- An idle master serves its queue, a resynchronisation that a frame has held up first. -/
def Dev.avServe (d : Dev) (a : Nat) : Dev :=
  let m := d.av a
  if AV_CFG.en d a = 0 ∨ m.current.isSome = true then d
  else
    let d1 := if m.syncOwed then d.avSync a else d
    match m.queue with
    | [] => d1
    | x :: xs => d1.avStart a x xs

/-- Queue frames. -/
def Dev.avPut (d : Dev) (a : Nat) (xs : List AvsItem) : Dev :=
  (d.modAv a (fun m => { m with queue := m.queue ++ xs })).avServe a

/-- The Selects of a master that rails with avs_en name (R294). -/
def Dev.avSelects (d : Dev) (a : Nat) : List Nat :=
  (indices 16).filter (fun s => (indices 16).any (fun n =>
    TT_RAIL_CFG.avs_en d n == 1 && TT_RAIL_CFG.avs d n == a && TT_RAIL_CFG.avs_sel d n == s))

/-- AVS_RESYNC_TIMER: 100 ms have passed (R293); a frame that runs then ends first. -/
def avsResyncTimer (a : Fin 2) (d : Dev) : Dev :=
  if !d.coreRuns || AV_CFG.en d a == 0 then d
  else
    let d1 := d.until (d.av a).syncAt
    if (d1.av a).current.isSome then
      d1.modAv a (fun m => { m with syncAt := d1.now + 100 * ticksPerMs, syncOwed := true })
    else d1.avSync a

/-- A start resynchronises each enabled master and reads the versions (R293, R294). -/
def Dev.avsAtStart (d : Dev) (a : Nat) : Dev :=
  (d.avSync a).avPut a ((d.avSelects a).map (fun s => ⟨.version, 2, 0xF, s, 0, false⟩))

/-- AVS_ALERT: a slave holds SDATA low at idle; status is read from each Select (R294). -/
def avsAlert (a : Fin 2) (d : Dev) : Dev :=
  if d.coreRuns && AV_CFG.en d a == 1 then
    (d.modAv a (fun m => { m with alert := true })).avPut a
      ((d.avSelects a).map (fun s => ⟨.status, 2, 0xE, s, 0, false⟩))
  else d

/-- What a finished frame means to its user (R294). -/
def Dev.avsDone (d : Dev) (a : Nat) (x : AvsItem) (ack status data : Nat) : Dev :=
  match x.use with
  | .version =>
    let ns := (indices 16).filter (fun n =>
      TT_RAIL_CFG.avs_en d n == 1 && TT_RAIL_CFG.avs d n == a && TT_RAIL_CFG.avs_sel d n == x.sel)
    forAll (fun n d => d.modRail n (fun r => { r with version := data })) ns d
  | .status =>
    let more := (d.av a).queue.any (fun y => y.use == .status)
    (d.modAv a (fun m => { m with alert := m.alert && more })).raise 0x0169 clsC (152 + a) x.sel data
  | .user k => d.commitAll k stDone [ack, status, data]

/-- AVS_FRAME_DONE: the running frame of a master completes with its slave's acknowledge, status response and data; a
response with a CRC-3 mismatch is counted and retried once (R293, R294). -/
def avsFrameDone (a : Fin 2) (ack : Fin 4) (status : Fin 32) (data : BitVec 16) (crcOk : Bool) (d : Dev) : Dev :=
  match d.coreRuns, (d.av a).current with
  | true, some x =>
    if crcOk then
      let d1 := d.modAv a (fun m => { m with current := none, last := status })
      (d1.avsDone a x ack status data.toNat).avServe a
    else
      let d1 := d.modAv a (fun m => { m with current := none, crcErr := held 255 (m.crcErr + 1) })
      let d2 := d1.raiseLimited 0x016A clsC (152 + a) x.sel 0
      if x.again then (d2.avsDone a x ack status data.toNat).avServe a
      else d2.avStart a { x with again := true } (d2.av a).queue
  | _, _ => d

/-- The data types of R293. -/
def avsTypes : List Nat := [0x0, 0x1, 0x2, 0x3, 0xE, 0xF]

/-- The frame a closed AVS_TRANSACTION left with its master becomes the resumed command's (R387). -/
def Dev.avsRejoin (d : Dev) (c : OpenCmd) : Option Dev :=
  let a := c.desc.idx
  let p := c.desc
  let left := fun (x : AvsItem) => (match x.use with
    | .user k => d.gone (some k)
    | _ => false) && x.cmd == p.byte 20 && x.typ == p.byte 21 && x.sel == p.byte 22 && x.data == p.num 24 2
  let mine := fun (x : AvsItem) => { x with use := .user c.fetch }
  if (d.av a).current.any left then some (d.modAv a (fun m => { m with current := m.current.map mine }))
  else if (d.av a).queue.any left then
    some (d.modAv a (fun m => { m with queue := m.queue.modify (m.queue.findIdx left) mine }))
  else none

/-- AVS_TRANSACTION (R294). -/
def specAvsTransaction : OpSpec where
  code := 0x61
  cls := clsAvs
  count := 2
  stdOk := true
  expOk := false
  total := fun _ _ => 1
  inSlw := fun _ => true
  params := fun c _ => c.byte 20 ≤ 2 && avsTypes.contains (c.byte 21) && c.byte 22 ≤ 15
  begin := fun c d =>
    let a := c.desc.idx
    let p := c.desc
    if AV_CFG.en d a = 0 then d.finish c.fetch stRejected []
    else match if c.resumed then d.avsRejoin c else none with
    | some e => e
    | none =>
      d.avPut a [⟨.user c.fetch, p.byte 20, p.byte 21, p.byte 22, p.num 24 2, false⟩]

/-- A block reset of the Timetable ends the transactions in progress (R419, Table 16-7). -/
def Dev.busesReset (d : Dev) : Dev :=
  let endPb := fun (b : Nat) (d : Dev) =>
    let m := d.pb b
    let ks := (m.current.toList ++ m.queue).filterMap (fun x => match x.use with
      | .user k => some k
      | _ => none)
    let rest := m.queue.filter (fun x => match x.use with
      | .user _ => false
      | _ => true)
    (d.modPb b (fun m => { m with current := none, queue := rest, paged := none })).finishAll ks stAborted
  let endAv := fun (a : Nat) (d : Dev) =>
    let m := d.av a
    let ks := (m.current.toList ++ m.queue).filterMap (fun x => match x.use with
      | .user k => some k
      | _ => none)
    let rest := m.queue.filter (fun x => match x.use with
      | .user _ => false
      | _ => true)
    (d.modAv a (fun m => { m with current := none, queue := rest })).finishAll ks stAborted
  let d1 := forAll endAv (indices 2) (forAll endPb (indices 4) d)
  forAll (fun a d => d.avServe a) (indices 2) (forAll (fun b d => d.pbServe b) (indices 4) d1)

end Sys2Proof.Machine
end

