-- ==== Sys2Proof/Machine/Measure.lean ====
section
/-! DEFINITION. The Measurement Array at work: SAR results, housekeeping conversions, thermistors, cross-conversion,
converter calibration and threshold readback, and the intervals of the Background Engines' works
(spec/03_measurement_and_catch_points.md R61, R64 to R69, R73 to R76, R95, R96, R490, R491; spec/02 R57, R58). -/
namespace Sys2Proof.Machine

/-- Change converter `n`. -/
def Dev.modSar (d : Dev) (n : Nat) (g : Sar → Sar) : Dev := { d with sars := fileMod d.sars n g }

/-- The result of a sample's codes: their sum times 16 / OS (R67). -/
def sampleResult (codes : List (BitVec 12)) (os : Nat) : Int :=
  (codes.foldl (fun a c => a + c.toInt) 0) * ((16 / os : Nat) : Int)

/-- One of the codes lies at an end of its range (R67). -/
def overRange (codes : List (BitVec 12)) : Bool := codes.any (fun c => c.toInt == -2048 || c.toInt == 2047)

/-- The filter of R68. -/
def filterStep (y x : Int) (k : Nat) : Int := y + shiftRound (x - y) k

/-- MA_OVERRANGE after 8 results with the flag; it clears after 8 without (R69). -/
def Dev.overCheck (d : Dev) (n : Nat) (exceeds : Bool) : Dev :=
  let c := fileGet d.sars n default
  let up := if exceeds then held 8 (c.overRun + 1) else 0
  let dn := if exceeds then 0 else held 8 (c.clearRun + 1)
  let hit := decide (8 ≤ up) && !c.overEvt
  let told := (c.overEvt || hit) && !decide (8 ≤ dn)
  let d1 := d.modSar n (fun c => { c with overRun := up, clearRun := dn, overEvt := told,
                                          overCnt := (c.overCnt + flag exceeds) % 2 ^ 32 })
  if hit then d1.raise 0x0183 clsC 169 n 0 else d1

/-- The feed whose current a converter measures (R200). -/
def Dev.feedOfConv (d : Dev) (n : Nat) : Option Nat :=
  if 40 ≤ n ∧ n < 44 ∧ MA_CH_CFG.role d n = 4 ∧ MA_CH_CFG.role_idx d n = n - 40 then some (n - 40) else none

/-- The result of a converter's sample reaches the State Mirror (R67 to R69). -/
def Dev.takeResult (d : Dev) (n : Nat) (codes : List (BitVec 12)) : Dev :=
  let x := sampleResult codes (d.osOf n)
  let exceeds := overRange codes
  let k := MA_CH_CFG.iir d n
  let put := fun (c : Sar) =>
    { c with result := x, exceeds := exceeds, started := true,
             filtered := if c.started then filterStep c.filtered x k else x }
  (d.modSar n put).overCheck n exceeds

/-- The sample instant `t` of converter `n` comes, placed by the converter's line (R35, R66). -/
def Dev.takeHold (d : Dev) (n : Nat) (t : Int) : Dev :=
  let p := d.placeEdge (converterLine n) t
  (d.untilEdge t).modSar n (fun c => { c with instant := some t, hold := p })

/-- The next instant at which a feed is evaluated while its current converter `n` is stopped: on the grid its last
instant and its last result period give (R200). -/
def Dev.stoppedInstant (d : Dev) (n f : Nat) : Int :=
  match (d.sar n).instant with
  | some t => gridInstant t (d.feedTm f * 400 : Nat) d.edgeNow (some t)
  | none => d.edgeNow

/-- Edge codes of one conversion slot of 200 ns (R62). -/
def slotEdges : Int := 3200

/-- A hold of converter `n` lies after edge position `lo` and not after `hi` (R63): one of a sample's OS holds, the
last at the sample instant and each 200 ns before the next. -/
def Dev.holdsWithin (d : Dev) (n : Nat) (lo hi : Int) : Bool :=
  let first := (d.converterGrid n).1
  let span := (d.converterGrid n).2
  (indices (d.osOf n)).any (fun j =>
    let back := slotEdges * (j : Int)
    let k := (hi + back - first) / span
    decide (0 ≤ k) && decide (lo < first + span * k - back))

/-- A feed's current converter evaluates its feed (R200). -/
def Dev.evaluateFeedOf (d : Dev) (n : Nat) : Dev :=
  match d.feedOfConv n with
  | some f => d.feedEvaluate f
  | none => d

/-- CONVERTER_RESULT: the sample of converter `n`'s next instant is complete with its codes (R61, R65, R67 to R69). A
stopped converter delivers nothing; a feed's current converter evaluates its feed, at the same instants while it is
stopped (R200). -/
def converterResult (n : Fin 48) (codes : List (BitVec 12)) (d : Dev) : Dev :=
  if !d.coreRuns then d
  else if MA_CH_CFG.en d n = 1 then
    if codes.length ≠ d.osOf n then d
    else ((d.takeHold n (d.converterInstant n)).takeResult n codes).evaluateFeedOf n
  else match d.feedOfConv n with
  | some f => (d.takeHold n (d.stoppedInstant n f)).feedEvaluate f
  | none => d

/-! ### Housekeeping (R73, R74, R490, R491) -/

/-- The temperature of a thermistor for a code (R490), in 0.1 °C. -/
def Dev.thermOf (d : Dev) (t h : Nat) : Int :=
  let c := fun (p : Nat) => MA_TH_PT.code d t p
  let z := fun (p : Nat) => signedOf 16 (MA_TH_PT.temp d t p)
  if h ≤ c 0 then z 0
  else if c 7 ≤ h then z 7
  else
    match (indices 7).find? (fun p => c p ≤ h && h < c (p + 1)) with
    | some p => z p + divUp ((z (p + 1) - z p) * ((h - c p : Nat) : Int)) ((c (p + 1) - c p : Nat) : Int)
    | none => z 7

/-- An entry of the sequence converts (R74). -/
def Dev.hkConverts (d : Dev) (i : Nat) : Bool := MA_HK_SEQ.en d i == 1 && decide (MA_HK_SEQ.input d i < 94)

/-- The next converting entry from entry `e` on. -/
def Dev.hkNext (d : Dev) (e : Nat) : Option Nat :=
  let n := MA_HK_CTRL.len d
  ((indices n).map (fun i => (e + i) % n)).find? d.hkConverts

/-- What a conversion of the housekeeping frame is for (R73). -/
inductive HkUse where
  | input (i : Nat)
  | background
  | idle
  deriving DecidableEq, Repr

/-- What the present position converts, and the entry the sequence goes on from. -/
def Dev.hkUse (d : Dev) : HkUse × Nat :=
  let p := d.house.position
  if p = 0 then (.input 68, d.house.entry)
  else if p % 16 = 8 then (.input (80 + p / 16), d.house.entry)
  else if p % 4 = 3 then (.background, d.house.entry)
  else
    match d.hkNext d.house.entry with
    | some e => (.input (MA_HK_SEQ.input d e), (e + 1) % MA_HK_CTRL.len d)
    | none => (.idle, d.house.entry)

/-- The junction temperature of R73 from the latest sensor codes: the highest code, and its value in 0.1 °C. -/
def Dev.junctionCode (d : Dev) : Nat :=
  (indices 4).foldl (fun m i => max m ((d.hkCode (80 + i)).getD 0)) 0

/-- Sensor code in 0.1 °C: h / 200 - 55 °C (Table 20-11). -/
def dieTemp (h : Nat) : Int := roundDiv (h : Int) 20 - 550

/-- The sensor code of a whole temperature. -/
def dieCode (c : Nat) : Nat := (c + 55) * 200

/-- Thermal shutdown: above 165 °C in every frame for 100 µs (R334); below 140 °C a held restart goes on. -/
def Dev.thermalCheck (d : Dev) : Dev :=
  let h := d.junctionCode
  if dieCode 165 < h then
    let since := d.house.hotSince.getD d.now
    let d1 := { d with house := { d.house with hotSince := some since } }
    if since + 100 * ticksPerUs ≤ d.now ∧ d.core.phase ≠ .cooling then
      d1.report (det 0x46 160 0x42 accMeasure (detAddr 0x06 (unsignedOf 24 (dieTemp h))))
    else d1
  else
    let d1 := { d with house := { d.house with hotSince := none } }
    if d.core.phase = .cooling ∧ h < dieCode 140 then d1.owe .cooled else d1

/-- The code of a housekeeping input is stored. -/
def Dev.hkStore (d : Dev) (i h : Nat) : Dev :=
  { d with house := { d.house with codes := fileMod d.house.codes i (fun _ => some h) } }

/-- A housekeeping result reaches its users (R490, R491). -/
def Dev.hkTake (d : Dev) (i h : Nat) : Dev :=
  let d1 := d.hkStore i h
  if i < 48 then
    let n := i % 24
    let x := d1.branch n
    if x.awaiting then d1.branchGo n
    else if x.state = .ramp ∧ x.latchDue = 0 ∧ x.rampDue = false ∧ d1.branchSeen n = true ∧ d1.rampedUp n = true then
      d1.branchOn n
    else d1
  else if 60 ≤ i ∧ i < 68 then
    let t := d1.thermOf (i - 60) h
    { d1 with house := { d1.house with therm := fileMod d1.house.therm (i - 60) (fun _ => some t) } }
  else if 80 ≤ i ∧ i < 84 then
    let d2 := { d1 with house := { d1.house with junction := dieTemp d1.junctionCode } }
    d2.thermalCheck
  else d1

/-- The event source of a converter's role (Table 12-3). -/
def Dev.convSource (d : Dev) (n : Nat) : Nat :=
  let k := MA_CH_CFG.role_idx d n
  match MA_CH_CFG.role d n with
  | 1 => 32 + k
  | 2 => k % 16
  | 3 => k % 16
  | 4 => 96 + k % 4
  | 5 => 96 + k % 4
  | 6 => 104 + k % 4
  | _ => 160

/-- A cross-conversion differs by more than 0.5 % of full scale and 8 LSB of 12 bits (R75); `h` in 2^-16 of full
scale, the result in 2^-15. -/
def crossFails (x : Int) (h : Nat) : Bool := 200 * (2 * (x.natAbs : Int) - (h : Int)).natAbs > 65536 + 200 * 256

/-- BGE1 cross-converts SAR converter `n` (R75, R76). -/
def Dev.crossConvert (d : Dev) (n h : Nat) : Dev :=
  let c := fileGet d.sars n default
  if crossFails c.result h then
    let f := c.fails + 1
    let d1 := d.modSar n (fun c => { c with fails := held 3 f, failCnt := (c.failCnt + 1) % 2 ^ 32 })
    if f = 3 then d1.report (det 0x03 (d.convSource n) 0x42 accMeasure (detAddr 0x01 n)) else d1
  else d.modSar n (fun c => { c with fails := 0 })

/-! ### The works of the Background Engines and their intervals (R57, R58) -/

/-- Engine `e` runs: no stall has stopped it. -/
def Dev.engineRuns (d : Dev) (e : Nat) : Bool := d.coreRuns && !bitOf d.bge.stopped e

/-- Ticks of one unit of an interval of Table 18-8. -/
def workUnit (i : Nat) : Nat :=
  if i = 1 then 3600 * ticksPerS else if i = 3 then ticksPerUs else if i = 6 then ticksPerS else ticksPerMs

/-- The interval of work `i` in ticks (Table 2-7): 0 to 6 the works of Table 18-8, 7 the X32 measurement over 32,768 X32
periods, which are one second, 8 + i the frames of stream i. -/
def Dev.workSpan (d : Dev) (i : Nat) : Nat :=
  if i < 7 then BGE_INT.interval d i * workUnit i
  else if i = 7 then ticksPerS
  else (fileGet d.bge.streams (i - 8) default).period * ticksPerUs

/-- The next piece of work `i` begins now, for the interval of now. -/
def Dev.nextWork (d : Dev) (i : Nat) : WorkTime := ⟨d.now, d.now + d.workSpan i⟩

/-- A piece of work is late once four times its interval have passed (R58). -/
def WorkTime.lateAt (w : WorkTime) : Nat := w.began + 4 * (w.due - w.began)

/-- Work `i`. -/
def Dev.work (d : Dev) (i : Nat) : WorkTime := fileGet d.bge.works i default

/-- The next piece of work `i` begins. -/
def Dev.beginWork (d : Dev) (i : Nat) : Dev :=
  { d with bge := { d.bge with works := fileMod d.bge.works i (fun _ => d.nextWork i) } }

/-- A piece of work `i` is complete, and the next begins; late work of BGE_STATUS is late no longer. -/
def Dev.workDone (d : Dev) (i : Nat) : Dev :=
  let d1 := d.beginWork i
  { d1 with bge := { d1.bge with late := putBit d1.bge.late i false } }

/-- Time passes until the present piece of work `i` has had its interval (R57). -/
def Dev.untilWork (d : Dev) (i : Nat) : Dev := d.until (d.work i).due

/-! ### Cross-conversion in turn (R73, R75) -/

/-- The converter whose turn it is: the next running one of this round. -/
def Dev.crossTurn (d : Dev) : Option Nat :=
  (indices 48).find? (fun n => decide (d.house.turn ≤ n) && MA_CH_CFG.en d n == 1)

/-- A round is over when every running converter has had its turn; the next begins once the offset and gain interval has
passed since it began (DESIGN CHOICE, log entry 120). -/
def Dev.crossRound (d : Dev) : Dev :=
  if d.crossTurn = none ∧ d.house.round.due ≤ d.now then
    { d with house := { d.house with turn := 0, round := d.nextWork 4 } }
  else d

/-- A position of BGE1 whose conversion gave `h` (R75): it cross-converts the converter whose turn it is where the
position, the microsecond that ends now, contains a hold of that converter, through input 94. -/
def Dev.crossPosition (d : Dev) (h : Nat) : Dev :=
  if !d.engineRuns 1 then d
  else
    let d1 := d.crossRound
    match d1.crossTurn with
    | some n =>
      if d1.holdsWithin n (d1.edgeNow - 400 * ticksPerUs) d1.edgeNow then
        let d2 := (d1.hkStore 94 h).crossConvert n h
        { d2 with house := { d2.house with turn := n + 1 } }
      else d1
    | none => d1

/-- HK_CONVERSION: the housekeeping converter completes its next conversion, one microsecond after the last, with code
`h` (R73 to R76). A position of BGE1 that it spends on reading a threshold back through input 95 (`readback`, R95)
cross-converts nothing. -/
def hkConversion (h : BitVec 16) (readback : Bool) (d : Dev) : Dev :=
  if !d.coreRuns then d
  else
    let use := d.hkUse
    let d0 := d.until (d.house.doneAt + ticksPerUs)
    let d1 := { d0 with house :=
      { d.house with position := (d.house.position + 1) % 64, entry := use.2, doneAt := d0.now } }
    match use.1 with
    | .input i => d1.hkTake i h.toNat
    | .background => if readback then d1.hkStore 95 h.toNat else d1.crossPosition h.toNat
    | .idle => d1

/-! ### BGE1's other work (R53, R64, R95, R96) -/

/-- Free slots of a converter in its sample period (R64). -/
def Dev.freeSlots (d : Dev) (n : Nat) : Nat := d.resultPeriod n / 8 - d.osOf n

/-- Converters that BGE1 updates: those with a free slot. -/
def Dev.updatable (d : Dev) : List Nat := (indices 48).filter (fun n => decide (0 < d.freeSlots n))

/-- CONVERTER_CAL_UPDATE: BGE1 has measured converter `n` in its free slots (R64), once in its interval. A converter
that loses its free slots later keeps these values, and goes back to those of the last sweep only with the next one
(DESIGN CHOICE, log entry 122). The work is no longer late once no converter is. -/
def converterCalUpdate (n : Fin 48) (offset : BitVec 16) (gain : BitVec 16) (d : Dev) : Dev :=
  if d.engineRuns 1 && decide (0 < d.freeSlots n) then
    let d1 := d.until (d.sar n).work.due
    let d2 := d1.modSar n (fun c => { c with offset := offset.toInt, gain := gain.toNat, work := d1.nextWork 4 })
    if d2.updatable.any (fun m => decide ((d2.sar m).work.lateAt ≤ d2.now)) then d2 else d2.workDone 4
  else d

/-- A readback expressed as a threshold code: input 95 gives 64 counts a code (R78, R480), rounded to the nearest code
(log entry 155). -/
def readbackCode (h : Nat) : Nat := held 1023 (roundDivN h 64)

/-- BGE1 has read the threshold of channel `n` back: a voltage that differs from that of its code by more than two codes
counts, and the second in a row is reported (R95, R96). -/
def readbackOne (codes : List (BitVec 16)) (n : Nat) (d : Dev) : Dev :=
  match codes[n]? with
  | none => d
  | some r =>
    let x := d.cp n
    if x.settling then d
    else
      let far := 128 < ((r.toNat : Int) - ((64 * FTA_CP_THRESH.code d n : Nat) : Int)).natAbs
      if !far then d.modCp n (fun x => { x with rbFails := 0, rbCode := readbackCode r.toNat })
      else
        let f := x.rbFails + 1
        let d1 := d.modCp n (fun x => { x with rbFails := held 2 f, rbCode := readbackCode r.toNat })
        if f = 2 then d1.report (det 0x04 (FTA_CP_CFG.evsrc d n) 0x21 accMeasure (detAddr 0x01 n)) else d1

/-- THRESHOLD_READBACK: BGE1 has read every threshold back at the end of its interval; `codes` holds the 16-bit codes of input
95 in channel order (R57, R95, R480). -/
def thresholdReadback (codes : List (BitVec 16)) (d : Dev) : Dev :=
  if d.engineRuns 1 then (forAll (readbackOne codes) (indices 128) (d.untilWork 5)).workDone 5 else d

end Sys2Proof.Machine
end

