-- ==== Sys2Proof/Machine/Sha.lean ====
section
/-! DEFINITION. The message digest behind the clear tag of R353 (spec/13_train_register.md), SHA-256 under HMAC, from
the arithmetic definition of FIPS 180-4 and RFC 2104: constants are roots of primes, and the digest runs as two coupled
histories over a sliding window of the message. -/
namespace Sys2Proof.Machine

/-- The primes up to 311, which are the first 64. -/
def digestPrimes : List Nat :=
  (indices 312).filter (fun n => 2 ≤ n && (indices 18).all (fun d => d < 2 || n < d * d || n % d != 0))

/-- The largest `r` with `r ^ power ≤ target`, found from its bit `k - 1` down; `r` is what is found so far. -/
def rootFrom (power target : Nat) : Nat → Nat → Nat
  | 0, r => r
  | k + 1, r => rootFrom power target k (if (r + 2 ^ k) ^ power ≤ target then r + 2 ^ k else r)

/-- The first 32 fractional bits of the `power`th root of `p`. -/
def rootFraction (power p : Nat) : Word := BitVec.ofNat 32 (rootFrom power (p * 2 ^ (32 * power)) 36 0)

/-- The keys of the 64 turns of a block. -/
def turnKeys : List Word := digestPrimes.map (rootFraction 3)

/-- A digest under way: the two histories of four words, newest first, which together are the chaining value. -/
structure Digest where
  upper : List Word
  lower : List Word

/-- The digest before any block. -/
def Digest.start : Digest :=
  ⟨(digestPrimes.take 4).map (rootFraction 2), ((digestPrimes.drop 4).take 4).map (rootFraction 2)⟩

/-- Entry `i` of a history or window. -/
def wordAt (l : List Word) (i : Nat) : Word := l.getD i 0

/-- A word folded over itself by three turns. -/
def turned (x : Word) (i j k : Nat) : Word := x.rotateRight i ^^^ x.rotateRight j ^^^ x.rotateRight k

/-- A word folded over itself by two turns and a shift. -/
def shifted (x : Word) (i j k : Nat) : Word := x.rotateRight i ^^^ x.rotateRight j ^^^ x >>> k

/-- One turn of the digest with message word `w` and its key: the new word of the lower history joins the old end of
the upper one. -/
def Digest.turn (h : Digest) (w key : Word) : Digest :=
  let a := wordAt h.upper
  let e := wordAt h.lower
  let t := turned (e 0) 6 11 25 + ((e 0 &&& e 1) ||| (~~~ e 0 &&& e 2)) + (e 3 + w + key)
  let top := turned (a 0) 2 13 22 + ((a 0 &&& (a 1 ||| a 2)) ||| (a 1 &&& a 2)) + t
  ⟨top :: h.upper.take 3, (a 3 + t) :: h.lower.take 3⟩

/-- The window of 16 message words after a turn: its oldest word goes, the word 16 places on comes. -/
def slide (win : List Word) : List Word :=
  let w := wordAt win
  win.drop 1 ++ [w 0 + shifted (w 1) 7 18 3 + w 9 + shifted (w 14) 17 19 10]

/-- The turns of one block, one for each key. -/
def Digest.turns : List Word → List Word → Digest → Digest
  | [], _, h => h
  | key :: keys, win, h => Digest.turns keys (slide win) (h.turn (wordAt win 0) key)

/-- The word that big-endian bytes spell. -/
def bigWord (bs : List Byte) : Word := BitVec.ofNat 32 (leNat bs.reverse)

/-- The digest after the block of 64 bytes at offset `off` of a message. -/
def Digest.block (msg : List Byte) (h : Digest) (off : Nat) : Digest :=
  let g := Digest.turns turnKeys ((indices 16).map (fun i => bigWord (slice msg (off + 4 * i) 4))) h
  ⟨List.zipWith (· + ·) h.upper g.upper, List.zipWith (· + ·) h.lower g.lower⟩

/-- A message closed for the digest: a 1 bit, zeros, and its length in bits in the last 8 of whole 64-byte blocks. -/
def closed (msg : List Byte) : List Byte :=
  let blocks := (msg.length + 72) / 64
  fit (64 * blocks - 8) (msg ++ [0x80]) ++ (leBytes (8 * msg.length) 8).reverse

/-- SHA-256. -/
def sha256 (msg : List Byte) : List Byte :=
  let m := closed msg
  let h := ((indices (m.length / 64)).map (64 * ·)).foldl (Digest.block m) Digest.start
  (h.upper ++ h.lower).flatMap (fun w => (leBytes w.toNat 4).reverse)

/-- HMAC with SHA-256, for a key of at most 64 bytes. -/
def hmac256 (key msg : List Byte) : List Byte :=
  let masked := fun (mask : Byte) => (fit 64 key).map (mask ^^^ ·)
  sha256 (masked 0x5C ++ sha256 (masked 0x36 ++ msg))

end Sys2Proof.Machine
end

