-- ==== Sys2Proof/Machine/Recorder.lean ====
section
/-! DEFINITION. The Train Register: flushing, the ring in MRAM, the start-up scan, read-out and clearing
(spec/13_train_register.md R343 to R357, spec/15 R400). -/
namespace Sys2Proof.Machine

/-- Slots of the ring (Table 16-4). -/
def ringSlots : Nat := 12288

/-! ### The ring in MRAM: (slot, content) pairs, slots rising, blank slots unlisted -/

/-- The MRAM bank of ring slot `i` (R348). -/
def ringBank (i : Nat) : Nat := i % 8

/-- The 4 KB page of ring slot `i` (Table 16-4). -/
def ringPage (i : Nat) : Nat := 16 + i / 64

/-- Write a ring slot. -/
def ringPut : List (Nat × RingSlot) → Nat → RingSlot → List (Nat × RingSlot)
  | [], i, c => [(i, c)]
  | (j, x) :: rest, i, c =>
    if i < j then (i, c) :: (j, x) :: rest
    else if i = j then (i, c) :: rest
    else (j, x) :: ringPut rest i c

/-- The valid records of the ring. -/
def ringRecords (ring : List (Nat × RingSlot)) : List Rec :=
  ring.filterMap (fun p => match p.2 with
    | .valid r => some r
    | .torn => none)

/-- Torn slots in the ring (R339). -/
def ringTorn (ring : List (Nat × RingSlot)) : Nat :=
  (ring.filter (fun p => p.2 == .torn)).length

/-- The slot after the valid record with the highest sequence, or 0 when there is none (R349). -/
def ringNext (ring : List (Nat × RingSlot)) : Nat :=
  let best := ring.foldl (fun (acc : Option (Nat × Nat)) p =>
    match p.2, acc with
    | .valid r, none => some (r.seq, p.1)
    | .valid r, some (s, i) => if s < r.seq then some (r.seq, p.1) else some (s, i)
    | .torn, acc => acc) none
  match best with
  | some (_, i) => (i + 1) % ringSlots
  | none => 0

/-- Highest sequence among records, 0 when there is none. -/
def highestSeq (rs : List Rec) : Nat := rs.foldl (fun m r => max m r.seq) 0

/-- Insert a record in ascending sequence order. -/
def insertRec (r : Rec) : List Rec → List Rec
  | [] => [r]
  | x :: xs => if r.seq < x.seq then r :: x :: xs else x :: insertRec r xs

/-- Records in ascending sequence order. -/
def sortRecs (rs : List Rec) : List Rec := rs.foldr insertRec []

/-! ### Flushing (R347, Table 13-5) -/

/-- A flush trigger that asks leave, or extends a running flush (R347). A waiting flush proceeds without leave at 192
records (R307). -/
def Dev.flushAsking (d : Dev) : Dev :=
  if d.tr.buffer.isEmpty then d
  else if d.tr.flushTo.isSome then d.flushNow
  else if d.slotBusy slotFlush then
    if 192 ≤ d.tr.buffer.length then (d.release slotFlush).flushNow else d
  else if 192 ≤ d.tr.buffer.length ∧ (d.slot slotFlush).state = .holding then d.flushNow
  else
    let d1 := d.request slotFlush { rank := 3, mram := 2, span := 50 * ticksPerMs }
    if 192 ≤ d.tr.buffer.length then d1.owe .fill else d1

/-- The periodic checkpoint (Table 13-5). -/
def trCheckpoint (d : Dev) : Dev :=
  if d.coreRuns then
    let d1 := d.until d.tr.ckptAt
    { d1 with tr := { d1.tr with ckptAt := d1.now + TR_CTRL.ckpt d1 * ticksPerS } }.flushAsking
  else d

/-- Leave for the periodic flush is granted. -/
def Dev.flushGranted (d : Dev) : Dev :=
  if d.tr.buffer.isEmpty then d.release slotFlush else d.flushNow

/-- The lowest-numbered clear log entry that is not complete is marked complete. -/
def markComplete (erased : Nat) : List ClearEntry → List ClearEntry
  | [] => []
  | e :: es => if e.complete then e :: markComplete erased es else { e with complete := true, erased := erased } :: es

/-- The clear's third stage commits: its CLEAR record is in the ring (R354, R356). -/
def Dev.clearDone (d : Dev) (c : Clearing) : Dev :=
  let d1 := { d with tr := { d.tr with clearing := none, fails := 0, log := markComplete c.erased d.tr.log } }
  let d2 := (d1.release slotClear).wroteLearned
  d2.commitAll c.fetch stDone [c.cut % 2 ^ 32, c.cut / 2 ^ 32 % 2 ^ 16, c.erased, d2.tr.log.length]

/-- The highest page write count. -/
def Background.highest (b : Background) : Nat := b.pages.foldl (fun m p => max m p.2) 0

/-- BGE2 commits the page write counts (R54); MRAM_WEAR when the highest passes 50 % and 80 % of 10^10. -/
def Dev.commitWear (d : Dev) : Dev :=
  let b := d.bge.countWrite 0xE0
  let h := b.highest
  let now := flag (decide (5000000000 < h)) + flag (decide (8000000000 < h))
  let d1 := forAll (fun (p : Nat × Nat) (d : Dev) => d.stored 0x15 p.1) b.pages
    { d with bge := { b with worn := b.pages, wearTold := max b.wearTold now } }
  if b.wearTold < now then d1.raise 0x0187 clsC 172 0 0 else d1

/-- One record write commits and frees its buffer slot (R347, R348). The flush ends with the last record it covers. -/
def flushWriteDone (d : Dev) : Dev :=
  match d.coreRuns && !d.tr.scanning, d.tr.flushTo, d.tr.buffer with
  | true, some last, r :: rest =>
    if r.seq ≤ last then
      let ended := match rest with
        | [] => true
        | n :: _ => last < n.seq
      let t := { d.tr with buffer := rest, ring := ringPut d.tr.ring d.tr.wptr (.valid r),
                           wptr := (d.tr.wptr + 1) % ringSlots, flushed := max d.tr.flushed r.seq, flushedAt := true,
                           flushTo := if ended then none else some last }
      let d1 := ({ d with tr := t, bge := d.bge.countWrite (ringPage d.tr.wptr) } : Dev).stored 0x11 d.tr.wptr
      let d2 := if ended then (d1.release slotFlush).commitWear.judgeFill else d1
      match d2.tr.clearing with
      | some c => if c.recSeq = some r.seq then d2.clearDone c else d2
      | none => d2
    else { d with tr := { d.tr with flushTo := none } }.release slotFlush
  | true, some _, [] => { d with tr := { d.tr with flushTo := none } }.release slotFlush
  | _, _, _ => d

/-- A fault closes before another: its window ends first, or at the same instant its event source is the lower, which
orders their records (R342). -/
def OpenFault.before (f g : OpenFault) : Bool :=
  f.closes < g.closes || (f.closes == g.closes && decide (f.det.source < g.det.source))

/-- A fault's settle window closes (R322): the one that closes first. -/
def settleWindowClose (d : Dev) : Dev :=
  let first := d.il.faults.foldl (fun (acc : Option OpenFault) f =>
    match acc with
    | none => some f
    | some g => if f.before g then some f else some g) none
  match first with
  | some f => (d.until f.closes).closeFault f
  | none => d

/-! ### Clearing (R351 to R356) -/

/-- The recorder key, rows 40 to 43, each little-endian (R353). -/
def Dev.recorderKey (d : Dev) : List Byte :=
  [40, 41, 42, 43].flatMap (fun r => leBytes (fileGet d.fuse.rows r default).shadow.toNat 8)

/-- A key row is blank or was replaced by its vendor default (R354, R435). -/
def Dev.keyBlank (d : Dev) : Bool :=
  [40, 41, 42, 43].any (fun r => (fileGet d.fuse.rows r default).shadow == 0 || (fileGet d.fuse.rows r default).replaced)

/-- The serial number of row 0 (Table 17-1). -/
def Dev.serial (d : Dev) : Nat := (fileGet d.fuse.rows 0 default).shadow.toNat

/-- The clear tag of R353 for a nonce. -/
def Dev.clearTag (d : Dev) (nonce : Nat) : List Byte :=
  (hmac256 d.recorderKey (leBytes d.serial 8 ++ leBytes nonce 16 ++ [0x43, 0x4C, 0x45, 0x41, 0x52])).take 16

/-- The lockout of the `n`-th consecutive failure, in ticks (R356). -/
def lockoutTicks (n : Nat) : Nat := 10 * 2 ^ min (n - 1) 6 * ticksPerS

/-- CLEAR_NONCE (R352). -/
def specClearNonce : OpSpec where
  code := 0x71
  cls := clsRecorder
  count := 1
  stdOk := true
  expOk := false
  total := fun _ _ => 1
  params := fun _ _ => true
  begin := fun c d =>
    if d.now < d.tr.lockEnd then d.finish c.fetch stRejected [ceilDiv (d.tr.lockEnd - d.now) ticksPerS]
    else
      let n := Config.nonce d.fresh % 2 ^ 128
      let d1 := { d with fresh := d.fresh + 1,
                         tr := { d.tr with nonce := some n, nonceEnd := d.now + 60 * ticksPerS } }
      d1.commitAll c.fetch stDone (leWords n)
where
  /-- The four result words of a 16-byte value. -/
  leWords (n : Nat) : List Nat := [n % 2 ^ 32, n / 2 ^ 32 % 2 ^ 32, n / 2 ^ 64 % 2 ^ 32, n / 2 ^ 96 % 2 ^ 32]

/-- RECORDER_CLEAR fails its check: CLEAR_DENIED record, event, count and lockout (R354, R356). -/
def Dev.clearDenied (d : Dev) (c : OpenCmd) (cause : Nat) : Dev :=
  let n := if cause = 2 then d.tr.fails else d.tr.fails + 1
  let lock := if cause = 2 then d.tr.lockEnd else d.now + lockoutTicks n
  let d1 := ({ d with tr := { d.tr with fails := n, lockEnd := lock } } : Dev).wroteLearned
  let bytes := leBytes c.desc.tag.toNat 2 ++ leBytes cause 1 ++ zeros 1 ++ leBytes n 4
  (d1.recordOwn recClearDenied bytes 0x017A cause n).finish c.fetch stAuthFailed []

/-- Stage 1 commits: stage 2 asks MRAM leave for 4 slots (Table 11-2). -/
def Dev.clearAsks (d : Dev) (c : OpenCmd) : Dev :=
  if d.slotBusy slotClear ∨ d.tr.clearing.isSome then (d.commit c.fetch 1).finish c.fetch stRejected []
  else
    let d1 := { d with tr := { d.tr with clearing := some ⟨false, 0, c.desc.tag.toNat, c.fetch, 0, none⟩ } }
    (d1.commit c.fetch 1).request slotClear
      { rank := ringRank c.desc.ring.val, mram := 4, span := ticksPerS, tagged := true }

/-- A resumed RECORDER_CLEAR past its first stage (R387): it takes over the request or the erase its closed command
left, commits the erase that has ended under it, or asks for leave again where that was given up. -/
def Dev.clearRejoin (d : Dev) (c : OpenCmd) : Option Dev :=
  let tag := c.desc.tag.toNat
  match d.tr.clearing with
  | some x =>
    if x.tag = tag ∧ d.gone (some x.fetch) = true then
      some { d with tr := { d.tr with clearing := some { x with fetch := c.fetch } } }
    else none
  | none =>
    if c.done = 1 then if 64 ≤ d.tr.log.length then none else some (d.clearAsks c)
    else match d.tr.log.getLast? with
      | some e =>
        if e.complete ∧ e.tag = tag then
          some (d.commitAll c.fetch stDone [e.cut % 2 ^ 32, e.cut / 2 ^ 32 % 2 ^ 16, e.erased, d.tr.log.length])
        else none
      | none => none

/-- RECORDER_CLEAR (R354). -/
def specRecorderClear : OpSpec where
  code := 0x72
  cls := clsRecorder
  count := 1
  stdOk := true
  expOk := false
  total := fun _ _ => 3
  params := fun _ _ => true
  begin := fun c d =>
    if 64 ≤ d.tr.log.length then d.finish c.fetch stRejected []
    else
      let nonce := d.tr.nonce
      let d1 := { d with tr := { d.tr with nonce := none } }
      if d1.keyBlank then d1.clearDenied c 2
      else match nonce with
        | none => d1.clearDenied c 1
        | some n => if d1.clearTag n = slice c.desc.params 0 16 then d1.clearAsks c else d1.clearDenied c 0
  resume := fun c d => d.clearRejoin c

/-- Leave for a clear is granted: stage 2 commits, and stage 3 sets the cut, writes the clear log entry and discards
the unflushed records at or below the cut (R354). -/
def Dev.clearGranted (d : Dev) : Dev :=
  match d.tr.clearing with
  | some c =>
    if (d.cmd c.fetch).isNone then { d with tr := { d.tr with clearing := none } }.release slotClear
    else
      let cut := d.tr.next - 1
      let e : ClearEntry := ⟨cut, d.ka.calWord, d.now, c.tag, false, 0⟩
      let t := { d.tr with clearing := some { c with granted := true, cut := cut }, log := d.tr.log ++ [e],
                           buffer := d.tr.buffer.filter (fun r => cut < r.seq) }
      ({ d with tr := t } : Dev).wroteLearned.commit c.fetch 2
  | none => d.release slotClear

/-- Leave for a clear is given up (R303, R309): stage 1 alone has committed. -/
def Dev.clearGaveUp (d : Dev) : Dev :=
  match d.tr.clearing with
  | some c => { d with tr := { d.tr with clearing := none } }.finish c.fetch stTokenTimeout []
  | none => d

/-- A slot that a clear up to `cut` erases: its record lies at or below the cut, or it is torn (R354). -/
def RingSlot.erased (s : RingSlot) (cut : Nat) : Bool :=
  match s with
  | .valid r => decide (r.seq ≤ cut)
  | .torn => true

/-- How many slots a clear up to `cut` erases. -/
def Dev.toErase (d : Dev) (cut : Nat) : Nat := (d.tr.ring.filter (fun p => p.2.erased cut)).length

/-- The erase of a clear up to `cut`: its slots become blank, and the CLEAR record enters, which carries TR_CLEARED (R354,
R355, R372). -/
def Dev.eraseTo (d : Dev) (cut tag : Nat) : Dev :=
  let gone := d.tr.ring.filter (fun p => p.2.erased cut)
  let count := fun (b : Background) (p : Nat × RingSlot) => b.countWrite (ringPage p.1)
  let d0 := { d with tr := { d.tr with ring := d.tr.ring.filter (fun p => !p.2.erased cut) }, bge := gone.foldl count d.bge }
  let d1 := forAll (fun (p : Nat × RingSlot) d => d.stored 0x11 p.1) gone d0
  let bytes := leBytes cut 6 ++ leBytes d.tr.log.length 2 ++ leBytes tag 2 ++ zeros 2 ++ leBytes gone.length 4
  d1.recordOwn recClear bytes 0x0179 (cut % 2 ^ 32) gone.length

/-- The erase of the clear in progress; its CLEAR record is awaited. -/
def Dev.erase (d : Dev) (c : Clearing) : Dev :=
  let n := d.toErase c.cut
  let d2 := d.eraseTo c.cut c.tag
  { d2 with tr := { d2.tr with clearing := some { c with erased := n, recSeq := some (d2.tr.next - 1) } } }.flushNow

/-- CLEAR_ERASE_DONE: the erase, which pauses while a flush runs, completes; it carries on past the end of its token
(R296). -/
def clearEraseDone (d : Dev) : Dev :=
  match d.coreRuns && d.tr.flushTo.isNone, d.tr.clearing with
  | true, some c => if c.granted && c.recSeq.isNone then d.erase c else d
  | _, _ => d

/-- NONCE_EXPIRY: 60 s after CLEAR_NONCE (R352). -/
def nonceExpiry (d : Dev) : Dev :=
  if d.tr.nonce.isSome then
    let d1 := d.until d.tr.nonceEnd
    { d1 with tr := { d1.tr with nonce := none } }
  else d

/-- CLEAR_LOCKOUT_END: the lockout has run out (R356). -/
def clearLockoutEnd (d : Dev) : Dev :=
  if d.coreRuns && d.now < d.tr.lockEnd then
    let d1 := d.until d.tr.lockEnd
    { d1 with tr := { d1.tr with lockEnd := 0 } }
  else d

/-! ### The start-up scan (R349) -/

/-- The START record in the buffer takes what the scan found: the highest valid sequence, the torn slots, and bit 2 of
byte 26 when an interrupted clear is completed (Table 13-3). -/
def patchStart (high torn : Nat) (clear : Bool) (r : Rec) : Rec :=
  if r.typ = recStart then
    let p := fit 36 r.payload
    { r with payload := p.take 2 ++ leBytes (leAt p 2 1 + 4 * flag clear) 1 ++ (p.drop 3).take 9
        ++ leBytes high 6 ++ leBytes (held 0xFFFF torn) 2 ++ p.drop 20 }
  else r

/-- The clear of RECORDER_CLEAR in progress has this clear log entry: it was granted in this start. -/
def Dev.clearsNow (d : Dev) (e : ClearEntry) : Bool := d.tr.clearing.any (fun c => c.granted && c.cut == e.cut)

/-- An interrupted clear is completed (R349, R355). Beside one granted in this start, which keeps its place, it is complete
with its erase. -/
def Dev.completeClear (d : Dev) (e : ClearEntry) : Dev :=
  if d.tr.clearing.any (·.granted) then
    let n := d.toErase e.cut
    let d1 := d.eraseTo e.cut e.tag
    ({ d1 with tr := { d1.tr with log := markComplete n d1.tr.log } } : Dev).wroteLearned.flushNow
  else d.erase ⟨true, e.cut, e.tag, 0, 0, none⟩

/-- RING_SCAN_DONE: write pointer, torn slots, and completion of an interrupted clear (R349, R355), which a clear granted
in this start is not. An entry whose CLEAR record the ring holds is marked complete, a write of the clear log (R54). -/
def ringScanDone (d : Dev) : Dev :=
  if d.coreRuns && d.tr.scanning then
    let recs := ringRecords d.tr.ring
    let high := highestSeq recs
    let torn := ringTorn d.tr.ring
    let open? := d.tr.log.find? (fun e => !e.complete && !d.clearsNow e)
    let lost := match open? with
      | some e => !recs.any (fun r => r.typ == recClear && leAt r.payload 0 6 == e.cut)
      | none => false
    let ends := open?.isSome && !lost
    let t := { d.tr with scanning := false, wptr := ringNext d.tr.ring, torn := held 0xFFFF torn, flushed := high,
                         flushedAt := !recs.isEmpty, buffer := d.tr.buffer.map (patchStart high torn lost),
                         log := if ends then markComplete 0 d.tr.log else d.tr.log }
    let d1 : Dev := if ends then ({ d with tr := t } : Dev).wroteLearned else { d with tr := t }
    let d2 := if torn = 0 then d1 else d1.raiseOwn 0x0178 torn 0
    match open?, lost with
    | some e, true => d2.completeClear e
    | _, _ => d2
  else d

/-! ### Read-out (R350, R400) -/

/-- Word 2 of RECORDER_READ: the flushed records that remain, held at the 16-bit signed range. -/
def remainWord (t : TrainRegister) (next : Nat) : Nat :=
  if t.flushedAt then unsignedOf 16 (clampI (-32768) 32767 ((t.flushed : Int) - next + 1)) else 0

/-- Word 3 of RECORDER_READ: the next start minus the lowest sequence present in the ring. -/
def depthWord (t : TrainRegister) (next : Nat) : Nat :=
  match sortRecs (ringRecords t.ring) with
  | [] => 0
  | r :: _ => held 0xFFFFFFFF (next - r.seq)

/-- RECORDER_READ (R350, R400). -/
def specRecorderRead : OpSpec where
  code := 0x70
  cls := clsRecorder
  count := 1
  stdOk := true
  expOk := false
  total := fun _ _ => 1
  inWithdrawn := true
  inSlw := fun _ => true
  params := fun c _ =>
    let n := c.num 28 2
    1 ≤ n && n ≤ 4096 && 64 * n ≤ c.length.toNat
  begin := fun c d =>
    let start := c.desc.num 20 6
    let all := sortRecs (ringRecords d.tr.ring ++ d.tr.buffer)
    let got := (all.filter (fun r => start ≤ r.seq)).take (c.desc.num 28 2)
    let next := match got.getLast? with
      | some r => r.seq + 1
      | none => min start d.tr.next
    let w0 := got.length + held 65535 (ringTorn d.tr.ring) * 2 ^ 16
    let w2 := next / 2 ^ 32 % 2 ^ 16 + remainWord d.tr next * 2 ^ 16
    (d.toBuffer c.desc (got.flatMap Rec.bytes)).commitAll c.fetch stDone [w0, next % 2 ^ 32, w2, depthWord d.tr next]

/-- TR_LATCHED_READ: a read of TR_SEQ_LO or TR_FLUSHED_LO returns the low word and latches the upper half (R444). -/
def trLatchedRead (flushed : Bool) (d : Dev) : Dev :=
  if !d.coreRuns then d
  else if flushed then
    { d with tr := { d.tr with latchFl := d.tr.flushed / 2 ^ 32 } }.emit (.readData (d.tr.flushed % 2 ^ 32))
  else { d with tr := { d.tr with latchSeq := d.tr.next / 2 ^ 32 } }.emit (.readData (d.tr.next % 2 ^ 32))

/-- TR_DROPPED: records dropped since the last such event, at most once per second (Table 13-7). -/
def Dev.tellDropped (d : Dev) : Dev :=
  let key := 0x0177 * 256 + 165
  if d.mayTell key then
    let n := d.tr.dropped - d.tr.dropTold
    { (d.tell key) with tr := { d.tr with dropTold := d.tr.dropped } }.raiseOwn 0x0177 n 0
  else d

end Sys2Proof.Machine
end

