-- ==== Sys2Proof/Machine/Fuses.lean ====
section
/-! DEFINITION. The fuse bank and the lifecycle: sensing, resolution, manifest, programming
(spec/17_fuse_bank_lifecycle.md R420 to R438). -/
namespace Sys2Proof.Machine

/-- Row `r` of the fuse bank, resolved. -/
def Dev.fuseRow (d : Dev) (r : Nat) : Nat := (fileGet d.fuse.rows r default).shadow.toNat

/-! ### The code (R420) -/

/-- Check bits that some data bits call for: the columns of the bits set, from bit `i` up. -/
def checkFrom (data : Nat) : Nat → Nat → BitVec 8 → BitVec 8
  | 0, _, acc => acc
  | n + 1, i, acc => checkFrom (data / 2) n (i + 1) (if data % 2 = 1 then acc ^^^ Config.column i else acc)

/-- The check bits of the codeword of a value. -/
def checkOf (v : BitVec 64) : BitVec 8 := if v = 0 then 0 else checkFrom v.toNat 64 0 0

/-- The check bits a copy reads. -/
def FuseRead.check (r : FuseRead) : BitVec 8 := checkOf r.data ^^^ r.syn

/-- The read with given data and check bits. -/
def readOf (data : BitVec 64) (check : BitVec 8) : FuseRead := ⟨data, checkOf data ^^^ check⟩

/-- All 72 bits read 0. -/
def FuseRead.blank (r : FuseRead) : Bool := r.data == 0 && r.syn == 0

/-- Decode of a codeword: its value and whether a single bit was corrected, or none. -/
def FuseRead.decode (r : FuseRead) : Option (BitVec 64 × Bool) :=
  if r.syn = 0 then some (r.data, false)
  else if popcount 8 r.syn.toNat = 1 then some (r.data, true)
  else match (indices 64).find? (fun i => Config.column i == r.syn) with
    | some i => some (r.data ^^^ BitVec.twoPow 64 i, true)
    | none => none

/-! ### Resolution of a copy and of a row (R425, R426, R428) -/

/-- The marginal bits of a copy: data and check. -/
def FuseCopy.margin (c : FuseCopy) : BitVec 64 × BitVec 8 :=
  let x := c.low.data ^^^ c.high.data
  (x, checkOf x ^^^ c.low.syn ^^^ c.high.syn)

/-- A copy has a marginal bit. -/
def FuseCopy.marginal (c : FuseCopy) : Bool := c.low != c.high

/-- Bits of `a`, but for those of a mask, which come from `b`. -/
def FuseRead.patch (a b : FuseRead) (m : BitVec 64 × BitVec 8) : FuseRead :=
  readOf ((a.data &&& ~~~m.1) ||| (b.data &&& m.1)) ((a.check &&& ~~~m.2) ||| (b.check &&& m.2))

/-- The bitwise majority of three reads. -/
def majority (a b c : FuseRead) : FuseRead :=
  let f := fun {w : Nat} (x y z : BitVec w) => (x &&& y) ||| (x &&& z) ||| (y &&& z)
  readOf (f a.data b.data c.data) (f a.check b.check c.check)

/-- The resolved bits of copy `c` beside copy `e` (R425). -/
def FuseCopy.raw (c e : FuseCopy) : FuseRead :=
  if !c.marginal then c.nominal
  else if !e.marginal then c.nominal.patch e.nominal c.margin
  else c.nominal.patch (majority c.more1 c.more2 c.more3) c.margin

/-- The value the vendor gives a row (R427). -/
def vendorRow (r : Nat) : BitVec 64 :=
  if r < 24 then Config.romRow r else if r = 24 then 0x00000FFFFF000000 else 0

/-- Data bits at 1 in the two copies of a lifecycle row (R428). -/
def markerBits (a b : FuseRead) : Nat := popcount 64 a.data.toNat + popcount 64 b.data.toNat

/-- A row resolved: Table 17-2 for rows 0 to 55, R428 for the lifecycle rows; with the corrections made. -/
def resolveRow (r : Nat) (x : FuseRow) : FuseRow × Nat :=
  let a := x.copyA.raw x.copyB
  let b := x.copyB.raw x.copyA
  let base := { x with upset := 0, margA := x.copyA.marginal, margB := x.copyB.marginal, oneBlank := false, oneFail := false,
                       majority := x.copyA.marginal && x.copyB.marginal, bothFail := false, partSet := false,
                       replaced := false }
  if 56 ≤ r then
    let n := markerBits a b
    let v := if a.data = b.data then a.data else Config.markerWord a.data b.data
    ({ base with shadow := v, partSet := decide (1 ≤ n) && decide (n ≤ 95) }, 0)
  else
    let failed := { base with shadow := vendorRow r, bothFail := true }
    match a.decode, b.decode with
    | some (v, ca), some (w, cb) =>
      let n := flag ca + flag cb
      if v = w then ({ base with shadow := v }, n)
      else if b.blank then ({ base with shadow := v, oneBlank := true }, n)
      else if a.blank then ({ base with shadow := w, oneBlank := true }, n)
      else (failed, n)
    | some (v, ca), none => ({ base with shadow := v, oneFail := true }, flag ca)
    | none, some (w, cb) => ({ base with shadow := w, oneFail := true }, flag cb)
    | none, none => (failed, 0)

/-- Row `r` of the bank. -/
def FuseBank.row (b : FuseBank) (r : Nat) : FuseRow := fileGet b.rows r default

/-- Row `r` reads as set (R428). -/
def FuseBank.isSet (b : FuseBank) (r : Nat) : Bool :=
  let x := b.row r
  96 ≤ markerBits (x.copyA.raw x.copyB) (x.copyB.raw x.copyA)

/-- The lifecycle state the markers give (R428). -/
def FuseBank.state (b : FuseBank) : Nat :=
  if b.isSet 58 then lifeWithdrawn else if b.isSet 57 then lifeInTraffic
  else if b.isSet 56 then lifeCommissioning else lifeWorks

/-- One row is resolved into its shadow. -/
def FuseBank.resolve (b : FuseBank) (r : Nat) : FuseBank :=
  let x := resolveRow r (b.row r)
  { b with rows := fileMod b.rows r (fun _ => x.1) }

/-! ### The manifest (R434) -/

/-- The value of row 24 that counts: its vendor default when both copies failed, or when it is blank in In Traffic. -/
def FuseBank.manifest (b : FuseBank) : BitVec 64 :=
  let x := b.row 24
  if x.bothFail || (x.shadow == 0 && b.lifecycle == lifeInTraffic) then vendorRow 24 else x.shadow

/-- The required rows, bit i for row 24 + i. -/
def FuseBank.requires (b : FuseBank) : Nat := putBit (bitsOf b.manifest.toNat 24 32) 0 true

/-- A row is incomplete when it is required and blank or failed; one that has taken its vendor default stays so. -/
def FuseBank.lacks (b : FuseBank) (i : Nat) : Bool :=
  let x := b.row (24 + i)
  bitOf b.requires i && (x.shadow == 0 || x.bothFail || x.replaced)

/-- The manifest applied: in In Traffic and Withdrawn every incomplete row takes its vendor default. -/
def FuseBank.applyManifest (b : FuseBank) : FuseBank :=
  let b1 := { b with required := b.requires, missing := 0 }
  if b.lifecycle < lifeInTraffic then b1
  else
    let gone := (indices 32).filter b.lacks
    let put := fun (i : Nat) (b : FuseBank) =>
      { b with rows := fileMod b.rows (24 + i) (fun x => { x with shadow := vendorRow (24 + i), upset := 0, replaced := true }) }
    { forAll put gone b1 with missing := (gone.map (fun i => 2 ^ i)).sum }

/-- One row is sensed: resolved, its corrections counted and its marginal bits marked (Tables 17-5, 17-8). -/
def senseRow (r : Nat) (b : FuseBank) : FuseBank :=
  let x := resolveRow r (b.row r)
  { b.resolve r with corrected := b.corrected + x.2, marginal := b.marginal + 2 ^ r * flag (x.1.margA || x.1.margB) }

/-- Fuse sensing of step 2 of Table 16-5 (R424, R425): every row and the lifecycle state. -/
def FuseBank.sense (b : FuseBank) : FuseBank :=
  let b1 := forAll senseRow (indices 64) { b with corrected := 0, marginal := 0 }
  { b1 with lifecycle := b1.state }

/-- Data word 0 of FUSE_MARGINAL (R429). -/
def FuseRow.marginWord (x : FuseRow) (r : Nat) : Nat :=
  r + 2 ^ 8 * flag x.margA + 2 ^ 9 * flag x.margB + 2 ^ 10 * flag x.majority + 2 ^ 16 * flag x.oneBlank
  + 2 ^ 17 * flag x.oneFail + 2 ^ 18 * flag x.bothFail + 2 ^ 19 * flag x.partSet

/-- Rows with a flag of Table 17-2. -/
def FuseRow.flagged (x : FuseRow) : Bool := x.oneBlank || x.oneFail || x.bothFail

/-- MANIFEST_INCOMPLETE while a row is missing (R435). -/
def Dev.manifestEvent (d : Dev) : Dev :=
  if d.fuse.missing = 0 then d else d.raise 0x018B clsC 174 d.fuse.missing 0

/-- The events of a sensing, which follow the START record (R429). -/
def Dev.fuseEvents (d : Dev) : Dev :=
  let tell := fun (r : Nat) (d : Dev) =>
    let x := d.fuse.row r
    if x.margA || x.margB || x.flagged || x.partSet then d.raise 0x018A clsC 174 (x.marginWord r) 0 else d
  forAll tell (indices 64) d

/-! ### FUSE_READ -/

/-- FUSE_READ (Table 15-7): the shadow and its flags. -/
def specFuseRead : OpSpec where
  code := 0x90
  cls := clsFuse
  count := 64
  stdOk := true
  expOk := false
  total := fun _ _ => 1
  inWithdrawn := true
  inSlw := fun _ => true
  params := fun _ _ => true
  begin := fun c d =>
    let x := d.fuse.row c.desc.idx
    let v := x.shadow.toNat
    let flags := flag (v == 0) + 2 * flag (x.margA || x.margB) + 4 * flag x.bothFail + 8 * flag x.replaced
    d.commitAll c.fetch stDone [v % 2 ^ 32, v / 2 ^ 32, flags]

/-! ### Programming (R436 to R438) -/

/-- VPP and the junction temperature admit programming (R436). -/
def Dev.progOk (d : Dev) : Bool := d.fuse.vppOk && -100 ≤ d.house.junction && d.house.junction ≤ 1100

/-- Opcodes of the two programming commands. -/
def opFuseProgram : Nat := 0x91
def opAdvance : Nat := 0x92

/-- Lifecycle states that admit programming a row (Table 17-1, R433). -/
def Dev.rowOpen (d : Dev) (r : Nat) : Bool :=
  (r < 24 && d.fuse.lifecycle == lifeWorks) || (24 ≤ r && r < 56 && d.fuse.lifecycle == lifeCommissioning)

/-- Transitions of Table 17-3. -/
def Dev.mayAdvance (d : Dev) (dest : Nat) : Bool :=
  let s := d.fuse.lifecycle
  (s == lifeWorks && dest == lifeCommissioning) || (s == lifeCommissioning && dest == lifeInTraffic)
  || (s != lifeWithdrawn && dest == lifeWithdrawn)

/-- The lifecycle check of a programming command (check 5, and again at its stage 2, R433). -/
def Dev.progLife (d : Dev) (op : Nat) (c : Desc) : Bool :=
  if op = opFuseProgram then d.rowOpen c.idx else d.mayAdvance (c.byte 20)

/-- The command that waits for PROG, or that has been granted it and not begun: the first that has asked. -/
def Dev.progWaiting (d : Dev) : Option OpenCmd :=
  let runs := d.fuse.run.bind (·.fetch)
  (d.fuse.asked.filterMap d.cmd).find? (fun c => c.done == 0 && runs != some c.fetch)

/-- A command is the last to have asked for PROG; those that have left are forgotten. -/
def Dev.progAsks (d : Dev) (k : Nat) : Dev :=
  { d with fuse := { d.fuse with asked := d.fuse.asked.filter (fun j => !d.gone (some j)) ++ [k] } }

/-- The row and value a command programs. -/
def OpenCmd.fuseRun (c : OpenCmd) : FuseRun :=
  if c.op = opFuseProgram then ⟨c.desc.idx, BitVec.ofNat 64 (c.desc.num 20 8), some c.fetch, c.desc.tag.toNat⟩
  else ⟨55 + c.desc.byte 20, BitVec.allOnes 64, some c.fetch, c.desc.tag.toNat⟩

/-- The command asks for PROG; a slot that waits already rejects it (R305). A request that comes while a token is held
waits beside it. A resumed command takes over a request that its
closed command left waiting (R387). -/
def Dev.askProg (d : Dev) (c : OpenCmd) : Dev :=
  if d.slotBusy slotFuse || d.slotBusy slotSecond then
    if c.resumed && d.progWaiting.isNone then d.progAsks c.fetch else d.finish c.fetch stRejected []
  else
    let i := if (d.slot slotFuse).state = .empty then slotFuse else slotSecond
    (d.progAsks c.fetch).request i { rank := ringRank c.desc.ring.val, prog := 1, span := 100 * ticksPerMs, tagged := true }

/-- Bits set where the codeword of `v` has none (R437, stage 1). -/
def FuseCopy.strays (c : FuseCopy) (v : BitVec 64) : Bool :=
  !c.nominal.blank && (c.nominal.data &&& ~~~v != 0 || c.nominal.check &&& ~~~(checkOf v) != 0)

/-- Reserved bits of rows 24 and 25 (R422, R434). -/
def reservedRow (r : Nat) (v : BitVec 64) : Bool :=
  (r == 24 && v &&& 0xFF00000000FFFFFF != 0) || (r == 25 && v &&& 0xFFFFFFFFFFF80000 != 0)

/-- Both copies read as the codeword at the low and high references (R437, stage 3). -/
def FuseRow.passes (r : FuseRow) (v : BitVec 64) : Bool :=
  let good := fun (c : FuseCopy) => c.low == ⟨v, 0⟩ && c.high == ⟨v, 0⟩
  good r.copyA && good r.copyB

/-- A resumed programming command past its first stage (R387, R438): it takes over the programming its closed command
left, and a row that has come to read as its value is its last stages done. -/
def Dev.progRejoin (d : Dev) (c : OpenCmd) : Option Dev :=
  let want := c.fuseRun
  match d.fuse.run with
  | some x =>
    if x.row = want.row ∧ x.value = want.value ∧ d.gone x.fetch = true then
      some { d with fuse := { d.fuse with run := some want } }
    else none
  | none =>
    if c.op = opFuseProgram ∧ (d.fuse.row want.row).passes want.value = true then
      some ((d.commit c.fetch 2).commitAll c.fetch stDone [1])
    else none

/-- FUSE_PROGRAM (R433, R437). -/
def specFuseProgram : OpSpec where
  code := 0x91
  cls := clsFuse
  count := 64
  stdOk := true
  expOk := false
  total := fun _ _ => 3
  life := fun c d => d.progLife opFuseProgram c
  params := fun _ _ => true
  begin := fun c d =>
    let r := c.desc.idx
    let v := BitVec.ofNat 64 (c.desc.num 20 8)
    let x := d.fuse.row r
    if v = 0 || reservedRow r v then d.finish c.fetch stBadParam []
    else if x.copyA.strays v || x.copyB.strays v || !d.progOk then d.finish c.fetch stRejected []
    else d.askProg c
  resume := fun c d => d.progRejoin c

/-- LIFECYCLE_ADVANCE (R430, R431). -/
def specAdvance : OpSpec where
  code := 0x92
  cls := clsDevice
  count := 1
  stdOk := true
  expOk := false
  total := fun _ _ => 2
  life := fun c d => d.progLife opAdvance c
  params := fun _ _ => true
  begin := fun c d =>
    if c.desc.num 24 4 ≠ d.serial % 2 ^ 32 then d.finish c.fetch stBadParam []
    else if !d.progOk then d.finish c.fetch stRejected []
    else d.askProg c
  resume := fun c d => d.progRejoin c

/-- Leave on PROG is granted: stage 1 commits and stage 2 begins, if the lifecycle state and R436 still admit it. -/
def Dev.progGranted (d : Dev) : Dev :=
  match d.progWaiting with
  | none => if d.fuse.run.isSome then d else d.release slotFuse
  | some c =>
    let d1 := d.commit c.fetch 1
    if !d1.progLife c.op c.desc then (d1.release slotFuse).finish c.fetch stDenied []
    else if !d1.progOk then (d1.release slotFuse).finish c.fetch stAborted []
    else if d1.fuse.run.isSome then d1.finish c.fetch stRejected []
    else { d1 with fuse := { d1.fuse with run := some c.fuseRun } }

/-- Leave on PROG is given up. -/
def Dev.progGaveUp (d : Dev) : Dev :=
  match d.progWaiting with
  | some c => d.finish c.fetch stTokenTimeout []
  | none => d

/-- Low 64 bits of a mask of 72: the data bits; the high 8 are the check bits. -/
def dataMask (m : BitVec 72) : BitVec 64 := m.setWidth 64
def checkMask (m : BitVec 72) : BitVec 8 := (m >>> 64).setWidth 8

/-- One reference read of a copy after pulses to the bits of a codeword, but for those of `missed`. -/
def FuseRead.blow (old : FuseRead) (v : BitVec 64) (check : BitVec 8) (missed : BitVec 72) : FuseRead :=
  if missed = 0 && old.blank && check == checkOf v then ⟨v, 0⟩
  else readOf (old.data ||| (v &&& ~~~(dataMask missed))) (old.check ||| (check &&& ~~~(checkMask missed)))

/-- A copy after its pulses: bits of `missed` took at no reference, bits of `weak` fail at the high one. -/
def FuseCopy.blow (c : FuseCopy) (v : BitVec 64) (check : BitVec 8) (missed weak : BitVec 72) : FuseCopy :=
  { low := c.low.blow v check missed, nominal := c.nominal.blow v check missed,
    high := c.high.blow v check (missed ||| weak), more1 := c.more1.blow v check missed,
    more2 := c.more2.blow v check missed, more3 := c.more3.blow v check missed }

/-- Check bits a run programs: the codeword's, or every one of a marker row (R431). -/
def FuseRun.check (x : FuseRun) : BitVec 8 := if x.row < 56 then checkOf x.value else BitVec.allOnes 8

/-- The copies of the run's row after pulses. -/
def FuseBank.blow (b : FuseBank) (x : FuseRun) (mA wA mB wB : BitVec 72) : FuseBank :=
  { b with rows := fileMod b.rows x.row (fun r =>
      { r with copyA := r.copyA.blow x.value x.check mA wA, copyB := r.copyB.blow x.value x.check mB wB }) }

/-- A programming run whose command a reset has ended, which goes on (R438). -/
def FuseBank.orphan (b : FuseBank) : FuseBank :=
  { b with run := b.run.map (fun x => { x with fetch := none }), asked := [] }

/-- Programming stops after the current pulse (R436): its command ends with ABORTED_FAULT, and which bits were blown is
not stated. -/
def Dev.stopProgram (d : Dev) : Dev :=
  match d.fuse.run with
  | none => d
  | some x =>
    let m := fun (k : Nat) => Config.fuseMask (d.fresh + k)
    let b := { d.fuse.blow x (m 0) (m 1) (m 2) (m 3) with run := none }
    ({ d with fuse := b, fresh := d.fresh + 4 }.release slotFuse).finishOpt x.fetch stAborted []

/-- Every stop line (R316). -/
def allStops : List Work :=
  (indices 16).map (fun g => .stopLine (.group g) 0) ++ (indices 4).map (fun f => .stopLine (.feed f) 0)
  ++ (indices 24).map (fun n => .stopLine (.branch n) 0) ++ (indices 4).map (fun s => .stopLine (.string s) 0)
  ++ [.stopLine .timetable 0]

/-- Entry to Withdrawn (R432, R357). -/
def Dev.withdraw (d : Dev) : Dev :=
  let d1 := (d.oweAll allStops).flushNow
  { d1 with il := { d1.il with stopAll := true }, tr := { d1.tr with readOnly := true } }

/-- A marker row is set: the new state takes effect, with its record (R431, R434, R435). -/
def Dev.advanced (d : Dev) (x : FuseRun) : Dev :=
  let old := d.fuse.lifecycle
  let new := d.fuse.state
  let b := { d.fuse with lifecycle := new }
  let b1 := if new = lifeInTraffic then b.applyManifest else b
  let d1 := { d with fuse := b1 }.recordNow recLifecycle (leBytes old 1 ++ leBytes new 1 ++ leBytes x.tag 2)
  let d2 := if new = lifeInTraffic then d1.manifestEvent else d1
  let d3 := if new = lifeWithdrawn then d2.withdraw else d2
  let st := if new = lifeInTraffic ∧ d3.fuse.missing ≠ 0 then stPartial else stDone
  match x.fetch with
  | some k => d3.commitAll k st [new]
  | none => d3

/-- FUSE_PROGRAMMING_DONE: the pulses to both copies have ended; `missed` bits did not take, `weak` bits fail at the
high reference. The row is resolved into its shadow (R437, R438), and FB_REQUIRED follows row 24 (Table 17-6). While the
core is held in reset the sensing to come does the rest. -/
def fuseProgrammingDone (missedA weakA missedB weakB : BitVec 72) (d : Dev) : Dev :=
  match d.fuse.run with
  | none => d
  | some x =>
    let b := { d.fuse.blow x missedA weakA missedB weakB with run := none }
    let r := b.resolve x.row
    let d1 := { d with fuse := { r with required := if x.row = 24 then r.requires else r.required } }.release slotFuse
    if !d.coreRuns then d1
    else if x.row < 56 then
      let pass := (d1.fuse.row x.row).passes x.value
      let st := if pass then stDone else stPartial
      match x.fetch with
      | some k => (d1.commit k 2).commitAll k st [flag pass]
      | none => d1
    else if d1.fuse.isSet x.row then d1.advanced x
    else d1.finishOpt x.fetch stAborted []

/-- VPP_WINDOW_CHANGE: VPP enters or leaves its window; leaving it stops programming (R436). -/
def vppWindowChange (ok : Bool) (d : Dev) : Dev :=
  let d1 := { d with fuse := { d.fuse with vppOk := ok } }
  if ok then d1 else d1.stopProgram

/-- A junction outside its window stops programming (R436). -/
def Dev.progTemperature (d : Dev) : Dev := if d.fuse.run.isSome && !d.progOk then d.stopProgram else d

/-- A block reset of the Fuse Bank: the command in flight ends, the programming runs on (R438, Table 16-8). -/
def Dev.fuseReset (d : Dev) : Dev :=
  match d.fuse.run with
  | none => d
  | some x => { d with fuse := { d.fuse with run := some { x with fetch := none } } }.finishOpt x.fetch stAborted []

end Sys2Proof.Machine
end

