-- ==== Sys2Proof/Machine/ReadReg.lean ====
section
/-! DEFINITION. What a read of each BAR0 register returns: its Rule Book fields with the fields the hardware drives
beside them (spec/18_register_map.md R439, R444 and Table 18-2, with the register tables it names; spec/14 R362). -/
namespace Sys2Proof.Machine

/-- The instance of a family of registers at `base + stride * i`, `i < count`, that lies at `off`. -/
def instOf (base stride count off : Nat) : Option Nat :=
  if base ≤ off ∧ (off - base) % stride = 0 ∧ (off - base) / stride < count then some ((off - base) / stride) else none

/-- The live fields beside the Rule Book fields of a register family: nothing where `off` is none of its instances. -/
def liveAt (base stride count off : Nat) (f : Nat → Nat) : Nat :=
  match instOf base stride count off with
  | some i => f i
  | none => 0

/-- Coding of ELE_LANE_STATUS.state (Table 5-8). -/
def LaneState.code : LaneState → Nat
  | .scheduled => 0 | .spare => 1 | .testing => 2 | .retired => 3

/-- Identity, system and HQI registers (Tables 14-19 to 14-28, 16-9). -/
def Dev.liveSystem (d : Dev) (off : Nat) : Nat :=
  if off = 0x0000 then 0x48241F3C
  else if off = 0x0004 then 0x21
  else if off = 0x0010 then place 31 1 (flag d.core.blkRefused) + place 8 8 d.core.blkIndex
  else if off = 0x0100 then place 31 1 (flag d.hqi.expertEn) + place 16 8 d.hqi.imod
  else if off = 0x0104 then
    place 30 2 d.hqi.speed + place 28 2 (if d.hqi.speed = 0 then 0 else d.hqi.width) + place 27 1 (flag d.hqi.d3hot)
    + place 16 8 d.hqi.badAccess + place 8 8 d.hqi.dbErr + place 0 8 d.hqi.dmaErr
  else if off = 0x0108 then d.hqi.eqLost
  else
    liveAt 0x0140 0x10 11 off (fun r => (d.ring r).baseLo * 2 ^ 12)
    + liveAt 0x0144 0x10 11 off (fun r => (d.ring r).baseHi)
    + liveAt 0x0148 0x10 11 off (fun r =>
        place 31 1 (flag (d.ring r).en) + place 30 1 (flag ((d.ring r).lap && decide (4 ≤ r)))
        + place 16 5 (d.ring r).log2n + (if ringHasVec r then place 8 5 (d.ring r).vec else 0))
    + liveAt 0x014C 0x10 11 off (fun r => place 16 16 (d.ring r).devIdx + place 0 16 (d.ring r).dbIdx)
    + liveAt 0x0200 4 32 off (fun w => (fileGet d.hqi.evtVec w 0).toNat)

/-- Time base and keep-alive registers (Tables 2-3, 2-5, 9-18, 9-19). -/
def Dev.liveTime (d : Dev) (off : Nat) : Nat :=
  let k := d.ka
  if off = 0x0420 then
    place 31 1 (flag k.valid) + place 30 1 (flag k.x32Ok) + place 29 1 (flag d.core.xrefOk)
    + place 28 1 (flag k.depotOut) + place 24 4 k.cause + place 0 15 k.epoch
  else if off = 0x0424 then
    place 15 1 (flag d.core.autoEn) + place 0 10 (unsignedOf 10 k.trim)
  else if off = 0x0428 then
    place 28 4 k.wakeCause + place 8 4 k.winEn + place 4 4 k.winPol + place 3 1 (flag k.busEn)
    + place 2 1 (flag k.alarmEn) + place 1 1 (flag k.chgEn)
  else if off = 0x042C then k.alarmS
  else 0

/-- Fast Trip Array: readback, sides, latches (Tables 3-16 to 3-22). `dir` of CP0 to CP123 reads its direction of
Table 3-11. -/
def Dev.liveTrip (d : Dev) (off : Nat) : Nat :=
  liveAt 0x1000 4 124 off (fun n => place 25 1 (flag (d.isAbove n && FTA_CP_CFG.dir d n == 0)))
  + liveAt 0x1200 4 128 off (fun n => place 16 10 (d.cp n).rbCode + place 15 1 (flag (d.cp n).settling))
  + liveAt 0x1400 4 4 off (fun w => maskOf 32 (fun b => (d.cp (32 * w + b)).side == .fault))
  + liveAt 0x1410 4 4 off (fun w => maskOf 32 (fun b => (d.cp (32 * w + b)).neverGood))
  + (if off = 0x1428 then d.trip.latches % 2 ^ 32 else 0)
  + (if off = 0x142C then d.trip.latches / 2 ^ 32 % 2 ^ 24 else 0)

/-- The group shows `en` in the states that run (Table 4-5). -/
def Dev.liveGroup (d : Dev) (g : Nat) : Nat :=
  let x := d.group g
  place 31 1 (flag (!x.state.stopped)) + place 30 1 (flag (d.safetyCrit g)) + place 27 3 x.state.code
  + place 25 2 x.winner + place 24 1 (flag x.clampHi) + place 23 1 (flag x.clampLo)
  + place 16 1 (flag (ELE_GRP_CTRL.reg_en d g % 2 == 0))

/-- Loop Engine: groups, lanes, overrun state, hiccup counts, leg health (Tables 4-5, 5-8, 5-10, 5-15, 5-17). -/
def Dev.liveLoop (d : Dev) (off : Nat) : Nat :=
  liveAt 0x2000 0x20 16 off d.liveGroup
  + liveAt 0x2204 4 6 off (fun l =>
      place 29 3 (d.lane l).state.code + place 26 3 (d.lane l).cause
      + place 16 8 (held 255 (d.liveStrikes l).length))
  + (if off = 0x2224 then place 30 2 d.sup.defer + maskOf 16 (fun g => d.sup.reduced.contains g) else 0)
  + liveAt 0x241C 0x20 16 off (fun g => place 4 4 (d.group g).watch.hiccups)
  + liveAt 0x2640 4 24 off (fun k =>
      let p := d.phaseOfLeg k
      place 29 3 (d.leg p).health.code + place 16 8 (held 255 (d.leg p).model.count))

/-- Phase Timing Unit: leg states (Table 6-12). Both legs of a pair read the pair's count. -/
def Dev.livePhase (d : Dev) (off : Nat) : Nat :=
  liveAt 0x310C 0x10 24 off (fun k =>
    place 29 3 (d.leg k).state.code + place 27 2 (d.leg k).parkCause + place 16 8 (held 255 (d.leg (d.phaseOfLeg k)).cbc))

/-- Feeds, branches and banks (Tables 7-3, 8-8, 8-18). -/
def Dev.livePower (d : Dev) (off : Nat) : Nat :=
  liveAt 0x3800 0x40 4 off (fun f =>
    let x := d.feed f
    place 29 3 x.state.code + place 26 3 x.cause + place 22 4 x.retries)
  + liveAt 0x3C00 0x40 24 off (fun n =>
    let x := d.branch n
    place 29 3 x.state.code + place 26 3 x.cause + place 22 4 x.retries + place 20 1 (flag x.lim))
  + liveAt 0x4204 0x10 4 off (fun b =>
    let x := fileGet d.banks b default
    place 31 1 (flag x.mismatch) + place 16 8 (held 255 x.count))

/-- Battery shelf (Tables 9-4 and 9-13). -/
def Dev.liveShelf (d : Dev) (off : Nat) : Nat :=
  liveAt 0x4400 0x40 4 off (fun s => place 29 3 (d.str s).state.code + place 26 3 (d.str s).cause)
  + liveAt 0x4424 0x40 4 off (fun s => place 8 8 (d.str s).ofs)

/-- Timetable and point-of-load buses (Tables 10-7, 10-9, 10-11, 10-17, 10-19). BELL_OUT is low between frames, and a
frame is whole within its command. -/
def Dev.liveTimetable (d : Dev) (off : Nat) : Nat :=
  let t := d.tt
  (if off = 0x4800 then place 29 3 t.state.code + place 25 4 t.step + place 24 1 (flag t.queued.isSome) else 0)
  + (if off = 0x4808 then
      place 31 1 (flag t.level) + place 30 1 (flag t.drive) + place 28 1 (flag t.lastUp) + place 24 4 t.lastStep
      + place 16 8 (held 255 t.frameErr) + place 8 8 (held 255 t.lost)
    else 0)
  + liveAt 0x4880 0x20 16 off (fun n => place 29 3 (d.rail n).state.code)
  + liveAt 0x4C04 0x10 4 off (fun b =>
      let m := d.pb b
      place 31 1 (flag m.current.isSome) + place 30 1 (flag m.alert) + place 16 8 (held 255 m.nack)
      + place 8 8 (held 255 m.pecErr) + place 0 8 (held 255 m.timeout))
  + liveAt 0x4C44 0x10 2 off (fun a =>
      let m := d.av a
      place 27 5 m.last + place 26 1 (flag m.alert) + place 16 8 (held 255 m.crcErr))

/-- Token Office (Tables 11-10 and 11-11). -/
def Dev.liveOffice (d : Dev) (off : Nat) : Nat :=
  if off = 0x5010 then place 24 8 d.waitingSlots.length + place 0 24 (held 0xFFFFFF (d.heldOf budSurge))
  else if off = 0x5014 then
    place 22 10 (held 1023 (d.heldOf budGate)) + place 10 12 (held 4095 (d.heldOf budCore))
    + place 6 4 (held 15 (d.heldOf budMram)) + place 5 1 (flag (d.heldOf budProg != 0))
    + place 4 1 (flag ([0, 1, 2, 3, 4].any d.overdrawn))
  else 0

/-- Milliseconds that remain until an uptime, rounded up. -/
def Dev.msUntil (d : Dev) (t : Nat) : Nat := ceilDiv (t - d.now) ticksPerMs

/-- Interlocking: status, capture, injection, reaction table (Tables 12-13 to 12-17, 12-20, 12-21). The capture words
hold what was last captured. -/
def Dev.liveInterlock (d : Dev) (off : Nat) : Nat :=
  let il := d.il
  let c := il.capture
  if off = 0x5408 then
    place 31 1 (flag il.slw) + place 28 3 il.slwCause + place 27 1 (flag il.hostSilent) + place 26 1 (flag il.spSilent)
    + place 25 1 (flag il.spHold) + place 24 1 (flag (!il.faults.isEmpty)) + place 19 5 il.shedCount
    + place 0 16 il.faultId
  else if off = 0x5410 then
    place 31 1 (flag c.valid) + place 30 1 (flag c.injected) + place 28 2 c.cls + place 24 4 c.sec + place 16 8 c.code
    + place 8 8 c.source + place 0 8 c.master
  else if off = 0x5414 then place 29 3 c.access + place 0 16 c.ident
  else if off = 0x5418 then place 0 32 c.addr
  else if off = 0x5450 then
    place 31 1 (flag il.armedUntil.isSome) + place 16 10 (d.msUntil (il.armedUntil.getD 0)) + place 8 8 il.lastKind
    + place 0 8 (held 255 il.injections)
  else
    liveAt 0x5420 4 4 off (fun w => leAt c.stamp.bytes (4 * w) 4)
    + liveAt 0x5500 4 128 off (fun code => place 31 1 (flag (rxFixed code)) + place 0 16 (il.countOf code))

/-- Train Register (Tables 13-9 to 13-13). TR_SEQ_HI and TR_FLUSHED_HI return what the read of their low word
latched (R444). -/
def Dev.liveRegister (d : Dev) (off : Nat) : Nat :=
  let t := d.tr
  if off = 0x5804 then
    place 31 1 (flag t.flushTo.isSome)
    + place 30 1 (flag (match t.clearing with
        | some c => c.granted && c.recSeq.isNone
        | none => false))
    + place 29 1 (flag t.readOnly) + place 16 9 t.buffer.length + place 0 16 (held 65535 t.dropped)
  else if off = 0x5808 then t.next % 2 ^ 32
  else if off = 0x580C then t.latchSeq % 2 ^ 16
  else if off = 0x5810 then t.flushed % 2 ^ 32
  else if off = 0x5814 then t.latchFl % 2 ^ 16
  else if off = 0x5818 then place 16 16 t.torn + place 0 14 t.wptr
  else if off = 0x581C then
    place 31 1 (flag t.nonce.isSome) + place 30 1 (flag d.keyBlank) + place 23 7 t.log.length
    + place 8 8 (held 255 t.fails) + place 0 8 (held 255 (ceilDiv (t.lockEnd - d.now) (4 * ticksPerS)))
  else 0

/-- Rows of the fuse bank with a property, as a number. -/
def FuseBank.count (b : FuseBank) (p : FuseRow → Bool) : Nat := (b.rows.toList.filter p).length

/-- Half `h` of a mask over the rows of the fuse bank. -/
def FuseBank.half (b : FuseBank) (h : Nat) (p : FuseRow → Bool) : Nat := maskOf 32 (fun i => p (b.row (32 * h + i)))

/-- Fuse Bank (Tables 17-5 to 17-9). -/
def Dev.liveFuse (d : Dev) (off : Nat) : Nat :=
  let b := d.fuse
  if off = 0x5C00 then
    place 30 2 b.lifecycle + place 29 1 (flag b.vppOk) + place 28 1 (flag b.run.isSome)
    + place 27 1 (flag (b.missing != 0)) + place 16 8 (held 255 (b.count FuseRow.flagged))
    + place 8 8 (held 255 b.corrected) + place 0 8 (held 255 (popcount 64 b.marginal))
  else if off = 0x5C04 then b.required % 2 ^ 32
  else if off = 0x5C08 then b.missing % 2 ^ 32
  else if off = 0x5C10 then b.marginal % 2 ^ 32
  else if off = 0x5C14 then b.marginal / 2 ^ 32
  else if off = 0x5C18 then b.half 0 FuseRow.bothFail
  else if off = 0x5C1C then b.half 1 FuseRow.bothFail
  else 0

/-- The stream registers and BGE_STATUS (Tables 18-9 to 18-11). -/
def Dev.liveEngines (d : Dev) (off : Nat) : Nat :=
  let b := d.bge
  let e := fun (e : Nat) (works : List Nat) => 2 ^ (24 + e) * flag (works.any (bitOf b.late))
  if off = 0x6020 then
    place 28 4 b.stopped + e 0 [0, 1, 2]
    + 2 ^ 25 * flag ([3, 4, 5, 7].any (bitOf b.late) || b.lines.toList.any (·.stale)) + e 2 [6]
    + e 3 ((indices 8).map (· + 8))
    + place 23 1 (flag b.sweeping)
  else
    liveAt 0x6040 4 8 off (fun i =>
      let s := fileGet b.streams i default
      place 31 1 (flag s.en) + place 20 6 s.words + place 0 20 s.period)
    + (if 0x6400 ≤ off ∧ off < 0x6C00 ∧ off % 4 = 0 ∧ (off - 0x6400) % 0x100 / 4 < 56 then
        place 0 18 ((fileGet b.streams ((off - 0x6400) / 0x100) default).list.getD ((off - 0x6400) % 0x100 / 4) 0)
      else 0)

/-- Safety port (Table 14-29). -/
def Dev.livePort (d : Dev) (off : Nat) : Nat :=
  let s := d.sp
  if off = 0x7000 then
    place 24 8 s.frames + place 16 8 s.crcErr + place 8 8 s.lenErr + place 4 4 s.lastCmd + place 0 4 s.lastStatus
  else 0

/-- The MSI-X table, 16 bytes for each vector, and the PBA. -/
def Dev.liveMsix (d : Dev) (off : Nat) : Nat :=
  if 0x8000 ≤ off ∧ off < 0x8200 then
    let v := fileGet d.hqi.msix ((off - 0x8000) / 16) default
    let w := (off - 0x8000) % 16 / 4
    if w = 0 then v.addrLo.toNat else if w = 1 then v.addrHi.toNat else if w = 2 then v.data.toNat else flag v.masked
  else if off = 0x9000 then maskOf 32 (fun i => (fileGet d.hqi.msix i default).pending)
  else 0

/-- The configuration space of Table 14-1: its values, what the host has set, the power state, and the uncorrectable error
status of Advanced Error Reporting. BAR1, BAR4, BAR5 and the Expansion ROM read as 0. -/
structure ConfigSpace where
  vendor    : Nat
  device    : Nat
  revision  : Nat
  classCode : Nat
  subVendor : Nat
  subsystem : Nat
  header    : Nat
  pin       : Nat
  bar0      : Nat
  bar2      : Nat
  serial    : Nat
  d3hot     : Bool
  vectors   : Nat
  func      : FunctionSetup
  aer       : Nat
  deriving DecidableEq, Repr

/-- What configuration space reads (R359): BAR2 marks itself as 64-bit; the identity rows 0 and 1 of the fuse bank give the
serial number and the subsystem. -/
def Dev.configSpace (d : Dev) : ConfigSpace where
  vendor := 0x1F3C
  device := 0x4824
  revision := 0x21
  classCode := 0x118000
  subVendor := bitsOf (d.fuseRow 1) 0 16
  subsystem := bitsOf (d.fuseRow 1) 16 16
  header := 0
  pin := 0
  bar0 := d.hqi.func.bar0.toNat * 2 ^ 16
  bar2 := d.hqi.func.bar2.toNat * 2 ^ 20 + 4
  serial := d.fuseRow 0
  d3hot := d.hqi.d3hot
  vectors := 32
  func := d.hqi.func
  aer := d.hqi.aer

/-- The fields of a register that the hardware drives, and the registers that hold no Rule Book field. -/
def Dev.live (d : Dev) (off : Nat) : Nat :=
  if off < 0x0400 then d.liveSystem off
  else if off < 0x0800 then d.liveTime off
  else if off < 0x1000 then 0
  else if off < 0x2000 then d.liveTrip off
  else if off < 0x3000 then d.liveLoop off
  else if off < 0x3800 then d.livePhase off
  else if off < 0x4400 then d.livePower off
  else if off < 0x4800 then d.liveShelf off
  else if off < 0x5000 then d.liveTimetable off
  else if off < 0x5400 then d.liveOffice off
  else if off < 0x5800 then d.liveInterlock off
  else if off < 0x5C00 then d.liveRegister off
  else if off < 0x6000 then d.liveFuse off
  else if off < 0x7000 then d.liveEngines off
  else if off < 0x8000 then d.livePort off
  else d.liveMsix off

/-- The Rule Book part of the register at `off`; 0 where none lies. -/
def Dev.bookPart (d : Dev) (off : Nat) : Nat :=
  if (regAt off).isSome || (0x5500 ≤ off && off < 0x5700 && off % 4 == 0) then d.reg off else 0

/-- A read of the 32-bit word at BAR0 offset `off` (R362, R439, R444): 0 at an unoccupied offset. -/
def Dev.readReg (d : Dev) (off : Nat) : Nat := d.bookPart off + d.live off

end Sys2Proof.Machine
end

