-- ==== Sys2Proof/Machine/Mirror.lean ====
section
/-! DEFINITION. The State Mirror: what each of its words holds, the latch of a 64-bit item's high word, and
STATE_SNAPSHOT (spec/16_state_resets_persistence.md R403 to R408, Tables 16-1 to 16-3). A quotient in a word is
rounded to the nearest unit unless its rule rounds otherwise (log entry 12). -/
namespace Sys2Proof.Machine

/-- A signed item in a 32-bit word (R404). -/
def wordOf (z : Int) : Nat := unsignedOf 32 z

/-- A temperature in 2^-32 °C, or K, as a word in 0.1 °C. -/
def tenths (z : Int) : Nat := wordOf (roundDiv (z * 10) (2 ^ 32))

/-- The latest result of a converter in its physical unit, one thousandth of the unit of its full scale's quantity. -/
def Dev.milli (d : Dev) (n : Option Nat) : Nat := wordOf (roundDiv (d.latest n * d.scaleOf n) 32768)

/-- The generation of a Rule Book copy, or 0 when invalid (Table 16-2). -/
def Dev.shownGen (d : Dev) (k : Nat) : Nat := if d.copyValid k then (d.book.copy k).gen else 0

/-- The live configuration differs from the image last loaded or committed (R412). -/
def Dev.dirty (d : Dev) : Bool := d.cfg != d.book.loaded

/-- 32-bit words of the summary (Table 16-2), by offset within it. -/
def Dev.summary32 (d : Dev) (o : Nat) : Nat :=
  if o = 0x10 then d.startCount % 2 ^ 32
  else if o = 0x14 then place 0 4 d.core.startKind + place 8 4 d.ka.cause
  else if o = 0x20 then place 0 2 d.book.source + place 8 1 (flag d.dirty)
  else if o = 0x24 then d.shownGen 0
  else if o = 0x28 then d.shownGen 1
  else if o = 0x2C then SYS_PATTERN.pattern d
  else if o = 0x30 then roundDivN ((d.hkCode 68).getD 0 * 1250) 65536
  else if o = 0x34 then wordOf d.house.junction
  else if o = 0x38 then d.fuse.lifecycle
  else 0

/-- 64-bit items of the summary. -/
def Dev.summary64 (d : Dev) (o : Nat) : Option Nat :=
  if o = 0x00 then some d.now
  else if o = 0x08 then some d.ka.calWord
  else if o = 0x18 then some d.ka.calDown
  else none

/-- 64-bit items of a group's region (Table 16-3). -/
def Dev.group64 (d : Dev) (g o : Nat) : Option Nat :=
  let x := d.group g
  if o < 0x80 then
    let c := x.chan (o / 0x20)
    if o % 0x20 = 0x00 then some (unsignedOf 64 c.r)
    else if o % 0x20 = 0x08 then some (unsignedOf 64 c.t)
    else if o % 0x20 = 0x18 then some (unsignedOf 64 c.u)
    else none
  else if o = 0x80 then some (unsignedOf 64 x.y1)
  else if o = 0xB8 then some (unsignedOf 64 x.model.vhat)
  else if o = 0xC0 then some (unsignedOf 64 x.model.iload)
  else if o = 0xC8 then some (unsignedOf 64 x.model.rhoV)
  else none

/-- The switching frequency split in force for a group: live while it runs, else as configured. -/
def Dev.liveSplit (d : Dev) (g : Nat) : Nat × Nat :=
  if (d.group g).state.stopped then (PTU_GRP_TIM.spp d g, PTU_GRP_TIM.pps d g)
  else ((d.group g).rate.spp, (d.group g).rate.pps)

/-- 32-bit words of a group's region (Table 16-3). -/
def Dev.group32 (d : Dev) (g o : Nat) : Nat :=
  let x := d.group g
  if o < 0x80 then if o % 0x20 = 0x10 then (x.chan (o / 0x20)).s % 2 ^ 32 else 0
  else if o = 0x88 then x.applied
  else if o = 0x8C then wordOf x.trim
  else if o = 0x90 then
    place 0 2 x.winner + place 2 1 (flag x.clampHi) + place 3 1 (flag x.clampLo) + place 4 1 (flag x.floor)
    + place 8 3 x.state.code
  else if o = 0x94 then (shiftRound x.dpb 4).toNat
  else if 0x98 ≤ o ∧ o < 0xA8 ∧ o % 4 = 0 then (x.chan ((o - 0x98) / 4)).wins % 2 ^ 32
  else if o = 0xA8 then x.watch.satCount % 2 ^ 32
  else if o = 0xAC then d.kappa g
  else if o = 0xB0 then x.model.steps % 2 ^ 32
  else if o = 0xB4 then x.watch.skipped % 2 ^ 32
  else if o = 0xD0 then d.livePeriod g
  else if o = 0xD4 then place 0 5 (d.liveSplit g).1 + place 8 7 (d.liveSplit g).2
  else if o = 0xD8 then x.stopCeil / 40000
  else 0

/-- 64-bit items of a leg's region: the model of its phase, held at the lower leg. -/
def Dev.leg64 (d : Dev) (k o : Nat) : Option Nat :=
  let m := (d.leg k).model
  if o = 0x00 then some (unsignedOf 64 m.ihat)
  else if o = 0x08 then some (unsignedOf 64 m.pred)
  else if o = 0x10 then some (unsignedOf 64 m.rho)
  else if o = 0x18 then some (unsignedOf 64 m.delta)
  else none

/-- 32-bit words of a leg's region. -/
def Dev.leg32 (d : Dev) (k o off : Nat) : Nat :=
  let l := d.leg k
  if o = 0x20 then l.offset
  else if o = 0x24 then
    match d.groupOfLeg k with
    | some g => if (d.group g).state.stopped then d.configuredPeriod g else (d.group g).rate.switchPeriod
    | none => 0
  else if o = 0x28 then l.skipped % 2 ^ 32
  else if o = 0x2C then
    match d.groupOfLeg k with
    | some g => if l.state = .joining then d.joinCeiling g k % 2 ^ 32 else Config.idleItem off % 2 ^ 32
    | none => Config.idleItem off % 2 ^ 32
  else if o = 0x30 then l.cycles % 2 ^ 32
  else 0

/-- Words of a SAR converter. -/
def Dev.sar32 (d : Dev) (n o : Nat) : Nat :=
  let x := d.sar n
  if o = 0x00 then place 0 16 (unsignedOf 16 x.result) + place 16 1 (flag x.exceeds)
  else if o = 0x04 then wordOf x.filtered
  else if o = 0x08 then x.overCnt % 2 ^ 32
  else if o = 0x0C then x.failCnt % 2 ^ 32
  else if o = 0x10 then wordOf x.offset
  else if o = 0x14 then x.gain
  else 0

/-- The slope of R216 over the last eight results of V_in, in mV/ms. -/
def Dev.slope (d : Dev) (f off : Nat) : Nat :=
  match (d.feed f).vins.head?, (d.feed f).vins[8]?, d.feedCur f with
  | some v0, some v8, some n =>
    wordOf (roundDiv ((v0 - v8) * (d.scaleOf (d.feedVin f) : Int) * ticksPerMs) (32768 * 8 * (d.resultPeriod n : Int)))
  | _, _, _ => Config.idleItem off % 2 ^ 32

/-- Words of a feed. -/
def Dev.feed32 (d : Dev) (f o off : Nat) : Nat :=
  let x := d.feed f
  if o = 0x00 then tenths x.tj
  else if o = 0x04 then tenths x.d1
  else if o = 0x08 then tenths x.d2
  else if o = 0x0C then wordOf ((d.supplier f).elim 0 (fun g => (d.group g).trim))
  else if o = 0x10 then d.holdMs x.hold
  else if o = 0x14 then d.slope f off
  else if o = 0x18 then d.milli (d.feedCur f)
  else if o = 0x1C then d.milli (d.feedVin f)
  else if o = 0x20 then d.milli (d.feedVout f)
  else 0

/-- Words of a branch. -/
def Dev.branch32 (d : Dev) (n o off : Nat) : Nat :=
  let x := d.branch n
  if o = 0x00 then tenths x.t1
  else if o = 0x04 then tenths x.t2
  else if o = 0x08 then tenths x.t3
  else if o = 0x0C then roundDivN x.p (2 ^ 32 * 1000000) % 2 ^ 32
  else if o = 0x10 then d.holdMs x.hold
  else if o = 0x14 then
    if x.state = .limiting then held 0xFFFFFFFF ((d.now - x.limFrom) / ticksPerUs) else Config.idleItem off % 2 ^ 32
  else if o = 0x18 then x.limits % 2 ^ 32
  else if o = 0x1C then roundDivN (d.branchI n) 65536
  else if o = 0x20 then roundDivN (d.branchV n) 65536
  else 0

/-- The time to empty of R249, in seconds: q in mAh is 3,600 mA·s each. -/
def Dev.timeToEmpty (d : Dev) (s : Nat) : Nat :=
  let i := d.strI s
  if i ≤ 0 then 0xFFFFFFFF
  else held 0xFFFFFFFE ((max (d.str s).est.q 0 * 3600 * 32768) / (chargeUnit * i)).toNat

/-- Words of a string. -/
def Dev.string32 (d : Dev) (s o : Nat) : Nat :=
  let x := d.str s
  let e := x.est
  let floor := BSM_STR_EST.floor d s
  if o = 0x00 then wordOf (inMah e.q)
  else if o = 0x04 then wordOf (inMah e.c)
  else if o = 0x08 then wordOf e.uMah
  else if o = 0x0C then wordOf e.unc
  else if o = 0x10 then wordOf (roundDiv (e.e * 10000) (2 ^ 40))
  else if o = 0x14 then wordOf (e.lo floor)
  else if o = 0x18 then wordOf (e.shown floor)
  else if o = 0x1C then d.anchorAge e % 2 ^ 32
  else if o = 0x20 then d.timeToEmpty s
  else if o = 0x24 then x.limit % 2 ^ 32
  else if o = 0x28 then x.closes % 2 ^ 32
  else if o = 0x2C then x.breaks % 2 ^ 32
  else if o = 0x30 then flag e.used + 2 * flag e.stale + 4 * flag e.span
  else 0

/-- Words of a rail. -/
def Dev.rail32 (d : Dev) (n o : Nat) : Nat :=
  let x := d.rail n
  if o = 0x00 then x.status
  else if o = 0x04 then wordOf x.vin
  else if o = 0x08 then wordOf x.vout
  else if o = 0x0C then wordOf x.iout
  else if o = 0x10 then wordOf x.temp
  else if o = 0x14 then x.version
  else 0

/-- Words of a Token Office slot. -/
def Dev.slot32 (d : Dev) (i o : Nat) : Nat :=
  let x := d.slot i
  let st := match x.state with
    | .empty => 0
    | .waiting => 1
    | .holding => 2
  if o = 0x00 then place 0 2 st + place 8 2 x.rank
  else if o = 0x04 then x.surge
  else if o = 0x08 then place 0 10 x.gate + place 10 12 x.core + place 22 4 x.mram + place 26 1 x.prog
  else if o = 0x0C then x.arrival % 2 ^ 32
  else 0

/-- 32-bit words of the Background Engines. The highest write count as a fraction is rounded down (DESIGN CHOICE, log
entry 125). -/
def Dev.engine32 (d : Dev) (o : Nat) : Nat :=
  if o = 0x00 then d.bge.uncounted % 2 ^ 32
  else if o = 0x04 then held 0xFFFFFFFF (d.bge.highest * 65536 / 10000000000)
  else if o = 0x08 then d.bge.spares
  else if 0x10 ≤ o ∧ o < 0x30 ∧ o % 4 = 0 then (fileGet d.bge.streams ((o - 0x10) / 4) default).drops % 2 ^ 32
  else 0

/-- The interval in use of a coulomb converter, in ms. -/
def Coulomb.ms (x : Coulomb) : Nat := intervalMs x.ivl

/-- The 64-bit item that occupies the aligned 8 bytes at BAR2 offset `a`, if one does (Tables 16-1 to 16-3). -/
def Dev.wide (d : Dev) (a : Nat) : Option Nat :=
  if 0x09000 ≤ a ∧ a < 0x09040 then d.summary64 (a - 0x09000)
  else if 0x0A000 ≤ a ∧ a < 0x0B000 then d.group64 ((a - 0x0A000) / 0x100) ((a - 0x0A000) % 0x100)
  else if 0x0B000 ≤ a ∧ a < 0x0B600 then d.leg64 ((a - 0x0B000) / 0x40) ((a - 0x0B000) % 0x40)
  else if 0x0C800 ≤ a ∧ a < 0x0C840 ∧ a % 0x10 = 8 then some ((fileGet d.ccs ((a - 0x0C800) / 0x10) default).count % 2 ^ 64)
  else if 0x12030 ≤ a ∧ a < 0x12050 then some (fileGet d.bge.sweptAt ((a - 0x12030) / 8) 0 % 2 ^ 64)
  else if a = 0x13008 then some (d.tr.flushed % 2 ^ 64)
  else none

/-- The 32-bit item at BAR2 offset `a` (Table 16-1); 0 where no region lies (R403). -/
def Dev.narrow (d : Dev) (a : Nat) : Nat :=
  if a < 0x01000 then 0
  else if a < 0x09000 then d.readReg (a - 0x01000)
  else if a < 0x09040 then d.summary32 (a - 0x09000)
  else if a < 0x09100 then 0
  else if a < 0x09130 then
    if a % 8 = 0 then
      place 0 16 (fileGet d.core.pace ((a - 0x09100) / 8) 0) + place 16 8 (fileGet d.core.busy ((a - 0x09100) / 8) 0)
    else 0
  else if a = 0x09130 then d.core.aggregate
  else if a = 0x09134 then d.core.lowest.getD 0
  else if a < 0x0A000 then 0
  else if a < 0x0B000 then d.group32 ((a - 0x0A000) / 0x100) ((a - 0x0A000) % 0x100)
  else if a < 0x0B600 then d.leg32 ((a - 0x0B000) / 0x40) ((a - 0x0B000) % 0x40) a
  else if a < 0x0C000 then 0
  else if a < 0x0C600 then d.sar32 ((a - 0x0C000) / 0x20) ((a - 0x0C000) % 0x20)
  else if a < 0x0C800 then 0
  else if a < 0x0C840 then
    let x := fileGet d.ccs ((a - 0x0C800) / 0x10) default
    if a % 0x10 = 0 then wordOf x.result else if a % 0x10 = 4 then x.ms else 0
  else if 0x0C900 ≤ a ∧ a < 0x0CA80 then (d.hkCode ((a - 0x0C900) / 4)).getD 0
  else if 0x0CB00 ≤ a ∧ a < 0x0CB20 then wordOf ((fileGet d.house.therm ((a - 0x0CB00) / 4) none).getD 0)
  else if 0x0D000 ≤ a ∧ a < 0x0D200 then d.feed32 ((a - 0x0D000) / 0x80) ((a - 0x0D000) % 0x80) a
  else if 0x0D400 ≤ a ∧ a < 0x0E000 then d.branch32 ((a - 0x0D400) / 0x80) ((a - 0x0D400) % 0x80) a
  else if 0x0E000 ≤ a ∧ a < 0x0E080 then
    let x := fileGet d.banks ((a - 0x0E000) / 0x20) default
    if a % 0x20 = 0 then wordOf x.sum else if a % 0x20 = 4 then x.total % 2 ^ 32 else 0
  else if 0x0E100 ≤ a ∧ a < 0x0E500 then d.string32 ((a - 0x0E100) / 0x100) ((a - 0x0E100) % 0x100)
  else if a = 0x0E500 then wordOf (roundDiv d.shelfSum 32768)
  else if 0x0F000 ≤ a ∧ a < 0x0F400 then d.rail32 ((a - 0x0F000) / 0x40) ((a - 0x0F000) % 0x40)
  else if 0x10000 ≤ a ∧ a < 0x104F0 then d.slot32 ((a - 0x10000) / 0x10) ((a - 0x10000) % 0x10)
  else if 0x12000 ≤ a ∧ a < 0x12030 then d.engine32 (a - 0x12000)
  else if a = 0x13000 then d.tr.dropped % 2 ^ 32
  else 0

/-- The 32-bit word at an aligned BAR2 offset of the State Mirror. -/
def Dev.mirror (d : Dev) (a : Nat) : Nat :=
  match d.wide (a / 8 * 8) with
  | some v => v / 2 ^ (8 * (a % 8)) % 2 ^ 32
  | none => d.narrow a

/-- The four bytes of one word of the State Mirror. -/
def Dev.mirrorBytes (d : Dev) (a : Nat) : Nat → List Byte
  | 0 => []
  | n + 1 => leBytes (d.mirror a) 4 ++ d.mirrorBytes (a + 4) n

/-- A 4-byte read of the word at BAR2 offset `a` by the host (R406): the low word of a 64-bit item latches the high word for
its next read of that word, which takes the latched one. -/
def Dev.mirrorRead (d : Dev) (a : Nat) : Nat × Dev :=
  if a % 8 = 0 ∧ (d.wide a).isSome then
    (d.mirror a, { d with hqi := { d.hqi with latchAt := a + 4, latchHi := d.mirror (a + 4) } })
  else if a = d.hqi.latchAt then (d.hqi.latchHi, { d with hqi := { d.hqi with latchAt := 0 } })
  else (d.mirror a, d)

/-- MIRROR_LOW_WORD_READ: a 4-byte read of the low word of a 64-bit item (R406). `word` counts 32-bit words from BAR2
0x01000; the read of a word that is no low word of a 64-bit item returns it, or the latched high word where it is the
latched one. -/
def mirrorLowWordRead (word : Fin 0x3FC00) (d : Dev) : Dev :=
  if !d.coreRuns then d
  else
    let r := d.mirrorRead (0x01000 + 4 * word.val)
    r.2.emit (.readData r.1)

/-- STATE_SNAPSHOT (R407, R408). -/
def specStateSnapshot : OpSpec where
  code := 0x01
  cls := clsDevice
  count := 1
  stdOk := true
  expOk := false
  total := fun _ _ => 1
  inWithdrawn := true
  inSlw := fun _ => true
  params := fun c _ =>
    let a := c.num 20 4
    let n := c.num 24 4
    0x01000 ≤ a && a ≤ 0xFFFF8 && a % 8 == 0 && n % 8 == 0 && a + n ≤ 0x100000 && n ≤ c.length.toNat
  begin := fun c d =>
    (d.toBuffer c.desc (d.mirrorBytes (c.desc.num 20 4) (c.desc.num 24 4 / 4))).commitAll c.fetch stDone
      [d.now % 2 ^ 32, d.now / 2 ^ 32]

end Sys2Proof.Machine
end

