-- ==== Sys2Proof/Machine/Registers.lean ====
section
/-! DEFINITION. BAR0 writes: which fields a write reaches, the limits that leave a field or a register unchanged, and
what a new value does at once (spec/18_register_map.md R440 to R447; the field descriptions of the register tables;
spec/14 R362 to R365, R375; spec/12 R312, R321; spec/16 R419). -/
namespace Sys2Proof.Machine

/-! ### Resources of RWS fields (Table 18-3) -/

/-- A converter is stopped for its RWS fields: its group when grp_en is 1, otherwise en 0. -/
def Dev.convStopped (d : Dev) (n : Nat) : Bool :=
  if MA_CH_CFG.grp_en d n = 1 then (d.group (MA_CH_CFG.grp d n)).state.stopped else MA_CH_CFG.en d n == 0

/-- A leg is stopped in IDLE and PARKED. -/
def LegState.stopped : LegState → Bool
  | .idle | .parked => true
  | _ => false

/-- The resource of a register is stopped. -/
def Dev.ownerStopped (d : Dev) (r : RegSpec) (off : Nat) : Bool :=
  let i := r.inst off
  match r.owner with
  | .none => true
  | .converter => d.convStopped ((off - 0x0800) / 4 % 48)
  | .group => (d.group i).state.stopped
  | .channel => FTA_CP_CFG.en d i == 0
  | .leg => (d.leg i).state.stopped
  | .drvflt => (d.leg i).state.stopped
  | .feed => (d.feed i).state.stopped
  | .branch => (d.branch i).state.stopped
  | .string => (d.str i).state.stopped
  | .timetable => d.tt.state == .down
  | .pmbus => PB_CFG.en d i == 0
  | .avs => AV_CFG.en d i == 0

/-! ### Limits between fields (R441 and the field descriptions) -/

/-- A converter keeps R63 and the skew limit of Table 3-4. -/
def Dev.convOk (d : Dev) (n : Nat) : Bool :=
  if MA_CH_CFG.grp_en d n = 1 then d.convFits (MA_GRP_SAMP.period d (MA_CH_CFG.grp d n)) n
  else d.osOf n ≤ MA_CH_CFG.fr_div d n + 1

/-- Every converter of a group fits a sample period. -/
def Dev.periodFits (d : Dev) (g p : Nat) : Bool :=
  (indices 48).all (fun n => MA_CH_CFG.grp_en d n == 0 || MA_CH_CFG.grp d n != g || d.convFits p n)

/-- What a field's description asks of a value beyond its range: `false` leaves the field unchanged. The fields of one
write are judged in order from the high bits, with those already taken in force. R97 asks for pairs of legs where
ELE_GRP_LEGS is written; a write of ELE_GRP_CFG.act that leaves a single leg of a pair in a phase-shift group is taken
(DESIGN CHOICE, log entry 128). While dec_auto is set the Battery Shelf Manager chooses MA_CC_CFG.dec, and a write
leaves it as it is (R251, DEDUCED, log entry 129). -/
def Dev.fieldAdmits (d : Dev) (off : Nat) (f : Field) (v : Nat) : Bool :=
  let x := f.of v
  if 0x08C0 ≤ off ∧ off < 0x0980 then
    let n := (off - 0x08C0) / 4
    MA_CH_CFG.grp_en d n == 0
      || (signedOf 20 x).natAbs * 2 ≤ MA_GRP_SAMP.period d (MA_CH_CFG.grp d n) * 400
  else if 0x0A40 ≤ off ∧ off < 0x0A80 then
    let g := (off - 0x0A40) / 4
    if f.lo = 19 then d.periodFits g x else x < MA_GRP_SAMP.period d g * 400
  else if 0x0A80 ≤ off ∧ off < 0x0A90 then BSM_STR_CFG.dec_auto d ((off - 0x0A80) / 4) == 0
  else if 0x1000 ≤ off ∧ off < 0x1200 then f.lo != 25 || 124 ≤ (off - 0x1000) / 4
  else if 0x2000 ≤ off ∧ off < 0x2200 ∧ (off - 0x2000) % 0x20 = 8 then
    let g := (off - 0x2000) / 0x20
    d.legMaskOk g (ELE_GRP_CFG.act d g) x
  else if 0x3100 ≤ off ∧ off < 0x3280 ∧ off % 0x10 = 8 then d.offsetOk ((off - 0x3100) / 0x10) x
  else if 0x3800 ≤ off ∧ off < 0x3900 ∧ off % 0x40 = 0x0C then
    f.lo != 8 || FC_ORING.on_dv d ((off - 0x3800) / 0x40) < 8 * x
  else if 0x4200 ≤ off ∧ off < 0x4240 then
    f.lo != 24 || (indices 24).all (fun n =>
      BC_CTRL.bank d n != (off - 0x4200) / 0x10 || (d.branch n).state == .off)
  else if 0x4400 ≤ off ∧ off < 0x4500 ∧ off % 0x40 = 0x18 then
    f.lo != 16 || x < BSM_STR_VLIM.empty_v d ((off - 0x4400) / 0x40)
  else if 0x4400 ≤ off ∧ off < 0x4500 ∧ off % 0x40 = 0x2C then
    f.lo != 0 || signedOf 8 (BSM_STR_CHG.chg_tmin d ((off - 0x4400) / 0x40)) < signedOf 8 x
  else true

/-- What the descriptions ask of a register as a whole: `e` is the device with the write's fields taken, `v` the word
written. `false` leaves the register unchanged. -/
def Dev.registerAdmits (e : Dev) (off v : Nat) : Bool :=
  if 0x0800 ≤ off ∧ off < 0x08C0 then e.convOk ((off - 0x0800) / 4)
  else if 0x0D00 ≤ off ∧ off < 0x0E00 then
    let t := (off - 0x0D00) / 0x20
    let p := (off - 0x0D00) % 0x20 / 4
    (p == 0 || MA_TH_PT.code e t (p - 1) < MA_TH_PT.code e t p)
      && (p == 7 || MA_TH_PT.code e t p < MA_TH_PT.code e t (p + 1))
  else if 0x2000 ≤ off ∧ off < 0x2200 then
    let g := (off - 0x2000) / 0x20
    if off % 0x20 = 0x0C then ELE_GRP_DLIM.umin e g ≤ ELE_GRP_DLIM.umax e g
    else if off % 0x20 = 0x10 then ELE_GRP_VWIN.vmin e g ≤ ELE_GRP_VWIN.vmax e g && e.inWindow g (e.target g 0)
    else true
  else if off = 0x2220 then ELE_OVR_CFG.ovr_low e < ELE_OVR_CFG.ovr_high e
  else if 0x3000 ≤ off ∧ off < 0x3100 then
    let g := (off - 0x3000) / 0x10
    if off % 0x10 = 0 then
      let spp := bitsOf v 27 5
      let pps := bitsOf v 20 7
      1 ≤ spp && spp ≤ 16 && 1 ≤ pps && pps ≤ 64
        && periodOk (MA_GRP_SAMP.period e g) (PTU_GRP_TIM.spp e g) (PTU_GRP_TIM.pps e g)
    else if off % 0x10 = 4 then PTU_GRP_SHED.shed_thr e g < PTU_GRP_SHED.add_thr e g
    else true
  else if 0x3800 ≤ off ∧ off < 0x3900 then
    let f := (off - 0x3800) / 0x40
    if off % 0x40 = 0x04 then FC_VOLT.uv_thr e f < FC_VOLT.warn_thr e f
    else if off % 0x40 = 0x20 then FC_SOA_T.soa_restart e f < FC_SOA_T.soa_trip e f
    else true
  else if 0x3C00 ≤ off ∧ off < 0x4200 then
    let n := (off - 0x3C00) / 0x40
    let o := (off - 0x3C00) % 0x40
    if o = 0x08 then
      12 ≤ bitsOf v 16 6 && bitsOf v 16 6 ≤ 32 && tripCode (BC_LIMIT.ilim e n) (BC_LIMIT.mult e n) ≤ 1023
    else if 0x14 ≤ o ∧ o ≤ 0x24 then e.branchRatesOk n
    else if o = 0x28 then BC_TH_T.tj_restart e n < BC_TH_T.tj_trip e n
    else true
  else if 0x4400 ≤ off ∧ off < 0x4500 ∧ off % 0x40 = 0x14 then
    BSM_STR_VLIM.empty_v e ((off - 0x4400) / 0x40) < BSM_STR_VLIM.full_v e ((off - 0x4400) / 0x40)
  else if 0x4880 ≤ off ∧ off < 0x4A80 ∧ off % 0x20 = 0x10 then e.railRegsOk (fun _ _ => true) ((off - 0x4880) / 0x20)
  else true

/-- The fields of a register taken from a word, each where it may be (R8, R441, R445). -/
def takeFields (r : RegSpec) (off v : Nat) (stopped : Bool) : List Field → Dev → Dev
  | [], d => d
  | f :: fs, d =>
    let free := match f.access with
      | .rw => true
      | .rws => stopped
      | .ro => false
    if free && f.ok v && d.fieldAdmits off f v then takeFields r off v stopped fs (d.setField off f.lo f.width (f.of v))
    else takeFields r off v stopped fs d

/-- The group that reads a register at each sample (R442): Loop Engine setup, model bands, fault limits, shedding, soft stop
and discharge. -/
def sampledGroup (off : Nat) : Option Nat :=
  if 0x2000 ≤ off ∧ off < 0x2200 then some ((off - 0x2000) / 0x20)
  else if 0x2400 ≤ off ∧ off < 0x2600 then some ((off - 0x2400) / 0x20)
  else if 0x2600 ≤ off ∧ off < 0x2640 then some ((off - 0x2600) / 4)
  else if 0x3000 ≤ off ∧ off < 0x3100 ∧ off % 0x10 ≠ 0 then some ((off - 0x3000) / 0x10)
  else none

/-! ### What a new value does at once -/

/-- MA_CH_CFG of converter `n` has been written: a converter that stops samples no more, and the pre-bias history of its
group begins afresh (R123); one that starts, or whose grid has changed, has no instant yet (R61, R65). -/
def Dev.converterWritten (d old : Dev) (n : Nat) : Dev :=
  let d1 := if MA_CH_CFG.en d n = 0 then (d.modSar n (fun x => { x with started := false })).forgetSamples old n else d
  if (MA_CH_CFG.en d n = 1 ∧ MA_CH_CFG.en old n = 0) ∨ d.converterGrid n ≠ old.converterGrid n then
    d1.modSar n (fun x => { x with instant := none })
  else d1

/-- A write has lowered the capacity of a budget: BUDGET_OVERDRAWN where it stands below the held amount (R306). -/
def Dev.capacityWritten (d old : Dev) (b : Nat) : Dev := if d.capacity b < old.capacity b then d.raiseOverdrawn b else d

/-- The codes of a regulator have been written: they are no longer those of a Standard COEFF_LOAD (R166, log entry 105). -/
def Dev.dropDesign (d : Dev) (g i : Nat) : Dev :=
  d.modGroup g (fun x => { x with rate := { x.rate with
    designs := (indices 4).map (fun j => if j = i then none else x.rate.designs.getD j none) } })

/-- A register has been written: the effects that do not wait. `old` is the device before the write. -/
def Dev.wrote (d old : Dev) (off : Nat) : Dev :=
  if 0x0800 ≤ off ∧ off < 0x08C0 then d.converterWritten old ((off - 0x0800) / 4)
  else if off = 0x0424 then { d with ka := { d.ka with x32cl := TB_CAL_TRIM.x32_cl d } }
  else if 0x1000 ≤ off ∧ off < 0x1200 then
    let n := (off - 0x1000) / 4
    if FTA_CP_CFG.en d n = 1 ∧ FTA_CP_CFG.en old n = 0 then d.cpOn n
    else if FTA_CP_CFG.en d n = 0 ∧ FTA_CP_CFG.en old n = 1 then d.cpOff n
    else d
  else if 0x1800 ≤ off ∧ off < 0x1CC0 then d.rowChanged ((off - 0x1800) / 8)
  else if 0x1D00 ≤ off ∧ off < 0x1D60 then
    let k := (off - 0x1D00) / 4
    d.inputMoved k (old.inputAsserted k)
  else if 0x2000 ≤ off ∧ off < 0x2200 then d.refreshLimits ((off - 0x2000) / 0x20)
  else if 0x2400 ≤ off ∧ off < 0x2600 then d.refreshLimits ((off - 0x2400) / 0x20)
  else if 0x2800 ≤ off ∧ off < 0x3000 then d.dropDesign ((off - 0x2800) / 0x80) ((off - 0x2800) % 0x80 / 0x20)
  else if 0x3004 ≤ off ∧ off < 0x3100 ∧ off % 0x10 = 4 then
    let g := (off - 0x3000) / 0x10
    d.shedWritten g (PTU_GRP_SHED.shed_thr old g)
  else if 0x3800 ≤ off ∧ off < 0x3900 then d.feedWarn ((off - 0x3800) / 0x40)
  else if 0x3C00 ≤ off ∧ off < 0x4200 ∧ off % 0x40 = 0x08 then
    let n := (off - 0x3C00) / 0x40
    d.setThreshold (96 + n) (tripCode (BC_LIMIT.ilim d n) (BC_LIMIT.mult d n))
  else if 0x3C00 ≤ off ∧ off < 0x4200 ∧ off % 0x40 = 0x0C then
    let n := (off - 0x3C00) / 0x40
    if BC_RAMP.ramp_rate d n = BC_RAMP.ramp_rate old n then d else d.branchRateWritten n (BC_RAMP.ramp_rate old n)
  else if 0x4400 ≤ off ∧ off < 0x4500 ∧ off % 0x40 = 0 then
    let s := (off - 0x4400) / 0x40
    (d.refreshAux (BSM_STR_CFG.aux_grp old s)).refreshAux (BSM_STR_CFG.aux_grp d s)
  else if 0x4C00 ≤ off ∧ off < 0x4C40 then
    let b := (off - 0x4C00) / 0x10
    let on := PB_CFG.en d b == 1 && PB_CFG.en old b == 0
    (d.pbPeriods b (on || PB_CFG.poll_ms d b != PB_CFG.poll_ms old b)
      (on || PB_CFG.tele_ms d b != PB_CFG.tele_ms old b)).pbServe b
  else if 0x4C40 ≤ off ∧ off < 0x4C60 then
    let a := (off - 0x4C40) / 0x10
    if AV_CFG.en d a = 1 ∧ AV_CFG.en old a = 0 then (d.avSync a).avServe a else d
  else if off = 0x5000 then (d.capacityWritten old budSurge).owe .office
  else if off = 0x5004 then
    (((d.capacityWritten old budGate).capacityWritten old budCore).capacityWritten old budMram).owe .office
  else if off = 0x5800 then d.judgeFill
  else d

/-- A write of a Rule Book register (R441, R442): its fields are judged and taken; a register its group reads at each
sample takes them at the next boundary. -/
def Dev.writeBook (d : Dev) (r : RegSpec) (off v : Nat) : Dev :=
  let waiting := match sampledGroup off with
    | some g => if (d.group g).state.stopped then none else some g
    | none => none
  let base := match waiting with
    | some g => d.setReg off (d.waitingWord g off)
    | none => d
  let e := takeFields r off v (d.ownerStopped r off) r.fields base
  if !e.registerAdmits off v then d
  else match waiting with
    | some g => d.modGroup g (fun x => { x with pend := x.pend ++ [.write off (e.reg off)] })
    | none => (e.storedReg off).wrote d off

/-! ### Registers outside the Rule Book -/

/-- SYS_BLKRST (Table 16-9): the resource a code names, where the code is valid and the resource is stopped. -/
def Dev.blockOf (d : Dev) (blk i : Nat) : Option Res :=
  if blk = 1 ∧ i < 16 then if (d.group i).state.stopped then some (.group i) else none
  else if blk = 2 ∧ i < 4 then if (d.feed i).state.stopped then some (.feed i) else none
  else if blk = 3 ∧ i < 24 then if (d.branch i).state.stopped then some (.branch i) else none
  else if blk = 4 ∧ i < 4 then if (d.str i).state.stopped then some (.string i) else none
  else if blk = 5 ∧ i = 0 then if d.tt.state == .down then some .timetable else none
  else none

/-- A write of SYS_BLKRST (R419, Table 16-9): a code other than 0 requests a block reset, which is done within the
command, so that the field reads 0 again. -/
def Dev.writeBlkrst (d : Dev) (v : Nat) : Dev :=
  let blk := bitsOf v 0 8
  let i := bitsOf v 8 8
  let d1 := { d with core := { d.core with blkIndex := i } }
  if blk = 0 then d1
  else match d1.blockOf blk i with
    | some r => { d1 with core := { d1.core with blkRefused := false } }.owe (.blockReset r)
    | none => { d1 with core := { d1.core with blkRefused := true } }

/-- A write of an HQI register (Tables 14-21 to 14-28). -/
def Dev.writeHqi (d : Dev) (off : Nat) (v : Word) : Dev :=
  let n := v.toNat
  if off = 0x0100 then { d with hqi := { d.hqi with expertEn := bitOf n 31, imod := bitsOf n 16 8 } }
  else if 0x0140 ≤ off ∧ off < 0x01F0 then
    let r := (off - 0x0140) / 0x10
    if off % 0x10 = 0 then if (d.ring r).en then d else d.modRing r (fun x => { x with baseLo := n / 2 ^ 12 })
    else if off % 0x10 = 4 then if (d.ring r).en then d else d.modRing r (fun x => { x with baseHi := n })
    else if off % 0x10 = 8 then (d.writeRingCfg r v).postOverflow
    else d
  else if 0x0200 ≤ off ∧ off < 0x0280 then
    { d with hqi := { d.hqi with evtVec := fileMod d.hqi.evtVec ((off - 0x0200) / 4) (fun _ => v &&& 0x3FFFFFFF) } }
  else d

/-- A write of a time base register: each acts whatever expert_en holds (R440). -/
def Dev.writeTime (d : Dev) (off v : Nat) : Dev :=
  if off = 0x0424 then
    let d0 := { d with core := { d.core with autoEn := bitOf v 15 } }
    let d1 := if d.core.autoEn then d0 else d0.beginWork 7
    match regAt off with
    | some r => d1.writeBook r off v
    | none => d1
  else if off = 0x0428 then
    { d with ka := { d.ka with winEn := bitsOf v 8 4, winPol := bitsOf v 4 4, busEn := bitOf v 3,
                               alarmEn := bitOf v 2, chgEn := bitOf v 1 } }
  else if off = 0x042C then { d with ka := { d.ka with alarmS := v } }
  else d

/-- A write of the MSI-X table (log entry 8): a vector that is unmasked sends its pending message (R375). -/
def Dev.writeMsix (d : Dev) (off : Nat) (v : Word) : Dev :=
  let i := (off - 0x8000) / 16
  let w := (off - 0x8000) % 16 / 4
  let change := d.modVec i
  if w = 0 then change (fun x => { x with addrLo := v &&& 0xFFFFFFFC })
  else if w = 1 then change (fun x => { x with addrHi := v })
  else if w = 2 then change (fun x => { x with data := v })
  else
    let mask := bitOf v.toNat 0
    (change (fun x => { x with masked := mask })).sendPending i

/-- A write of IL_FE_CODE: a 1 in `valid` clears it and rearms the capture (R321). -/
def Dev.rearm (d : Dev) (v : Nat) : Dev :=
  if bitOf v 31 then { d with il := { d.il with capture := { d.il.capture with valid := false } } } else d

/-- A write of IL_RX (R312, Table 12-21): entries marked fixed, and any other class or action, leave it unchanged. -/
def Dev.writeReaction (d : Dev) (off v : Nat) : Dev :=
  let cls := bitsOf v 22 2
  let act := bitsOf v 16 4
  if rxFixed ((off - 0x5500) / 4) || cls == 0 || !(act == 0 || act == 1 || act == 3) then d
  else d.setReg off (place 22 2 cls + place 16 4 act)

/-- Change telemetry stream `i`. -/
def Dev.modStream (d : Dev) (i : Nat) (f : Stream → Stream) : Dev :=
  { d with bge := { d.bge with streams := fileMod d.bge.streams i f } }

/-- Telemetry stream `i`. -/
def Dev.stream (d : Dev) (i : Nat) : Stream := fileGet d.bge.streams i default

/-- A stream's first frame follows one period from now (R447). -/
def Dev.streamFrom (d : Dev) (x : Stream) : Stream := { x with due := d.now + x.period * ticksPerUs }

/-- A write of a telemetry stream's registers (Tables 18-10 and 18-11): `words`, `period` and `index` while en is 0,
and en, which stays 0 while words or period is 0. -/
def Dev.writeStream (d : Dev) (off v : Nat) : Dev :=
  if off < 0x6060 then
    let i := (off - 0x6040) / 4
    let x := d.stream i
    let w := bitsOf v 20 6
    let p := bitsOf v 0 20
    let x1 := if !x.en && 1 ≤ w && w ≤ 56 then { x with words := w } else x
    let x2 := if !x.en && 10 ≤ p && p ≤ 1000000 then { x1 with period := p } else x1
    let on := bitOf v 31 && x2.words != 0 && x2.period != 0
    if on && !x.en then (d.modStream i (fun _ => d.streamFrom { x2 with en := true })).beginWork (8 + i)
    else d.modStream i (fun _ => { x2 with en := on })
  else
    let i := (off - 0x6400) / 0x100
    let j := (off - 0x6400) % 0x100 / 4
    let w := bitsOf v 0 18
    if (d.stream i).en || w < 0x00400 || 56 ≤ j then d
    else d.modStream i (fun x => { x with list := ((x.list ++ List.replicate (56 - x.list.length) 0).set j w) })

/-- A register of BAR0 that holds a field the host may write, and that expert_en gates (R440). -/
def gated (off : Nat) : Bool :=
  (match regAt off with
    | some r => r.fields.any Field.settable
    | none => false)
  || (0x5500 ≤ off && off < 0x5700) || (0x6040 ≤ off && off < 0x6060)
  || (0x6400 ≤ off && off < 0x6C00 && (off - 0x6400) % 0x100 < 0xE0)

/-- A gated write that expert_en admits. -/
def Dev.writeGated (d : Dev) (off v : Nat) : Dev :=
  if 0x5500 ≤ off ∧ off < 0x5700 then d.writeReaction off v
  else if 0x6040 ≤ off ∧ off < 0x6C00 then d.writeStream off v
  else
    let d0 := if 0x4400 ≤ off ∧ off < 0x4500 ∧ off % 0x40 = 0x24 then
        d.modStr ((off - 0x4400) / 0x40) (fun x => { x with ofs := bitsOf v 8 8 })
      else d
    match regAt off with
    | some r => d0.writeBook r off v
    | none => d0

/-- A 32-bit write at BAR0 offset `off` (R362, R363, R439 to R442): a misaligned one is discarded and counted; a
gated one without expert_en likewise; an unoccupied offset and a register without a writable field ignore it. -/
def Dev.writeBar0 (d : Dev) (off : Nat) (v : Word) : Dev :=
  if !d.coreRuns then d
  else if off % 4 ≠ 0 then d.badAccess
  else if off = 0x0010 then d.writeBlkrst v.toNat
  else if 0x0100 ≤ off ∧ off < 0x0400 then d.writeHqi off v
  else if 0x0400 ≤ off ∧ off < 0x0800 then d.writeTime off v.toNat
  else if off = 0x5410 then d.rearm v.toNat
  else if 0x8000 ≤ off ∧ off < 0x8200 then d.writeMsix off v
  else if gated off then if d.hqi.expertEn then d.writeGated off v.toNat else d.badAccess
  else d

/-! ### Accesses of other widths (R362, R363, R366) -/

/-- The ring whose doorbell lies at a BAR2 offset (Table 14-3). -/
def doorbellRing (off : Nat) : Option Nat := (indices 11).find? (fun r => doorbellOffset r == off)

/-- A write of BAR0 or BAR2 of any width (R362, R363): an aligned 32-bit one reaches its register or doorbell, and an
aligned 64-bit one the MSI-X table, whose PBA takes no write (PRESUMED, log entry 8). Any other, and every write to the
State Mirror, is discarded and counted. -/
def Dev.writeAccess (d : Dev) (bar2 : Bool) (off : Nat) (bytes : List Byte) : Dev :=
  let n := bytes.length
  let v := BitVec.ofNat 32 (leAt bytes 0 4)
  if bar2 then
    if 0x01000 ≤ off ∨ off % 4 ≠ 0 ∨ n ≠ 4 then d.badAccess
    else match doorbellRing off with
      | some r => if 4 ≤ r then (d.doorbell r v).postOverflow else d.doorbell r v
      | none => d
  else if n = 4 then d.writeBar0 off v
  else if n = 8 ∧ off % 8 = 0 ∧ 0x8000 ≤ off ∧ off < 0x8200 then
    (d.writeMsix off v).writeMsix (off + 4) (BitVec.ofNat 32 (leAt bytes 4 4))
  else if n = 8 ∧ off = 0x9000 then d
  else d.badAccess

/-- The 32-bit word at an aligned offset of BAR0, or of BAR2: a doorbell reads the last index written since its ring was
enabled (R366). -/
def Dev.wordAt (d : Dev) (bar2 : Bool) (off : Nat) : Nat :=
  if !bar2 then d.readReg off
  else if off < 0x01000 then ((doorbellRing off).map (fun r => (d.ring r).dbIdx)).getD 0
  else d.mirror off

/-- What a read of one word does beside answering: TR_SEQ_LO and TR_FLUSHED_LO latch their upper half (R444), and a 4-byte
read of a word of the State Mirror moves the latch of R406. -/
def Dev.readWord (d : Dev) (bar2 : Bool) (off : Nat) (whole : Bool) : Nat × Dev :=
  if bar2 ∧ 0x01000 ≤ off ∧ whole = true then d.mirrorRead off
  else
    (d.wordAt bar2 off,
     if bar2 then d
     else if off = 0x5808 then { d with tr := { d.tr with latchSeq := d.tr.next / 2 ^ 32 } }
     else if off = 0x5810 then { d with tr := { d.tr with latchFl := d.tr.flushed / 2 ^ 32 } }
     else d)

/-- A read of `n` bytes (R363, R406): the addressed bytes of the word that contains them, or both words of an aligned 64-bit
read of the State Mirror, the MSI-X table or the PBA. For any other read no result is stated: a free value (log entry
6). -/
def Dev.readAccess (d : Dev) (bar2 : Bool) (off n : Nat) : Nat × Dev :=
  let a := off / 4 * 4
  if off % 4 + n ≤ 4 then
    let r := d.readWord bar2 a (n == 4)
    (r.1 / 2 ^ (8 * (off % 4)) % 2 ^ (8 * n), r.2)
  else if n = 8 ∧ off % 8 = 0 ∧ (if bar2 then decide (0x01000 ≤ off) else decide (0x8000 ≤ off)) = true then
    (d.wordAt bar2 off + d.wordAt bar2 (off + 4) * 2 ^ 32, d)
  else d.free

/-- MALFORMED_ACCESS: an access of any width and alignment, those that R363 discards among them. -/
def malformedAccess (access : HostAccess) (d : Dev) : Dev :=
  if !d.coreRuns then d
  else match access with
    | .write bar2 off bytes => d.writeAccess bar2 off.toNat bytes
    | .read bar2 off more =>
      let r := d.readAccess bar2 off.toNat (more.val + 1)
      r.2.emit (.readData r.1)

/-! ### The rows -/

/-- SYS_BLKRST_WRITE (R419): code `blk` for resource `index`. -/
def sysBlkrstWrite (blk index : BitVec 8) (d : Dev) : Dev :=
  d.writeBar0 0x0010 (BitVec.ofNat 32 (blk.toNat + 256 * index.toNat))

/-- IL_FE_CODE_REARM (R321): 1 written to IL_FE_CODE.valid. -/
def ilFeCodeRearm (d : Dev) : Dev := d.writeBar0 0x5410 0x80000000

/-- FTA_CP_ENABLE (R81): FTA_CP_CFG of channel `n` written with en 1 and the other bits given. -/
def ftaCpEnable (n : Fin 128) (value : Word) (d : Dev) : Dev := d.writeBar0 (0x1000 + 4 * n.val) (value ||| 0x80000000)

/-- FTA_CP_DISABLE (R81): FTA_CP_CFG of channel `n` written with en 0 and the other bits given. -/
def ftaCpDisable (n : Fin 128) (value : Word) (d : Dev) : Dev := d.writeBar0 (0x1000 + 4 * n.val) (value &&& 0x7FFFFFFF)

/-- BAR0_WRITE (R440): any 32-bit write of BAR0. -/
def bar0Write (off : BitVec 16) (value : Word) (d : Dev) : Dev := d.writeBar0 off.toNat value

end Sys2Proof.Machine
end

