-- ==== Sys2Proof/Machine/Book.lean ====
section
/-! DEFINITION. The Rule Book: its two copies, RULEBOOK_COMMIT, selection and load at a start, repair, and the fall-back
values of the fuses (spec/16_state_resets_persistence.md R409 to R414, spec/17_fuse_bank_lifecycle.md R422, R423). -/
namespace Sys2Proof.Machine

/-! ### Writing a copy -/

/-- MRAM writes of a copy: its eight pages, and the page of the generation counter (Table 16-4). -/
def Background.countCopy (b : Background) (k : Nat) : Background :=
  ((indices 8).foldl (fun b p => b.countWrite (8 * k + p)) b).countWrite 0xE0

/-- Change the Rule Book. -/
def Dev.modBook (d : Dev) (f : RuleBook → RuleBook) : Dev := { d with book := f d.book }

/-! ### RULEBOOK_COMMIT (R411, R412) -/

/-- The staged RULEBOOK_COMMIT that has asked for leave. -/
def Dev.committing (d : Dev) : Option Nat :=
  (d.hqi.staged.find? (fun c => c.op == 0x03 && c.begun)).map (·.fetch)

/-- RULEBOOK_COMMIT: its generation is checked before leave is asked. Resumed, it takes over the request its closed
command left waiting (R387). -/
def specRulebookCommit : OpSpec where
  code := 0x03
  cls := clsDevice
  count := 1
  stdOk := true
  expOk := false
  total := fun _ _ => 2
  params := fun _ _ => true
  begin := fun c d =>
    let want := c.desc.num 20 4
    let left := d.slotBusy slotCommit && (d.slot slotCommit).tagged && d.committing == some c.fetch
    if c.resumed && left then d
    else if (want ≠ 0xFFFFFFFF ∧ want ≠ d.bookGeneration) ∨ d.slotBusy slotCommit = true then
      d.finish c.fetch stRejected []
    else d.request slotCommit
      { rank := ringRank c.desc.ring.val, mram := 4, span := 100 * ticksPerMs, tagged := true }

/-- Copy `k` is written: its pages count, and its words have fresh check bits (R47, R54). -/
def Dev.writeCopy (d : Dev) (k : Nat) (c : BookCopy) : Dev :=
  let d1 := (d.modBook (fun b => b.put k c)).stored 0x10 k
  { d1 with bge := d1.bge.countCopy k }

/-- The copy a commit writes: the one that is not newer. -/
def Dev.commitInto (d : Dev) : Nat := if d.newerCopy = some 0 then 1 else 0

/-- The second stage of a commit (R411): the image of this moment goes into the copy that is not newer, body and CRC word
first and the header last, and the copy is read back. No step ends between those writes, for each step is whole
(spec/95_what_each_step_holds.md). Where the readback does not match (log entry 150) the copy is not valid, and the
command ends. -/
def Dev.commitBook (d : Dev) (k : Nat) : Dev :=
  let into := d.commitInto
  let gen := (d.bookGeneration + 1) % 2 ^ 32
  let ok := Config.readsBack d.fresh
  let d1 := ({ d with fresh := d.fresh + 1 } : Dev).writeCopy into ⟨ok, gen, d.cfg⟩
  if ok then
    (d1.modBook (fun b =>
      { b with loaded := d.cfg, counter := gen, rewrite := b.rewrite.filter (fun p => p.1 != into) })).commitAll k stDone
      [gen, into]
  else d1.finish k stAborted []

/-! ### Repair (R413) -/

/-- Ask MRAM leave for the first rewrite that waits, at rank 1; an occupied slot delays it as a give-up does. -/
def Dev.askRewrite (d : Dev) : Dev :=
  if d.book.rewrite.isEmpty then d
  else if (d.slot slotCommit).state ≠ .empty then d.modBook (fun b => { b with retryAt := some (d.now + 10 * ticksPerS) })
  else (d.modBook (fun b => { b with retryAt := none })).request slotCommit
    { rank := 1, mram := 4, span := 100 * ticksPerMs }

/-- A copy is to be rewritten. -/
def Dev.oweRewrite (d : Dev) (k word : Nat) : Dev :=
  if d.book.rewrite.any (fun p => p.1 == k) then d
  else
    let d1 := d.modBook (fun b => { b with rewrite := b.rewrite ++ [(k, word)] })
    if d.book.rewrite.isEmpty then d1.askRewrite else d1

/-- The first rewrite that waits is done: from the other copy with its generation (1), or from the SRAM image with the
copy's own (2). -/
def Dev.rewriteBook (d : Dev) : Dev :=
  match d.book.rewrite with
  | [] => d
  | (k, word) :: rest =>
    let other := d.book.copy (1 - k)
    let new : BookCopy := if word = 1 then ⟨true, other.gen, other.image⟩ else ⟨true, (d.book.copy k).gen, d.book.loaded⟩
    (((d.writeCopy k new).modBook (fun b => { b with rewrite := rest })).raise 0x018C clsC 175 word 0).askRewrite

/-- Leave is granted on the slot of RULEBOOK_COMMIT: to the command, or to a rewrite, which has no tag. After a link
event has closed the command, no later stage of it commits (R385). -/
def Dev.commitGranted (d : Dev) : Dev :=
  if (d.slot slotCommit).tagged then
    match d.committing with
    | some k => ((d.commit k 1).commitBook k).release slotCommit
    | none => d.release slotCommit
  else (d.release slotCommit).rewriteBook

/-- Leave is given up: the command ends (R309), or the rewrite is tried again 10 s later (R413). -/
def Dev.commitGaveUp (d : Dev) : Dev :=
  match d.committing with
  | some k => d.finish k stTokenTimeout []
  | none =>
    if d.book.rewrite.isEmpty then d
    else d.modBook (fun b => { b with retryAt := some (d.now + 10 * ticksPerS) })

/-- RULEBOOK_REWRITE_RETRY (R413). -/
def rulebookRewriteRetry (d : Dev) : Dev :=
  match d.book.retryAt with
  | some t => if d.coreRuns then (d.until t).askRewrite else d
  | none => d

/-- BGE0 finds a double-bit error in copy `k`: it is valid no longer, and with both valid before it is rewritten from
the SRAM image. -/
def Dev.bookError (d : Dev) (k : Nat) : Dev :=
  let both := d.copyValid 0 && d.copyValid 1
  let d1 := d.modBook (fun b => b.put k { b.copy k with crcOk := false })
  if both then d1.oweRewrite k 2 else d1

/-! ### Load at a start (R413, R414, R423) -/

/-- A fall-back entry of fuse rows 26 to 39 is applied as a write of that one field, with its resource stopped; an
entry that names no whole RB field, or whose value is not allowed, is passed over (R423). -/
def Dev.applyEntry (d : Dev) (e : Nat) : Dev :=
  let off := bitsOf e 48 16
  let lo := bitsOf e 40 8
  let width := bitsOf e 32 8
  let v := putBits (d.reg off) lo width (bitsOf e 0 32)
  if off % 4 ≠ 0 then d
  else if 0x5500 ≤ off ∧ off < 0x5700 then
    if (lo = 22 ∧ width = 2) ∨ (lo = 16 ∧ width = 4) then d.writeReaction off v else d
  else match regAt off with
    | none => d
    | some r =>
      match r.fields.find? (fun f => f.lo == lo && f.width == width && f.settable) with
      | none => d
      | some f =>
        let x := takeFields r off v true [f] d
        if x.registerAdmits off v then x.wrote d off else d

/-- Every RB field at its fall-back value: the vendor defaults, then the fall-back Service Pattern of row 25 and the
entries of rows 26 to 39 (R414, R422, R423). -/
def Dev.fallBack (d : Dev) : Dev :=
  let row25 := d.fuseRow 25
  let d0 := { d with cfg := [] }
  let d1 := if bitOf row25 18 ∧ bitsOf row25 16 2 ≤ 2 then d0.setField 0x0014 0 2 (bitsOf row25 16 2) else d0
  forAll (fun i d => if d.fuseRow (26 + i) = 0 then d else d.applyEntry (d.fuseRow (26 + i))) (indices 14) d1

/-- Step 3 of Table 16-5: the Rule Book is selected and loaded. The X32 load capacitance goes to the keep-alive
domain. -/
def Dev.loadBook (d : Dev) : Dev :=
  let d1 : Dev := match d.newerCopy with
    | some k =>
      let x := d.book.copy k
      { d with cfg := x.image, book := { d.book with loaded := x.image, source := k, rewrite := [], retryAt := none } }
    | none =>
      let x := d.fallBack
      { x with book := { d.book with loaded := x.cfg, source := 2, rewrite := [], retryAt := none } }
  { d1 with ka := { d1.ka with x32cl := TB_CAL_TRIM.x32_cl d1 } }

/-- What a load owes once the START record is in: the rewrite of an invalid copy, or the event that neither was
valid. -/
def Dev.bookAfterStart (d : Dev) : Dev :=
  if d.book.source = 2 then d.raise 0x018C clsC 175 3 0
  else
    let k := 1 - d.book.source
    if d.copyValid k then d else d.oweRewrite k 1

end Sys2Proof.Machine
end

