-- ==== Sys2Proof/Machine/Engines.lean ====
section
/-! DEFINITION. The reference crystals, the calendar, Pace, delay lines, handshake stalls and the four Background
Engines (spec/02_self_timed_core_timebase_background.md R26 to R58; spec/12 Tables 12-4 and 12-5; spec/14 R374;
spec/18 R447). -/
namespace Sys2Proof.Machine

/-! ### Reference crystal (R33, R34) -/

/-- XREF_LOST: XREF has stopped or left its tolerance for 2 µs. -/
def xrefLost (d : Dev) : Dev :=
  let d1 := { d with core := { d.core with xrefGood := false } }
  if d.coreRuns && d.core.xrefOk then
    let still := fun (x : DelayPair) => { x with measuring := false }
    ({ d1 with core := { d1.core with xrefOk := false },
               bge := { d1.bge with lines := d1.bge.lines.map still } }).raise 0x0180 clsB 168 0 0
  else d1

/-- XREF_RESTORED: XREF has been good for 1 ms. -/
def xrefRestored (d : Dev) : Dev :=
  { d with core := { d.core with xrefGood := true, xrefOk := d.core.xrefOk || d.coreRuns } }

/-! ### Calendar (R38 to R44) -/

/-- X32_LOST: X32 has made no edge for 1 ms (R39, R44). Found stopped, it takes a calendar that only its next edge would
have brought into force with it. A further loss before X32_RECOVERED acts where the calendar has become valid, or would,
since. Without the core nothing finds it stopped. -/
def x32Lost (d : Dev) : Dev :=
  let d1 := { d with ka := { d.ka with x32Runs := false } }
  if d.coreRuns && (d.ka.x32Ok || d.ka.valid || d.ka.loading.isSome) then
    { d1 with ka := { d1.ka with x32Ok := false, valid := false, loading := none } }.raise 0x0181 clsC 168 0 0
  else d1

/-- The calendar when X32 is seen to run: edges have come in the second before, and the first of them after a CALENDAR_SET
has brought its value into force (R40, R44; log entry 119). -/
def KeepAlive.caughtUp (k : KeepAlive) : KeepAlive :=
  match k.loading with
  | some x => if x.waited = 0 then k else k.count (min x.waited ticksPerS * 64 / 78125)
  | none => k

/-- X32_RECOVERED: X32 has run for 1 s after a loss. -/
def x32Recovered (d : Dev) : Dev := { d with ka := { d.ka.caughtUp with x32Runs := true, x32Ok := true } }

/-- X32_MEASUREMENT_DONE: BGE1 has counted `count` XREF periods over 32,768 periods of X32 (R43). -/
def x32MeasurementDone (count : BitVec 32) (d : Dev) : Dev :=
  if d.engineRuns 1 && d.core.autoEn && d.core.xrefOk && d.ka.x32Runs then
    let t := clampI (-500) 500 (roundDiv ((count.toNat : Int) - 40000000) 40)
    let d1 := d.untilWork 7
    { d1 with ka := { d1.ka with trim := t } }.workDone 7
  else d

/-- Ticks that pass before the trim adds or drops its next count (R43). -/
def KeepAlive.trimLeft (k : KeepAlive) : Nat :=
  ceilDiv (trimSpan - (if k.trim < 0 then -k.trimRun else k.trimRun)).toNat k.trim.natAbs

/-- CAL_TRIM_STEP: the trim interval has passed, and one subsecond count is added or dropped (R43), in Stabled as
well. -/
def calTrimStep (d : Dev) : Dev := if d.ka.ticks && d.ka.trim != 0 then d.pass d.ka.trimLeft else d

/-- The calendar becomes `k`, and the stored deadlines of feeds and branches are rewritten for it, each with the remainder
it has under the old one (R42). Every rewritten record is a write of MRAM (R54). -/
def Dev.rewriteHolds (d : Dev) (k : KeepAlive) : Dev :=
  let n := (d.feeds.toList.map (·.hold) ++ d.branches.toList.map (·.hold)).countP (·.live)
  let d1 : Dev := { d with ka := k, feeds := d.feeds.map (fun x => { x with hold := d.rewriteHold k x.hold }),
                           branches := d.branches.map (fun x => { x with hold := d.rewriteHold k x.hold }) }
  let d2 := forAll (fun i x => if (d.feed i).hold.live then x.stored 0x12 (96 + i) else x) (indices 4) d1
  let d3 := forAll (fun i x => if (d.branch i).hold.live then x.stored 0x12 (64 + i) else x) (indices 24) d2
  d3.wroteLearnedTimes n

/-- The CALENDAR_SET record (Table 13-3): it carries the time stamp of the new calendar, with its epoch (R344). -/
def Dev.calendarRecord (d : Dev) (old tag : Nat) : Dev :=
  let new := d.ka.coming.calWord
  d.record true [⟨recCalendar, ⟨new, d.now⟩, leBytes old 8 ++ leBytes new 8 ++ leBytes tag 2⟩]

/-- CALENDAR_SET (R39 to R42, Table 13-3): the new value takes effect at the next X32 edge; one that still waits when
Depot is entered waits for the first edge after it (DESIGN CHOICE, log entry 136). -/
def specCalendarSet : OpSpec where
  code := 0x73
  cls := clsDevice
  count := 1
  stdOk := true
  expOk := false
  total := fun _ _ => 1
  inSlw := fun _ => true
  params := fun c _ => c.num 20 8 / 2 ^ 30 ≠ 0x3FFFFFFFF
  begin := fun c d =>
    let w := c.desc.num 20 8
    let old := d.ka.calWord
    let load : CalendarLoad := ⟨w / 2 ^ 30, bitsOf w 15 15, (d.ka.coming.epoch + 1) % 32768, 0⟩
    let d1 := d.rewriteHolds { d.ka with loading := some load }
    let new := d1.ka.coming.calWord
    (d1.calendarRecord old c.desc.tag.toNat).commitAll c.fetch stDone [old % 2 ^ 32, old / 2 ^ 32, new % 2 ^ 32, new / 2 ^ 32]

/-! ### Stalled handshakes (R26, R314) -/

/-- Masters of Table 12-5. -/
def stallMasters : List Nat :=
  [0x00, 0x01, 0x10, 0x11, 0x12, 0x13, 0x14, 0x15, 0x20, 0x21, 0x22, 0x23, 0x30, 0x31, 0x32, 0x33, 0x40, 0x41, 0x42]

/-- CORE_STALL: a handshake of `master` toward the block at BAR0 base `target` has not completed within 2 µs. A
lane retires; a Background Engine stays stopped on its second stall within 1 s, which an injected stall does not count
towards (R337). `reaction` marks a transfer that carries the reaction of the newest open fault with one: the stall is
consequential, joins that fault marked nested, and starts no reaction of its own (R318). -/
def coreStall (master : BitVec 8) (access : Fin 5) (target : BitVec 24) (reaction : Bool) (d : Dev) : Dev :=
  let m := master.toNat
  if !d.coreRuns || !stallMasters.contains m then d
  else
    let lane := decide (0x10 ≤ m) && decide (m ≤ 0x15)
    let x := det 0x40 (if lane then m else 160) m access.val (detAddr 0 target.toNat)
    let d1 := d.reportIn x reaction
    if lane then d1.owe (.laneStall (m - 0x10))
    else if reaction ∧ d.newestFault.isSome = true then d1
    else if 0x20 ≤ m ∧ m ≤ 0x23 ∧ d.isInjected x = false then d1.owe (.engineStall (m - 0x20))
    else d1

/-- What a Background Engine's stall does beside its block reset (Table 12-5). -/
def Dev.engineStalled (d : Dev) (e : Nat) : Dev :=
  let again := d.il.engStalls.any (fun p => p.1 == e && decide (d.now < p.2 + ticksPerS))
  let log := (e, d.now) :: d.il.engStalls.filter (fun p => p.1 != e)
  let d1 := { d with il := { d.il with engStalls := log } }
  if again ∧ bitOf d.bge.stopped e = false then
    ({ d1 with bge := { d1.bge with stopped := putBit d1.bge.stopped e true } }).raise 0x0189 clsC (170 + e) e
      (Config.coding 0x0189 16 % 2 ^ 32)
  else d1

/-! ### Pace (R28 to R31, R164, R167) -/

/-- PACE_WINDOW: a window of 400 ticks ends; `ops` and `ticks` are each lane's completed operations and busy ticks. A
Pace that is no whole number is rounded down, as R29's busy fraction is (DESIGN CHOICE, log entry 124). -/
def paceWindow (ops ticks : Vector (BitVec 16) 6) (d : Dev) : Dev :=
  if !d.coreRuns then d
  else
    let op := fun l => (fileGet ops l 0).toNat
    let bt := fun l => (fileGet ticks l 0).toNat
    let pace := Vector.ofFn (fun (l : Fin 6) =>
      if bt l < 40 then fileGet d.core.pace l 0 else held 0xFFFF (op l * 40 / bt l))
    let busy := Vector.ofFn (fun (l : Fin 6) => held 255 (256 * bt l / 400))
    let ls := d.scheduledLanes
    let sum := fun (f : Nat → Nat) => (ls.map f).foldl (· + ·) 0
    let agg := sum (fun l => fileGet pace l 0)
    let load := sum bt
    let floor := ELE_PACE.pace_floor d
    let low := floor != 0 && decide (agg < floor)
    let c := { d.core with
      pace := pace, busy := busy, aggregate := agg, lowest := some (min agg (d.core.lowest.getD agg)),
      paceLow := d.core.paceLow || low,
      paceAbove := if floor < agg then held 100 (d.core.paceAbove + 1) else 0 }
    let span := 400 * ls.length
    let high := decide (ELE_OVR_CFG.ovr_high d * span < 256 * load)
    let calm := decide (256 * load < ELE_OVR_CFG.ovr_low d * span)
    let s := { d.sup with highSince := sinceWhen d.now d.sup.highSince high,
                          lowSince := sinceWhen d.now d.sup.lowSince calm }
    let d1 := { d with core := c, sup := s }
    if low && !d.core.paceLow then d1.raise 0x011B clsC 22 0 0 else d1

/-- PACE_LOW_CLEAR: the aggregate Pace has stayed above the floor for 100 windows (R31). -/
def paceLowClear (d : Dev) : Dev :=
  if d.coreRuns && d.core.paceLow && decide (100 ≤ d.core.paceAbove) then
    { d with core := { d.core with paceLow := false } }
  else d

/-! ### Delay lines (R36, R37, R66) -/

/-- DELAY_LINE_CAL: the interval of pair `i` ends, and BGE1 starts measuring its twin (R57); none while XREF is lost
(R33). -/
def delayLineCal (i : Fin 112) (d : Dev) : Dev :=
  if d.engineRuns 1 && d.core.xrefOk then
    (d.until (fileGet d.bge.lines i default).work.due).modLine i (fun x => { x with measuring := true, swap := false })
  else d

/-- DELAY_LINE_MEASURED: the twin of pair `i` has `taps` taps in one tick; a PWM output swaps at its next period
start, a sample line has no period and swaps at once. -/
def delayLineMeasured (i : Fin 112) (taps : BitVec 16) (d : Dev) : Dev :=
  if d.engineRuns 1 && (fileGet d.bge.lines i default).measuring then
    let d1 := d.modLine i (fun x =>
      { x with twin := taps.toNat, measuring := false, swap := true, work := d.nextWork 3, stale := false })
    if 48 ≤ i.val then d1.modLine i DelayPair.swapNow else d1
  else d

/-- The number of the PWM output or of the sample line that pair `i` places (R36, R66): the 48 outputs come first. -/
def lineNumber (i : Nat) : Nat := if i < 48 then i else i - 48

/-- CAL_STALE: pair `i` has not been calibrated for four intervals (R37). -/
def calStale (i : Fin 112) (d : Dev) : Dev :=
  let x := fileGet d.bge.lines i default
  if d.coreRuns && !x.stale then
    ((d.until x.work.lateAt).modLine i (fun x => { x with stale := true })).raise 0x0182 clsC 171 (lineNumber i) 0
  else d

/-! ### Scrubbing (R47 to R52, Table 12-4) -/

/-- Table 12-4: whether a memory identifier exists and its words may have an event source. -/
def memSource (mem src : Nat) : Bool :=
  let branch := 64 ≤ src && src < 88
  let feed := 96 ≤ src && src < 100
  let str := 104 ≤ src && src < 108
  if mem = 0x01 ∨ mem = 0x02 then src < 16
  else if mem = 0x03 then 16 ≤ src && src < 22
  else if mem = 0x04 then branch || feed || str || (128 ≤ src && src < 144)
  else if mem = 0x12 then branch || feed
  else if mem = 0x13 then str
  else [0x05, 0x06, 0x10, 0x11, 0x14, 0x15].contains mem && src == 160

/-- The MRAM page of a word of a memory of Table 12-4 (Table 16-4), for the memories in MRAM. -/
def memPage (mem word : Nat) : Option Nat :=
  if mem = 0x10 then some (word / 512)
  else if mem = 0x11 then some (0x10 + word / 512)
  else if mem = 0x12 ∨ mem = 0x13 ∨ mem = 0x14 then some (0xD0 + word / 512)
  else if mem = 0x15 then some (0xE0 + word / 512)
  else none

/-- An event or effect of the injection under observation: its kind and target words match (R337). -/
def Dev.injectionSees (d : Dev) (kind w0 w1 : Nat) : Bool :=
  d.il.watched.any (fun i => i.kind == kind && i.word0 == w0 && i.word1 == w1 && d.observing i)

/-- The injections of a kind and target under observation have been seen. -/
def Dev.sawInjection (d : Dev) (kind w0 w1 : Nat) : Dev :=
  let note := fun (i : Injection) =>
    if i.kind == kind && i.word0 == w0 && i.word1 == w1 && d.observing i then { i with seen := true } else i
  { d with il := { d.il with watched := d.il.watched.map note } }

/-- MEM_CORRECTED, at most 16 in one second, which begins with the first correction after the last such second (R49;
DESIGN CHOICE, log entry 137). -/
def Dev.memCorrected (d : Dev) (mem word : Nat) : Dev :=
  let fresh := decide (d.bge.secStart + ticksPerS ≤ d.now) || d.bge.secCount == 0
  let n := if fresh then 0 else d.bge.secCount
  let b := { d.bge with secStart := if fresh then d.now else d.bge.secStart, secCount := n + 1 }
  if n < 16 then
    let inj := d.injectionSees 0 mem word
    let d1 := { d with bge := b }.raiseInj 0x0184 clsC 170 mem word inj
    d1.sawInjection 0 mem word
  else { d with bge := { b with uncounted := b.uncounted + 1 } }

/-- The third correction of one word within an hour (R50). Those it has counted are forgotten with its report (DESIGN
CHOICE, log entry 138). -/
def Dev.memStuck (d : Dev) (mem word : Nat) : Dev :=
  let hour := 3600 * ticksPerS
  let live := d.bge.fixes.filter (fun f => decide (d.now < f.2.2 + hour))
  let mine := live.filter (fun f => f.1 == mem && f.2.1 == word)
  if 2 ≤ mine.length then
    let rest := live.filter (fun f => !(f.1 == mem && f.2.1 == word))
    let d1 := { d with bge := { d.bge with fixes := rest } }.raise 0x0185 clsB 170 mem word
    match memPage mem word with
    | some p => { d1 with bge := { d1.bge with
        retiring := if d1.bge.retiring.contains p then d1.bge.retiring else d1.bge.retiring ++ [p] } }
    | none => d1
  else { d with bge := { d.bge with fixes := (mem, word, d.now) :: live } }

/-- Bits of a row's shadow, data and check, invert. -/
def FuseRow.flip (x : FuseRow) (m : BitVec 72) : FuseRow :=
  { x with upset := x.upset ^^^ m, shadow := x.shadow ^^^ dataMask m }

/-- Change row `r` of the fuse bank. -/
def Dev.modFuseRow (d : Dev) (r : Nat) (f : FuseRow → FuseRow) : Dev :=
  { d with fuse := { d.fuse with rows := fileMod d.fuse.rows r f } }

/-- BGE0 checks the shadow of row `r` against its check bits (R52): a single inverted bit is corrected, and a shadow
with more of them stays as it is. -/
def checkShadow (r : Nat) (d : Dev) : Dev :=
  let m := (d.fuse.row r).upset
  if m = 0 then d
  else
    let d1 := if popcount 72 m.toNat = 1 then d.modFuseRow r (fun x => x.flip m) else d
    d1.raise 0x0186 clsC 174 r 0

/-- FUSE_SHADOW_CHECK: BGE0 checks every shadow (R52, R57); `upsets` names the bits of shadows that have inverted
since the last check, by row. -/
def fuseShadowCheck (upsets : List (Fin 64 × BitVec 72)) (d : Dev) : Dev :=
  if d.engineRuns 0 then
    let d1 := forAll (fun (u : Fin 64 × BitVec 72) d => d.modFuseRow u.1 (fun x => x.flip u.2)) upsets (d.untilWork 2)
    (forAll checkShadow (indices 64) d1).workDone 2
  else d

/-! ### MRAM wear (R54, R55) -/

/-- WEAR_COMMIT: the wear commit interval has passed. -/
def wearCommit (d : Dev) : Dev :=
  if d.engineRuns 2 then
    let d1 := (d.untilWork 6).commitWear.workDone 6
    { d1 with bge := { d1.bge with sweptAt := fileMod d1.bge.sweptAt 2 (fun _ => d1.now) } }
  else d

/-- PAGE_RETIRE_DONE: the copy of a retired page has ended and the page map switches, or no spare is left (R55). The
copy is a write of the spare page, the switch one of the page map's. -/
def pageRetireDone (page : BitVec 8) (d : Dev) : Dev :=
  let p := page.toNat
  if d.engineRuns 2 && d.bge.retiring.contains p then
    let b : Background := { d.bge with retiring := d.bge.retiring.filter (· != p) }
    if b.spares = 0 then { d with bge := b }.raise 0x0188 clsB 172 0 0
    else
      let spare := 0xE8 + (16 - b.spares)
      let moved := (p, spare) :: b.moved.filter (fun q => q.1 != p)
      { d with bge := { b with spares := b.spares - 1, moved := moved }.countWrite 0xE0 |>.countWrite p }
  else d

/-- The engine of work `w`. -/
def workEngine (w : Nat) : Nat := if w < 3 then 0 else if w < 6 ∨ w = 7 then 1 else if w = 6 then 2 else 3

/-- Work `w` is one that R58 watches now: for the delay lines CAL_STALE takes its place, a converter has to have a free
slot (R64), the X32 measurement runs with auto_en (R43), and a stream has to be enabled. -/
def Dev.workWatched (d : Dev) (w : Nat) : Bool :=
  if w = 3 then false else if w = 4 then !d.updatable.isEmpty else if w = 7 then d.core.autoEn
  else if 8 ≤ w then (d.stream (w - 8)).en else true

/-- When work `w` is late (R58): for the updates of the converters, when the first of them is. -/
def Dev.workLateAt (d : Dev) (w : Nat) : Nat :=
  if w = 4 then (d.updatable.map (fun n => (d.sar n).work.lateAt)).min?.getD 0 else (d.work w).lateAt

/-- How BGE_LATE names work `w`: by its index in Table 18-8 where it has one. -/
def workWord (w : Nat) : Nat := if w < 7 then w else Config.coding 0x0189 w % 2 ^ 32

/-- BGE_LATE: work `w` has not completed within four intervals (R58). -/
def bgeLate (w : Fin 16) (d : Dev) : Dev :=
  if !d.coreRuns || !d.workWatched w || bitOf d.bge.late w then d
  else
    let e := workEngine w
    let d1 := d.until (d.workLateAt w)
    { d1 with bge := { d1.bge with late := putBit d1.bge.late w true } }.raise 0x0189 clsC (170 + e) e (workWord w)

/-! ### BGE_CONFIGURE and the calibration sweep (R53, R57) -/

/-- The works of Table 18-8 whose intervals an engine's BGE_CONFIGURE carries, in order. -/
def engineWorks (e : Nat) : List Nat := if e = 0 then [0, 1, 2] else if e = 1 then [3, 4, 5] else if e = 2 then [6] else []

/-- The range of an interval (Table 18-8). -/
def workRange (w : Nat) : Nat × Nat :=
  if w = 0 then (1, 10000) else if w = 1 then (1, 720) else if w = 2 then (10, 60000)
  else if w = 3 then (100, 10000) else if w = 4 then (1, 1000) else if w = 5 then (10, 10000) else (10, 3600)

/-- The intervals a BGE_CONFIGURE carries that are not all ones, by work. -/
def Desc.intervals (c : Desc) : List (Nat × Nat) :=
  let ws := engineWorks c.idx
  ((indices ws.length).map (fun j => (ws.getD j 0, c.num (24 + 4 * j) 4))).filter (fun p => p.2 != 0xFFFFFFFF)

/-- Ask CORE leave for a calibration sweep. -/
def Dev.askSweep (d : Dev) (rank : Nat) (tagged : Bool) : Dev :=
  d.request slotSweep { rank := rank, core := TO_DECL.sweep d, span := 10 * ticksPerMs, tagged := tagged }

/-- BGE_CONFIGURE (R53, R57). -/
def specBgeConfigure : OpSpec where
  code := 0xA0
  cls := clsEngine
  count := 4
  stdOk := true
  expOk := false
  total := fun c _ => if c.byte 20 = 1 then 2 else 1
  params := fun c _ =>
    if c.byte 20 = 0 then
      c.idx < 3 && c.intervals.all (fun p => (workRange p.1).1 ≤ p.2 && p.2 ≤ (workRange p.1).2)
    else c.byte 20 == 1 && c.idx == 1
  begin := fun c d =>
    if c.desc.byte 20 = 0 then
      (forAll (fun p d => d.setField (BGE_INT.reg p.1) 0 24 p.2) c.desc.intervals d).commitAll c.fetch stDone []
    else if (d.slot slotSweep).state ≠ .empty ∨ d.bge.sweeping = true then
      if c.resumed && d.slotBusy slotSweep && d.bge.sweepCmd.isSome && d.gone d.bge.sweepCmd then
        { d with bge := { d.bge with sweepCmd := some c.fetch } }
      else d.finish c.fetch stRejected []
    else
      { d with bge := { d.bge with sweepCmd := some c.fetch } }.askSweep (ringRank c.desc.ring.val) true
  resume := fun c d =>
    if d.bge.sweeping && d.gone d.bge.sweepCmd then some { d with bge := { d.bge with sweepCmd := some c.fetch } } else none

/-- Leave is granted: the sweep runs, but for the command's that a link event has closed (R385). -/
def Dev.sweepGranted (d : Dev) : Dev :=
  if d.bge.sweepCmd.isSome && d.gone d.bge.sweepCmd then
    { d with bge := { d.bge with sweepCmd := none } }.release slotSweep
  else { d with bge := { d.bge with sweeping := true } }.commitOpt d.bge.sweepCmd 1

/-- Leave is given up: the sweep is not run, and the previous calibration values stay (R53). At a start, what comes
next is the start's own. -/
def Dev.sweepGaveUp (d : Dev) : Dev :=
  { d with bge := { d.bge with sweepCmd := none } }.finishOpt d.bge.sweepCmd stTokenTimeout []

/-- A sweep ends: every converter takes its new offset and gain. -/
def Dev.endSweep (d : Dev) (cal : Vector (BitVec 16 × BitVec 16) 48) : Dev :=
  let put := fun (n : Nat) (d : Dev) =>
    let c := fileGet cal n default
    d.modSar n (fun x => { x with offset := c.1.toInt, gain := c.2.toNat })
  let k := d.bge.sweepCmd
  let d1 := forAll put (indices 48) d
  let b := { d1.bge with sweeping := false, sweepCmd := none, sweptAt := fileMod d1.bge.sweptAt 1 (fun _ => d.now) }
  ({ d1 with bge := b }.release slotSweep).commitAllOpt k stDone []

/-! ### Telemetry (R46, R48, R56, R374, R447, Table 14-10) -/

/-- Stream `i`'s frame read now, its lap still clear. -/
def Dev.frameBody (d : Dev) (i : Nat) (x : Stream) : List Byte :=
  let words := (x.list.take x.words).flatMap (fun w => leBytes (d.mirror (4 * w)) 4)
  leBytes (i % 4 * 2 ^ 10 + x.words) 2 ++ leBytes x.frames 2 ++ leBytes x.drops 4 ++ leBytes d.now 8 ++ fit 224 words
  ++ leBytes d.ka.calWord 8 ++ zeros 8

/-- TELEMETRY_FRAME_DUE: a stream's period ends and BGE3 reads a frame; one whose write has not begun is dropped. -/
def telemetryFrameDue (i : Fin 8) (d : Dev) : Dev :=
  let x := d.stream i
  if d.engineRuns 3 && x.en then
    let d1 := d.until x.due
    let x1 := { x with due := x.due + x.period * ticksPerUs, drops := x.drops + flag x.ready.isSome }
    d1.modStream i (fun _ => { x1 with frames := (x.frames + 1) % 2 ^ 16, ready := some (d1.frameBody i x1) })
  else d

/-- TELEMETRY_WRITE_START: no completion or event write waits, and a frame that has been read is written, or dropped
where its ring is disabled or full; in D3hot nothing is written. -/
def telemetryWriteStart (i : Fin 8) (d : Dev) : Dev :=
  let x := d.stream i
  let r := ringTQ (i.val / 4)
  match x.ready with
  | none => d
  | some body =>
    if !d.engineRuns 3 || d.hqi.d3hot then d
    else if (d.ring r).room then
      let d1 := (d.writeEntry r (leNat (body.take 2)) (body.drop 2)).announce (d.ring r).vec false
      let d2 := (d1.modStream i (fun x => { x with ready := none })).workDone (8 + i)
      { d2 with bge := { d2.bge with sweptAt := fileMod d2.bge.sweptAt 3 (fun _ => d.now) } }
    else d.modStream i (fun x => { x with ready := none, drops := x.drops + 1 })

/-- TELEMETRY_STREAM (R447). -/
def specTelemetryStream : OpSpec where
  code := 0xA1
  cls := clsStream
  count := 8
  stdOk := true
  expOk := false
  total := fun _ _ => 1
  inWithdrawn := true
  inSlw := fun _ => true
  params := fun c _ =>
    let n := c.byte 21
    let p := c.num 24 4
    c.byte 20 ≤ 1 && 1 ≤ n && n ≤ 56 && 10 ≤ p && p ≤ 1000000 && 4 * n ≤ c.length.toNat
      && (indices n).all (fun j =>
        let w := c.bufWord j
        w % 4 == 0 && 0x01000 ≤ w && w ≤ 0xFFFFC)
  begin := fun c d =>
    let n := c.desc.byte 21
    let put := fun (x : Stream) => d.streamFrom
      { x with en := c.desc.byte 20 == 1, words := n, period := c.desc.num 24 4,
               list := (indices n).map (fun j => c.desc.bufWord j / 4) }
    ((d.modStream c.desc.idx put).beginWork (8 + c.desc.idx)).commitAll c.fetch stDone []

end Sys2Proof.Machine
end

