-- ==== Sys2Proof/Machine/Working.lean ====
section
/-! DEFINITION. Single-Line Working, its shedding and its end, the heartbeats, FAULT_RESUME, the scrubbing of BGE0 and fault
injection (spec/12_interlocking.md R313, R324 to R332, R335 to R337; spec/05 R151, R152; spec/02 R47 to R51). -/
namespace Sys2Proof.Machine

/-! ### Entering Single-Line Working (R324 to R327) -/

/-- Change the Interlocking. -/
def Dev.modIl (d : Dev) (f : Interlocking → Interlocking) : Dev := { d with il := f d.il }

/-- A safety-critical group in SOFT_START or RUN changes to the ROM loop at its next sample boundary (R326). -/
def Dev.romChange (d : Dev) (g : Nat) : Dev :=
  let x := d.group g
  let runs := match x.state with
    | .softStart | .run => true
    | _ => false
  let asked := x.pend.any (fun p => match p with
    | .rom _ => true
    | _ => false)
  if d.safetyCrit g && runs && !x.rom && !asked then d.atBoundary g (.rom true) else d

/-- Branches whose turn to be shed is to come, highest number first. -/
def Dev.toShed (d : Dev) : List Nat :=
  (indices 24).reverse.filter (fun n => !bitOf (IL_SLW_BR.br_keep d) n && (d.branch n).state != .off)

/-- Branches are shed: all of them without a gap, else the next; after the last the rails follow (R327). -/
def Dev.shedNow (d : Dev) : Dev :=
  let gap := IL_CFG.shed_gap d
  let now := if gap = 0 then d.toShed else d.toShed.take 1
  let count := fun (il : Interlocking) => { il with shedCount := il.shedCount + now.length }
  let d1 := (forAll (fun n d => d.branchStop n) now d).modIl count
  if d1.toShed.isEmpty then (d1.modIl (fun il => { il with shedAt := none, railsShed := true })).shedRails
  else d1.modIl (fun il => { il with shedAt := some (d.now + gap * ticksPerMs) })

/-- Entry to Single-Line Working: a further cause changes nothing. -/
def Dev.enterSlw (d : Dev) (cause : Nat) : Dev :=
  if d.il.slw then d
  else
    let d1 := d.modIl (fun il =>
      { il with slw := true, slwCause := cause, slwSince := d.now, shedCount := 0, railsShed := false,
                shedAt := some (d.now + IL_CFG.shed_gap d * ticksPerMs) })
    let d2 := d1.raise 0x0170 clsA 161 cause 0
    let d3 := forAll (fun g d => if d.safetyCrit g then d.romChange g else d.groupFault g false) (indices 16) d2
    let d4 := { d3 with sup := { d3.sup with votes := [] }, groups := d3.groups.map (fun x => { x with trim := 0 }) }
    if IL_CFG.shed_gap d = 0 then d4.shedNow else d4

/-- SHED_GAP_END (R327). -/
def shedGapEnd (d : Dev) : Dev :=
  match d.il.shedAt with
  | some t => if d.coreRuns && d.il.slw then (d.until t).shedNow else d
  | none => d

/-! ### Heartbeats (R331, R332, R489) -/

/-- Words of the live configuration that a heartbeat revert takes from the Rule Book for a group: its VREG target and
step, its limit targets (AUX unless its strings give it), lim_slew, and ELE_GRP_DLIM. -/
def Dev.revertGroup (d : Dev) (g : Nat) : Dev :=
  let b := d.book.loaded
  let word := fun (off : Nat) => (off, (b.get off).toNat)
  let chans : List Nat := if ELE_GRP_CFG.aux_src d g = 0 then [0, 1, 2] else [0, 1, 2, 3]
  let targets := chans.flatMap (fun i => [word (targetReg g i), word (targetReg g i + 4)])
  let slew := d.bookField (ELE_GRP_SLEW.reg g) 0 16
  let d1 := (d.setRegs (targets ++ [word (stepReg g), word (ELE_GRP_DLIM.reg g)])).setField (ELE_GRP_SLEW.reg g) 0 16 slew
  let x := d1.group g
  let t := d1.target g 0
  let step := (b.get (stepReg g)).toNat * (if x.state.stopped then 1 else 2 ^ x.rate.doubled)
  let give := fun (c : Channel) =>
    { c with t := t, r := if x.state.stopped then t else c.r, s := if x.state = .softStart then c.s else step }
  let d2 := d1.modGroup g (fun x =>
    if x.rom then { x with ownStep := step } else { x.modChan 0 give with ownStep := step })
  (d2.endTargets g stSuperseded).refreshLimits g

/-- Every group reverts (R331, hb_act revert). -/
def Dev.revertAll (d : Dev) : Dev := forAll (fun g d => d.revertGroup g) (indices 16) d

/-- What the owner of a detection does beside the Interlocking's action, for the two whose policy lies with a heartbeat
(R331, R332): the revert, or the shut-off of a HALT frame. -/
def Dev.heartbeatPolicy (d : Dev) (code : Nat) : Dev :=
  if code = 0x42 ∧ IL_HB.hb_act d = 1 then d.owe .hostRevert
  else if code = 0x43 ∧ IL_HB.sp_act d = 1 then d.owe .halt
  else d

/-- HOST_SILENT: no descriptor has been fetched for hb_timeout. -/
def hostSilent (d : Dev) : Dev :=
  let t := IL_HB.hb_timeout d
  if d.coreRuns && t != 0 && !d.il.hostSilent then
    let d1 := (d.until (d.il.hostBeat + t * ticksPerMs)).modIl (fun il => { il with hostSilent := true })
    (d1.report (det 0x42 163 0x00 accRead (detAddr 0x05 0))).heartbeatPolicy 0x42
  else d

/-- SAFETY_SILENT: no valid HEARTBEAT frame for sp_timeout. -/
def safetySilent (d : Dev) : Dev :=
  let t := IL_HB.sp_timeout d
  if d.coreRuns && t != 0 && !d.il.spSilent then
    let d1 := (d.until (d.il.spBeat + t * ticksPerMs)).modIl (fun il => { il with spSilent := true })
    (d1.report (det 0x43 163 0x01 accWrite (detAddr 0x05 0))).heartbeatPolicy 0x43
  else d

/-! ### FAULT_RESUME (R152, R329) -/

/-- Change the FAULT_RESUME in progress. -/
def Dev.setResuming (d : Dev) (r : Option Resuming) : Dev := { d with sup := { d.sup with resuming := r } }

/-- Nothing with the action SINGLE_LINE or RESTART has arrived in the last second, and no consent is missing. -/
def Dev.mayResume (d : Dev) : Bool :=
  !d.il.spHold && (match d.il.lastHard with
    | some t => decide (t + ticksPerS ≤ d.now)
    | none => true)

/-- A lane enters TESTING. -/
def Dev.testLane (d : Dev) (l : Nat) : Dev := d.modLane l (fun x => { x with state := .testing, back := x.state })

/-- A sweep of BGE0 has read its last word: the SRAM sweep, or the MRAM sweep for a memory in MRAM. -/
def Dev.sweepDone (d : Dev) (mem : Nat) : Dev :=
  ({ d with bge := { d.bge with sweptAt := fileMod d.bge.sweptAt 0 (fun _ => d.now) } }).workDone
    (if mem < 0x10 then 0 else 1)

/-- An injected double error stands in a word of SRAM. -/
def Dev.sramDouble (d : Dev) : Bool := d.doubleIn (fun m _ => !inMram m)

/-- The third stage begins: every group on the ROM loop changes back at its next sample boundary. -/
def Dev.leaveRom (d : Dev) : Dev :=
  forAll (fun g d =>
    let off := fun (p : Pend) => match p with
      | .rom _ => false
      | _ => true
    let d1 := d.modGroup g (fun x => { x with pend := x.pend.filter off })
    if (d1.group g).rom then d1.atBoundary g (.rom false) else d1) (indices 16) d

/-- The second stage ends with the full SRAM sweep (R329): it fails with fewer than two healthy lanes, those it could not
test not counted (R152), or with a double-bit error found, or still standing in a word the sweep has read. -/
def Dev.resumeSwept (d : Dev) (r : Resuming) : Dev :=
  let n := d.healthyLanes.length
  let judged := (d.healthyLanes.filter (fun l => !r.untested.contains l)).length
  let bad := judged < 2 || r.found || d.sramDouble
  if bad then (d.setResuming none).finishOpt r.fetch stAborted [n]
  else
    match r.fetch.bind d.cmd with
    | none => d.setResuming none
    | some c =>
      if c.total = 3 then
        (((d.commit c.fetch 2).keepResults c.fetch [n]).setResuming (some { r with stage := 3, sweeping := false })).leaveRom
      else (d.setResuming none).commitAll c.fetch stDone [n]

/-- A lane runs a sample item, one that is late (R152, R163). -/
def Dev.laneBusy (d : Dev) (l : Nat) : Bool :=
  (indices 16).any (fun g => (d.group g).watch.itemRuns && (d.group g).watch.lastLane == l)

/-- The next lane's turn (R152): the lowest-numbered that is SCHEDULED or SPARE, at an item boundary and with another one to
run items; one that no other could stand in for stays untested. After the last, BGE0's sweep begins; a test that lane
health called for ends there, and one beside the third stage of a FAULT_RESUME leaves that stage alone. -/
def Dev.resumeTurn (d : Dev) (r : Resuming) : List Nat → Dev
  | [] =>
    if r.stage = 3 then d.setResuming (some { r with turn := [] })
    else d.setResuming (if r.fetch.isSome then some { r with turn := [], sweeping := true } else none)
  | l :: ls =>
    if !d.workingLanes.contains l then d.resumeTurn r ls
    else if d.workingLanes.length < 2 then d.resumeTurn { r with untested := r.untested ++ [l] } ls
    else if d.laneBusy l then d.setResuming (some { r with turn := l :: ls })
    else (d.setResuming (some { r with turn := ls })).testLane l

/-- The tests of a FAULT_RESUME go on: a lane has ended its self-test, or the next one may have come to an item
boundary. -/
def Dev.resumeTested (d : Dev) : Dev :=
  match d.sup.resuming with
  | none => d
  | some r =>
    if r.sweeping = true ∨ (indices 6).any (fun l => (d.lane l).state == .testing) = true then d
    else
      let d1 := if r.named.isEmpty then d else d.chooseSpare r.named
      let r1 := { r with named := [] }
      d1.resumeTurn r1 r1.turn

/-- Self-tests begin: the retired lanes of `named` together, with those of `left` that are under test already, then the
others in turn (R152). -/
def Dev.testLanes (d : Dev) (fetch : Option Nat) (stage : Nat) (left named : List Nat) : Dev :=
  let d1 := d.setResuming (some ⟨fetch, stage, left ++ named, indices 6, false, false, []⟩)
  (forAll (fun l d => d.testLane l) named d1).resumeTested

/-- A double-bit error of lane health (Table 12-4): every lane counts as not retired and is self-tested. At a start
the self-tests of R151 run already and take the retired lanes in; else they run in the manner of R152, beside a
FAULT_RESUME where one is in progress (DEDUCED, log entry 126). -/
def Dev.testEveryLane (d : Dev) : Dev :=
  let named := (indices 6).filter (fun l => (d.lane l).state == .retired)
  let free := fun (x : Lane) =>
    if x.state = .retired then { x with health := 0, state := .scheduled, cause := 0 } else { x with health := 0 }
  let d1 := forAll (fun l d => d.modLane l free) (indices 6) d
  if d.core.phase = .testing then forAll (fun l d => d.testLane l) named d1
  else match d.sup.resuming with
    | some r => d1.testLanes r.fetch r.stage r.named named
    | none => d1.testLanes none 2 [] named

/-- FAULT_RESUME. Its first stage checks R329; a second one while one runs, or one before a start has ended, is
refused. The lanes named and retired are tested together first. It takes over the tests that lane health called for. -/
def specFaultResume : OpSpec where
  code := 0xF2
  cls := clsDevice
  count := 1
  stdOk := true
  expOk := false
  total := fun _ d => if d.il.slw then 3 else 2
  inSlw := fun _ => true
  params := fun _ _ => true
  begin := fun c d =>
    if !d.mayResume || (d.sup.resuming.bind (·.fetch)).isSome || d.core.phase != .running then
      d.finish c.fetch stRejected []
    else
      let named := (bitsIn 6 (c.desc.byte 20)).filter (fun l => (d.lane l).state == .retired)
      let left := (d.sup.resuming.map (·.named)).getD []
      let d1 := d.commit c.fetch 1
      { d1 with bge := { d1.bge with stopped := 0 } }.testLanes (some c.fetch) 2 left named
  resume := fun c d => match d.sup.resuming with
    | some r =>
      let e := d.setResuming (some { r with fetch := some c.fetch })
      if r.fetch.isNone || !d.gone r.fetch then none
      else if r.stage = 3 then some ((e.commit c.fetch 2).keepResults c.fetch [d.healthyLanes.length])
      else if c.done = 1 then some e else none
    | none =>
      if c.done = 2 ∧ d.il.slw = false then some (d.commitAll c.fetch stDone [d.healthyLanes.length]) else none

/-- What Single-Line Working asks for between commands: groups that reach SOFT_START change to the ROM loop, and the
third stage of FAULT_RESUME commits when every group has changed back; checking starts again with it. Lanes whose turn
to be tested waits are looked at. -/
def Dev.slwUpkeep (d : Dev) : Dev :=
  match d.sup.resuming with
  | some r =>
    if r.stage = 3 ∧ (indices 16).all (fun g => !(d.group g).rom) = true then
      let ms := (d.now - d.il.slwSince) / ticksPerMs
      let tests := !r.turn.isEmpty || (indices 6).any (fun l => (d.lane l).state == .testing)
      let left := if tests then some { r with fetch := none, stage := 2 } else none
      let d1 := (d.setResuming left).modIl (fun il =>
        { il with slw := false, slwCause := 0, shedAt := none, railsShed := false })
      let d2 := d1.modTt (fun t => { t with shed := 0, shedStep := none, shedGap := none })
      let results := ((r.fetch.bind d.cmd).map (·.results)).getD []
      let anew := fun (x : Group) => { x with watch := { x.watch with lastCheck := d.now, lastModel := d.now } }
      let d3 := { d2 with groups := d2.groups.map anew }
      (d3.commitAllOpt r.fetch stDone results).raise 0x0172 clsC 161 (held 0xFFFFFFFF ms) 0
    else if !r.turn.isEmpty then d.resumeTested else d
  | none => if d.il.slw then forAll (fun g d => d.romChange g) (indices 16) d else d

/-! ### Scrubbing and double-bit errors (R47 to R51, R313, Table 12-4) -/

/-- A command that waits for leave on its own behalf ends: its request is withdrawn (R304). -/
def Dev.withdrawAsk (d : Dev) (c : OpenCmd) : Dev :=
  let drop := fun (i : Nat) (d : Dev) => if d.slotBusy i then d.release i else d
  let mine := some c.fetch
  if c.op = 0x03 ∧ d.committing = mine then drop slotCommit d
  else if (d.tr.clearing.any (fun x => x.fetch == c.fetch && !x.granted)) = true then
    drop slotClear { d with tr := { d.tr with clearing := none } }
  else if d.progWaiting.map (·.fetch) = mine then drop (if d.slotBusy slotSecond then slotSecond else slotFuse) d
  else if d.trip.asking = mine then drop slotMode { d with trip := { d.trip with asking := none } }
  else if d.bge.sweepCmd = mine ∧ d.slotBusy slotSweep = true then
    drop slotSweep { d with bge := { d.bge with sweepCmd := none } }
  else d

/-- What a double-bit error loses, whatever the reaction: a record of the volatile buffer counts as dropped (R346), and a
record of the ring is torn (R51). -/
def Dev.doubleLoss (d : Dev) (mem word : Nat) : Dev :=
  if mem = 0x05 then
    match d.tr.buffer[word / 8]? with
    | some _ =>
      let t := { d.tr with buffer := d.tr.buffer.eraseIdx (word / 8), dropped := d.tr.dropped + 1,
                           dropRun := d.tr.dropRun + 1,
                           dropFirst := if d.tr.dropRun = 0 then d.now else d.tr.dropFirst,
                           dropLast := d.now }
      { d with tr := t }.owe .dropped
    | none => d
  else if mem = 0x11 ∧ word / 8 < ringSlots then { d with tr := { d.tr with ring := ringPut d.tr.ring (word / 8) .torn } }
  else d

/-- What a double-bit error does in its memory beside the Interlocking's action (Table 12-4). -/
def Dev.doubleError (d : Dev) (mem word src : Nat) : Dev :=
  let lost := fun (mx : HoldRecord) (len : Nat) =>
    { mx with live := true, calValid := false, length := len, retries := 0 }
  if mem = 0x03 then
    let l := src - 16
    (match (d.scheduledLanes.filter (· != l)).head? with
      | some j => d.moveItems l j
      | none => d).strike l
  else if mem = 0x06 then
    match d.hqi.staged[word / 8]? with
    | some c => (d.withdrawAsk c).finish c.fetch stAborted []
    | none => d
  else if mem = 0x10 then d.bookError (if word < 4096 then 0 else 1)
  else if mem = 0x12 then
    if src < 96 then
      let n := src - 64
      let len := BC_RETRY.holdoff d n * 10 * ticksPerMs * 2 ^ BC_RETRY.backoff d n
      d.modBranch n (fun x => { x with hold := lost x.hold len })
    else
      let f := src - 96
      let len := FC_RETRY.holdoff d f * 10 * ticksPerMs * 2 ^ FC_RETRY.backoff d f
      d.modFeed f (fun x => { x with hold := lost x.hold len })
  else if mem = 0x13 then d.strResume (src - 104) (d.str (src - 104)).est.prior true
  else if mem = 0x14 then d.testEveryLane
  else if mem = 0x15 then
    let h := d.bge.highest
    let p := word % 256
    let pages := (p, h) :: d.bge.pages.filter (fun q => q.1 != p)
    { d with bge := { d.bge with pages := pages } }
  else d

/-- A sweep of BGE0 ends. The SRAM sweep of a FAULT_RESUME runs at full speed; any other ends with its interval (R57,
R329). -/
def Dev.endScrub (d : Dev) (mem : Nat) : Dev :=
  match d.sup.resuming with
  | some r =>
    if r.sweeping = true ∧ mem < 0x10 then (d.sweepDone mem).resumeSwept r
    else (d.untilWork (if mem < 0x10 then 0 else 1)).sweepDone mem
  | none => (d.untilWork (if mem < 0x10 then 0 else 1)).sweepDone mem

/-- The sweep of a FAULT_RESUME has found a double-bit error (R329). -/
def Dev.foundDouble (d : Dev) (mem : Nat) : Dev :=
  d.setResuming (d.sup.resuming.map (fun r => { r with found := r.found || (r.sweeping && decide (mem < 0x10)) }))

/-- A double-bit error is found in a word by master `by_` (R51, R313, R318): what the word held is lost, the detection goes
to the Interlocking, and the memory's reaction follows unless the detection has joined an open fault. -/
def Dev.foundBad (d : Dev) (mem word source by_ : Nat) (reaction : Bool) : Dev :=
  let e := ((d.unflip mem word).doubleLoss mem word).reportIn (det 0x41 source by_ accRead (detAddr mem word)) reaction
  if e.il.faultId = d.il.faultId then e else e.doubleError mem word source

/-- BGE0 writes a corrected word back (R49, R50); in MRAM that counts as a write of its page (R54). -/
def Dev.corrected (d : Dev) (mem word : Nat) : Dev :=
  let d0 := d.unflip mem word
  let d1 : Dev := match memPage mem word with
    | some p => { d0 with bge := d0.bge.countWrite p }
    | none => d0
  (d1.memCorrected mem word).memStuck mem word

/-- BGE0_SCRUB_WORD: BGE0 reads a word of a memory of Table 12-4, `source` being the event source of its resource, and
finds it as `found` says, or as injected check bits make it; `last` ends a full sweep. With `reader` a foreground read
by that master comes first: it returns a single error corrected, and a double error, on which it fails, is its
detection (R313; its master and access are DEDUCED, log entry 127). `reaction` marks a read of the transfer that
carries the reaction of the newest open fault with one (R318). -/
def bge0ScrubWord (mem : BitVec 8) (word : BitVec 24) (found : Soundness) (source : BitVec 8)
    (reader : Option (BitVec 8)) (reaction last : Bool) (d : Dev) : Dev :=
  let m := mem.toNat
  let w := word.toNat
  let runs := if reader.isSome then d.coreRuns else d.engineRuns 0
  if !runs || !memSource m source.toNat then d
  else
    let state : Nat := match found with
      | .double => 2
      | .single => if d.flipBits m w = 0 then 1 else 2
      | .sound => min 2 (d.flipBits m w)
    let by_ := (reader.map (·.toNat)).getD 0x20
    let d1 :=
      if state = 0 then d
      else if state = 1 then if reader.isSome then d else d.corrected m w
      else
        let e := d.foundBad m w source.toNat by_ reaction
        if reader.isSome then e else e.foundDouble m
    if last && reader.isNone then d1.endScrub m else d1

/-! ### Fault injection (R335 to R337, Table 12-9) -/

/-- INJECT_ARM (R335). -/
def specInjectArm : OpSpec where
  code := 0xF0
  cls := clsDevice
  count := 1
  stdOk := false
  expOk := true
  total := fun _ _ => 1
  params := fun c _ => 1 ≤ c.num 20 4 && c.num 20 4 ≤ 1000
  begin := fun c d =>
    (d.modIl (fun il => { il with armedUntil := some (d.now + c.desc.num 20 4 * ticksPerMs) })).commitAll c.fetch stDone []

/-- INJECT_WINDOW_END: the arm window runs out. -/
def injectWindowEnd (d : Dev) : Dev :=
  match d.il.armedUntil with
  | some t => if d.coreRuns then (d.until t).modIl (fun il => { il with armedUntil := none }) else d
  | none => d

/-- The output of a column stands in its safe state: nothing of it is driven. -/
def Dev.columnSafe (d : Dev) (col : Nat) : Bool :=
  bitOf d.trip.latches col ||
  (if col < 24 then
    match (d.leg col).state with
    | .idle | .parked | .shed => true
    | _ => false
  else if col < 48 then !(d.branch (col - 24)).state.conducts
  else if col < 52 then
    match (d.feed (col - 48)).state with
    | .inrush | .on => false
    | _ => true
  else !(d.str (col - 52)).pc && !(d.str (col - 52)).kd)

/-- An event source that Table 15-8 does not reserve (R401). -/
def sourceUsed (s : Nat) : Bool :=
  decide (s < 24) || (decide (32 ≤ s) && decide (s < 56)) || (decide (64 ≤ s) && decide (s < 92))
  || (decide (96 ≤ s) && decide (s < 100)) || (decide (104 ≤ s) && decide (s < 109))
  || (decide (128 ≤ s) && decide (s < 147)) || (decide (148 ≤ s) && decide (s < 154))
  || (decide (160 ≤ s) && decide (s < 176))

/-- The condition of an injection on its target (Table 12-9). -/
def Dev.injectOk (d : Dev) (kind w0 w1 : Nat) : Bool :=
  if kind < 2 then
    [0x01, 0x02, 0x03, 0x04, 0x05, 0x06, 0x10, 0x11, 0x12, 0x13, 0x14, 0x15].contains w0 && w1 < 2 ^ 24
  else if kind = 2 then w0 < 128 && (bitsIn 56 (d.rowMask w0)).all d.columnSafe
  else if kind = 3 then w0 < 16 && (d.group w0).state == .run && !d.il.slw && 2 ≤ d.workingLanes.length
  else if kind = 4 then w0 < 4
  else (detectionRow w0).isSome && !(List.contains [0x01, 0x02, 0x40, 0x41] w0) && sourceUsed w1

/-- The injection itself. A forced comparator returns to its good side after 1 µs. A synthetic detection is reacted to
as a real one (R337). -/
def Dev.injectNow (d : Dev) (kind w0 w1 : Nat) : Dev :=
  if kind < 2 then d.modIl (fun il => { il with flips := il.flips ++ [⟨w0, w1, kind + 1, d.slotItem w0 w1⟩] })
  else if kind = 2 then
    match (d.cp w0).side with
    | .good => (d.toFault w0).toGood w0
    | _ => d
  else if kind = 3 then d.modIl (fun il => { il with laneCorrupt := some w0 })
  else if kind = 4 then d.report (det 0x40 160 (0x20 + w0) accRead (detAddr 0 (Config.coding 0x40 w0 % 2 ^ 24)))
  else (d.report (det w0 w1 0x00 accWrite 0)).heartbeatPolicy w0

/-- The observation under way is that of the resumed command's closed one (R387). -/
def Dev.injectLeft (d : Dev) (c : OpenCmd) (i : Injection) : Bool :=
  c.resumed && i.kind == c.desc.byte 20 && i.word0 == c.desc.num 24 4 && i.word1 == c.desc.num 28 4
    && d.gone (some i.fetch)

/-- INJECT: it disarms, and completes when its observation ends. -/
def specInject : OpSpec where
  code := 0xF1
  cls := clsDevice
  count := 1
  stdOk := true
  expOk := false
  total := fun _ _ => 1
  params := fun c _ => c.byte 20 ≤ 5
  begin := fun c d =>
    let kind := c.desc.byte 20
    let w0 := c.desc.num 24 4
    let w1 := c.desc.num 28 4
    let d1 := d.modIl (fun il => { il with armedUntil := none })
    if d.il.watched.any (d.injectLeft c) then
      d.modIl (fun il =>
        { il with watched := il.watched.map (fun i => if d.injectLeft c i then { i with fetch := c.fetch } else i) })
    else if d.il.armedUntil.isNone || !d.injectOk kind w0 w1 then d1.finish c.fetch stRejected []
    else
      let i : Injection := ⟨kind, w0, w1, d.now + 10 * ticksPerMs, false, 0, c.desc.tag.toNat, c.fetch⟩
      let d2 := d1.modIl (fun il =>
        { il with watched := il.watched ++ [i], lastKind := kind, injections := held 255 (il.injections + 1) })
      d2.injectNow kind w0 w1

/-- INJECT_OBSERVATION_END: 10 ms after an injection, the oldest of those under observation, its outcome is fixed; a
corruption no check has met is over. -/
def injectObservationEnd (d : Dev) : Dev :=
  match d.il.watched with
  | i :: rest =>
    if d.coreRuns then
      let out := flag i.seen
      let d1 := (d.until i.endAt).modIl (fun il =>
        { il with watched := rest, laneCorrupt := if i.kind = 3 then none else il.laneCorrupt })
      let d2 := d1.recordNow recInjection (leBytes i.kind 1 ++ leBytes out 1 ++ leBytes i.ident 2 ++ leBytes i.word0 4
        ++ leBytes i.word1 4 ++ leBytes i.tag 2)
      let d3 := d2.raise 0x0173 clsC 162 (i.kind * 2 ^ 24 + out * 2 ^ 16 + i.ident) i.word0
      d3.commitAll i.fetch stDone [out, i.ident]
    else d
  | [] => d

end Sys2Proof.Machine
end

