-- ==== Sys2Proof/Machine/Port.lean ====
section
/-! DEFINITION. The safety port (spec/14_host_queue_interface.md R388 to R392, spec/12 R323, R330, R332, spec/16
R406). -/
namespace Sys2Proof.Machine

/-- Response status codes of Table 14-15. -/
def spOk : Nat := 0
def spCrcError : Nat := 1
def spLengthError : Nat := 2
def spUnknown : Nat := 3
def spBadAddress : Nat := 4
def spBadPattern : Nat := 5

/-- Change the safety port. -/
def Dev.modSp (d : Dev) (f : SafetyPort → SafetyPort) : Dev := { d with sp := f d.sp }

/-- A frame of 32 cycles ends: SDO carried the response to the frame before, and the response to this one is
prepared; `e` is the device with what the frame did. -/
def Dev.spFrame (d e : Dev) (status cmd data : Nat) : Dev :=
  (e.modSp (fun s => { s with
    frames := (s.frames + 1) % 256, lastCmd := cmd, lastStatus := status,
    response := spResponse status cmd data })).emit (.spi d.sp.response)

/-- SP_NOP. -/
def spNop (_payload : BitVec 20) (d : Dev) : Dev := if d.coreRuns then d.spFrame d spOk 0x0 0 else d

/-- The word of BAR2 a READ_LO reads, with the latch of a 64-bit item's high word (R406). -/
def Dev.spRead (d : Dev) (a : Nat) : Nat × Dev :=
  if a % 8 = 0 ∧ (d.wide a).isSome then
    (d.mirror a, d.modSp (fun s => { s with wordAt := a + 4, wordHi := d.mirror (a + 4) }))
  else if a = d.sp.wordAt then (d.sp.wordHi, d.modSp (fun s => { s with wordAt := 0 }))
  else (d.mirror a, d)

/-- SP_READ_LO. -/
def spReadLo (payload : BitVec 20) (d : Dev) : Dev :=
  let i := bitsOf payload.toNat 0 18
  if !d.coreRuns then d
  else if i < 0x00400 then d.spFrame d spBadAddress 0x1 0
  else
    let r := d.spRead (4 * i)
    d.spFrame (r.2.modSp (fun s => { s with readLatch := r.1 / 2 ^ 16 % 2 ^ 16 })) spOk 0x1 r.1

/-- SP_READ_HI. -/
def spReadHi (_payload : BitVec 20) (d : Dev) : Dev := if d.coreRuns then d.spFrame d spOk 0x2 d.sp.readLatch else d

/-- SP_HEARTBEAT (R323, R330, R332, R391). -/
def spHeartbeat (payload : BitVec 20) (d : Dev) : Dev :=
  let p := payload.toNat
  if !d.coreRuns then d
  else
    let e := d.modIl (fun il =>
      { il with spBeat := d.now, spSilent := false, spHold := il.spHold && !bitOf p 17,
                sirq := if bitOf p 16 then il.sirq.filter (· != bitsOf p 0 16) else il.sirq })
    d.spFrame e spOk 0x3 (e.il.sirq.headD 0)

/-- SP_HALT (R391): SAFETY_HALT is reported and the Timetable shuts off under R279. -/
def spHalt (payload : BitVec 20) (d : Dev) : Dev :=
  if !d.coreRuns then d
  else if payload ≠ 0x5A5A5 then d.spFrame d spBadPattern 0x4 0
  else d.spFrame ((d.report (det 0x44 160 0x01 accWrite (detAddr 0x05 0))).owe .halt) spOk 0x4 0

/-- SP_ENTER_SINGLE_LINE (R330, R391). -/
def spEnterSingleLine (payload : BitVec 20) (d : Dev) : Dev :=
  if !d.coreRuns then d
  else if payload ≠ 0xA5A5A then d.spFrame d spBadPattern 0x5 0
  else
    let e := (d.modIl (fun il => { il with spHold := true })).report (det 0x45 161 0x01 accWrite (detAddr 0x05 0))
    d.spFrame e spOk 0x5 0

/-- The data of a STATUS response (Table 14-16). -/
def Dev.spStatusWord (d : Dev) : Nat :=
  let n := d.il.sirq.length
  place 15 1 (flag d.il.slw) + place 14 1 (flag d.il.spHold) + place 13 1 (flag d.il.hostSilent)
    + place 12 1 (flag (n != 0)) + held 255 n

/-- SP_STATUS. -/
def spStatus (_payload : BitVec 20) (d : Dev) : Dev :=
  if d.coreRuns then d.spFrame d spOk 0x6 d.spStatusWord else d

/-- SP_BAD_FRAME: a frame of another length, with a failing CRC, or with a command 0x7 to 0xF, is discarded and
counted (R388, R390, R392); `cmd` is its command field as received. -/
def spBadFrame (kind : BadFrame) (cmd : BitVec 4) (d : Dev) : Dev :=
  let fits := match kind with
    | .unknown => decide (0x7 ≤ cmd.toNat)
    | _ => true
  if !d.coreRuns || !fits then d
  else
    let status := match kind with
      | .length => spLengthError
      | .crc => spCrcError
      | .unknown => spUnknown
    let count := fun (s : SafetyPort) =>
      { s with discarded := (s.discarded + 1) % 2 ^ 32,
               crcErr := if status = spCrcError then held 255 (s.crcErr + 1) else s.crcErr,
               lenErr := if status = spLengthError then held 255 (s.lenErr + 1) else s.lenErr }
    let e := d.modSp count
    let e1 := e.raiseLimited 0x017F clsC 167 status e.sp.discarded
    d.spFrame e1 status cmd.toNat 0

end Sys2Proof.Machine
end

