-- ==== Sys2Proof/Machine/Start.lean ====
section
/-! DEFINITION. Starts of the core domain, what each reset kind keeps, the full restart and block resets
(spec/16_state_resets_persistence.md R416 to R419, Tables 16-5, 16-7 and 16-8; spec/12 R333, R334; spec/02 R34, R45;
spec/05 R151; spec/19 R454). -/
namespace Sys2Proof.Machine

/-! ### What a start from off keeps (R418, Table 16-7) -/

/-- A lane as lane health in MRAM leaves it for the self-test of a start (R151). -/
def laneAtStart (health : Nat) : Lane :=
  if health = 0 then laneReset 0 else ⟨.retired, .scheduled, health, [], 0, health⟩

/-- Inverted check bits in words of MRAM, which every reset kind leaves as they are (R415). -/
def Interlocking.mramFlips (x : Interlocking) : List Flip := x.flips.filter (fun f => inMram f.mem)

/-- The Interlocking after a full restart: the capture, SIRQ_N, the fault identifiers and the time of the last
detection that R329 asks about outlast it, and so does the observation of an injection, which ends with its record
(R321, R323, R337; log entry 13). -/
def Interlocking.acrossRestart (x : Interlocking) (now : Nat) : Interlocking :=
  { ilReset with capture := x.capture, sirq := x.sirq, faultId := x.faultId, lastHard := x.lastHard,
                 hostBeat := now, spBeat := now, watched := x.watched, flips := x.mramFlips }

/-- The Interlocking after any other start: only what stands in MRAM is left (R415). -/
def Interlocking.fromOff (x : Interlocking) : Interlocking := { ilReset with flips := x.mramFlips }

/-- The HQI after a full restart: as a block reset of the HQI leaves it, the configuration space kept (Table 16-7). -/
def Hqi.acrossRestart (h : Hqi) : Hqi := h.ringDefaults.ctrlDefaults

/-- Everything but what Table 16-7 keeps returns to its reset value: outputs safe, no leave held, no configuration
loaded. `cont` is a full restart, in which uptime continues. -/
def Dev.fromOff (d : Dev) (cont : Bool) : Dev :=
  let now := if cont then d.now else 0
  let x := d.loseHeld
  let core := { coreReset with phase := d.core.phase, uptime := now, startKind := d.core.startKind,
                               xrefGood := d.core.xrefGood, xrefOk := d.core.xrefOk, warnArmed := d.core.warnArmed,
                               supplies := d.core.supplies, rstIn := d.core.rstIn }
  let lock := if cont then d.tr.lockEnd else d.tr.lockEnd - d.now
  let tr := { trReset with next := d.tr.reserve, reserve := d.tr.reserve, bounds := d.tr.bounds,
                           boundAt := d.tr.boundAt, ring := d.tr.ring, fails := d.tr.fails, lockEnd := lock,
                           log := d.tr.log }
  let unread := fun (h : HoldRecord) => { h with endUp := 0 }
  let bge := { bgeReset with pages := d.bge.worn, worn := d.bge.worn, wearTold := d.bge.wearTold,
                             spares := d.bge.spares, moved := d.bge.moved, retiring := d.bge.retiring,
                             secStart := now, lines := if cont then d.bge.lines else bgeReset.lines }
  { Dev.reset with
    core := core, ka := d.ka, tr := tr, bge := bge
    book := { d.book with loaded := [], rewrite := [], retryAt := none }
    hqi := if cont then x.hqi.acrossRestart else hqiReset
    ledger := if cont then (d.closeOpen stAborted).ledger else []
    il := if cont then d.il.acrossRestart now else d.il.fromOff
    fuse := d.fuse.orphan
    sup := { supReset with lanes := d.sup.lanes.map (fun l => laneAtStart l.health) }
    feeds := d.feeds.map (fun x => { feedReset with hold := unread x.hold })
    branches := d.branches.map (fun x => { branchReset with hold := unread x.hold })
    drv := d.drv.map (fun x => ⟨x.level, false⟩)
    strings := d.strings.map (fun x => x.kept now 0)
    tt := { ttReset with level := d.tt.level, downAt := now,
                         rails := d.tt.rails.map (fun x => { (default : Rail) with level := x.level }) }
    pmbus := d.pmbus.map (fun m => { (default : PmbusMaster) with alert := m.alert })
    tap := d.tap, startCount := d.startCount, out := d.out, fresh := d.fresh }

/-! ### Shutdowns (R45) -/

/-- The keep-alive domain stores the cause and the calendar word (R45); without VBAK it holds nothing. -/
def Dev.storeShutdown (d : Dev) (cause : Nat) : Dev :=
  if d.ka.vbak then { d with ka := { d.ka with cause := cause, calDown := d.ka.calWord } } else d

/-- Record writes a loss of the core domain cuts short: their slots, which are consecutive and so lie one in each
bank, are torn (R339, R348). -/
def TrainRegister.tear (t : TrainRegister) : Nat → TrainRegister
  | 0 => t
  | n + 1 =>
    match t.flushTo, t.buffer with
    | some last, r :: rest =>
      if r.seq ≤ last ∧ t.scanning = false then
        TrainRegister.tear { t with buffer := rest, ring := ringPut t.ring t.wptr .torn, wptr := (t.wptr + 1) % ringSlots } n
      else t
    | _, _ => t

/-- A loss of supply stops the programming of a fuse row where it stands (R438). -/
def Dev.cutProgram (d : Dev) : Dev :=
  let f := d.stopProgram
  { d with fuse := f.fuse, fresh := f.fresh }

/-- The core domain stops: what Table 16-7 does not keep is lost, writes in flight are torn; without its supplies a fuse row
is not programmed on. -/
def Dev.coreStops (d : Dev) (phase : CorePhase) (torn : Nat) : Dev :=
  let f := if phase = .off then d.cutProgram else d
  let d1 := { f with tr := d.tr.tear torn }
  { d1 with core := { d1.core with phase := phase }, ka := { d1.ka with wakeHeld := none } }.fromOff false

/-! ### Steps 1 to 6 of Table 16-5 -/

/-- Every delay line measured once against the internal oscillator, at a start of the core domain without XREF: free
values (R34, log entry 6). A full restart holds what they have. -/
def Dev.measureLines (d : Dev) : Dev :=
  let line := fun (i : Fin 112) =>
    let n := Config.freeWord (d.fresh + i.val) % 2 ^ 16
    (⟨n, n, false, false, d.nextWork 3, false⟩ : DelayPair)
  { d with bge := { d.bge with lines := Vector.ofFn line }, fresh := d.fresh + 112 }

/-- The converter offset of a string that the fuses give (Table 17-1, row 15). -/
def Dev.fuseOfs (d : Dev) (s : Nat) : Nat := bitsOf (d.fuseRow 15) (8 * s) 8

/-- Step 3: the Rule Book is loaded, starts are counted, and what the fuses load goes to its registers. Coulomb
intervals begin with the length loaded (R71), early warnings follow their enables (R216), and no leg is in a period that
would hold its settings back (R179). -/
def Dev.startLoad (d : Dev) : Dev :=
  let d1 := ({ d with startCount := (d.startCount + 1) % 2 ^ 32 } : Dev).wroteLearned.loadBook
  let d0 := { d1 with fuse := { d1.fuse with critical := bitsOf (d1.fuseRow 25) 0 16 } }
  let shelf := fun (s : Nat) (d : Dev) =>
    let e := d.modStr s (fun x => { x with ofs := d1.fuseOfs s })
    { e with ccs := fileMod e.ccs s (fun x => { x with ivl := MA_CC_CFG.dec e s }) }
  let d2 := forAll shelf (indices 4) d0
  let d3 := forAll (fun g d => (d.modGroup g (fun x => x.modChan 0 (fun c => { c with t := d.target g 0, r := d.target g 0 })))
    |>.refreshLimits g |>.refreshAux g) (indices 16) d2
  let d4 := forAll (fun k d => d.takeSettings k) (indices 24) d3
  forAll (fun f d => d.feedWarn f) (indices 4) d4

/-- A Background Engine begins each piece of its work (R57, Table 16-8); BGE1 those of every converter and delay line. -/
def Dev.beginEngine (d : Dev) (e : Nat) : Dev :=
  let d1 := forAll (fun i d => d.beginWork i) ((indices 16).filter (fun w => workEngine w == e)) d
  if e ≠ 1 then d1
  else
    { d1 with sars := d1.sars.map (fun x => { x with work := d.nextWork 4 }),
              bge := { d1.bge with lines := d1.bge.lines.map (fun x => { x with measuring := false, work := d.nextWork 3 }) },
              house := { d1.house with turn := 0, round := d.nextWork 4 } }

/-- The Background Engines begin each piece of their work. -/
def Dev.beginWorks (d : Dev) : Dev := forAll (fun e d => d.beginEngine e) (indices 4) d

/-- The periodic checkpoints of the Train Register count from the start (R347). -/
def Dev.beginCheckpoints (d : Dev) : Dev :=
  { d with tr := { d.tr with ckptAt := d.now + TR_CTRL.ckpt d * ticksPerS } }

/-- The payload of the START record (Table 13-3). -/
def Dev.startPayload (d : Dev) : List Byte :=
  leBytes d.ka.cause 1 ++ leBytes d.ka.wakeCause 1 ++ leBytes (flag d.ka.depotOut + 2 * flag d.ka.valid) 1 ++ zeros 1
  ++ leBytes d.ka.calDown 8 ++ zeros 8 ++ leBytes d.tr.next 6

/-- Step 4: the START record, the ring scan, and the records that waited for it (R45, R349, R429, R435). -/
def Dev.startRecord (d : Dev) (sensed : Bool) : Dev :=
  let gone := d.withdrawn
  let d0 := { d with il := { d.il with stopAll := gone }, tr := { d.tr with readOnly := gone } }
  let d1 := d0.recordNow recStart d0.startPayload
  let d2 := { d1 with tr := { d1.tr with scanning := true } }
  let d3 := (if sensed then d2.fuseEvents else d2).manifestEvent.bookAfterStart
  if sensed ∧ d.core.xrefOk = false then d3.raise 0x0180 clsB 168 0 0 else d3

/-- The trim of the vendor fuse rows, for a converter (Table 17-1). -/
def Dev.vendorTrim (d : Dev) (n : Nat) : Dev :=
  let t := BitVec.ofNat 16 (bitsOf (d.fuseRow (3 + n / 4)) (16 * (n % 4)) 16)
  d.modSar n (fun x => { x with offset := (Config.trimOffset t).toInt, gain := (Config.trimGain t).toNat })

/-- Step 5: enabled channels start fault-side while their thresholds settle to the loaded codes, modes come from the
Service Pattern, CORE is charged, and enabled DRVFLT inputs count as asserted until they are seen deasserted (R81,
R83, R87, R92, R94, R306). The absence time of a leg runs from here where its input is asserted (R180; log entry 112).
-/
def Dev.startTrips (d : Dev) : Dev :=
  let p := if SYS_PATTERN.pattern d = 3 then 1 else SYS_PATTERN.pattern d
  let side := fun (n : Nat) (d : Dev) =>
    let on := FTA_CP_CFG.en d n == 1
    d.modCp n (fun c => { c with side := if on then .fault else .off, neverGood := true, settling := on })
  let mode := fun (n : Nat) (d : Dev) => d.setField (FTA_CP_CFG.reg n) 29 2 (d.patternMode p n)
  let input := fun (k : Nat) (d : Dev) =>
    let e := { d with drv := fileMod d.drv k (fun x => { x with treated := FTA_DF_CFG.en d k == 1 }) }
    e.modLeg k (fun l => { l with absent := if e.inputAsserted k then some d.now else none })
  let d1 := forAll mode (indices 128) (forAll side (indices 128) d)
  let d2 := forAll input (indices 24) (forAll (fun n d => d.vendorTrim n) (indices 48) d1)
  let charged := maskOf 128 (fun n => FTA_CP_CFG.mode d2 n == modeExpress)
  { d2 with trip := { d2.trip with charged := charged } }.raiseOverdrawn budCore

/-- Step 7: the calibration sweep asks leave at rank 1, unless a commanded one already does. -/
def Dev.startSweep (d : Dev) : Dev :=
  let d1 := { d with core := { d.core with phase := .sweeping } }.owe .office
  if d1.slotBusy slotSweep then d1 else d1.askSweep 1 false

/-- A lane's self-test has ended: with none left in TESTING the start goes on (R151, R416). -/
def Dev.selfTestsOver (d : Dev) : Dev :=
  if (indices 6).any (fun l => (d.lane l).state == .testing) then d else (d.chooseSpare (indices 6)).startSweep

/-- Steps 3 to 6, which every start runs, and the manifest, which every start applies (R434); `sensed` marks a start that
sensed the fuses. -/
def Dev.startCommon (d : Dev) (sensed : Bool) : Dev :=
  let d0 := { d with core := { d.core with phase := .testing }, fuse := d.fuse.applyManifest }
  let d1 := d0.startLoad.startRecord sensed
  let d2 := if d1.core.xrefOk || !sensed then d1 else d1.measureLines
  d2.beginWorks.beginCheckpoints.startTrips.selfTestsOver

/-- A start with power-up of the core domain: uptime from 0 and the fuses sensed (R32, R416, R424). -/
def Dev.coldStart (d : Dev) (kind : Nat) : Dev :=
  let core := { d.core with phase := .testing, uptime := 0, startKind := kind, xrefOk := d.core.xrefGood }
  let ka := { d.ka with depotOut := kind == 4 }
  { d with core := core, ka := ka, fuse := d.fuse.sense }.startCommon true

/-! ### Steps 8 and 9 -/

/-- Steps 8 and 9: hold-offs and checkpoints, then the automatic starts (R213, R233, R264, R417); each AVSBus master
resynchronises (R293), and each PMBus master begins to poll (R289). -/
def Dev.finishStart (d : Dev) : Dev :=
  let d1 := forAll (fun f d => d.feedAtStart f) (indices 4) d
  let d2 := forAll (fun n d => d.branchAtStart n) (indices 24) d1
  let d3 := forAll (fun s d => d.stringAtStart s) (indices 4) d2
  let d4 := { d3 with core := { d3.core with phase := .running } }
  let d5 := forAll (fun a d => if AV_CFG.en d a = 1 then d.avsAtStart a else d) (indices 2)
    (forAll (fun b d => (d.pbPeriods b true true).pbServe b) (indices 4) d4)
  let d6 := forAll (fun f d => d.feedAuto f) (indices 4) d5
  let d7 := forAll (fun s d => d.stringAuto s) (indices 4) d6
  let d8 := forAll (fun g d => d.autoStart g) (bitsIn 16 (SYS_AUTO_GRP.auto_groups d7)) d7
  (forAll (fun n d => d.branchAuto n) (indices 24) d8).timetableAuto

/-- CALIBRATION_SWEEP_DONE: a sweep ends with the offset and gain of every converter; at a start, steps 8 and 9
follow. -/
def calibrationSweepDone (cal : Vector (BitVec 16 × BitVec 16) 48) (d : Dev) : Dev :=
  if !d.coreRuns || !d.bge.sweeping then d
  else
    let d1 := d.endSweep cal
    if d.core.phase = .sweeping then d1.finishStart else d1

/-- Leave for a sweep is given up; at a start, steps 8 and 9 follow with the trim of the fuse rows (R53, Table 16-5). -/
def Dev.sweepUnmet (d : Dev) : Dev :=
  let d1 := d.sweepGaveUp
  if d.core.phase = .sweeping then d1.finishStart else d1

/-! ### Stop lines and the full restart (R315, R316, R333, R334) -/

/-- A stop line forces its owner's off action; `code` is the detection that drove it. -/
def Dev.stopRes (d : Dev) (r : Res) (code : Nat) : Dev :=
  match r with
  | .group g => d.groupFault g (code == 0x11 || code == 0x12)
  | .feed f => d.feedStop f
  | .branch n => d.branchStop n
  | .string s => d.strStop s
  | .timetable => d.ttShutOff false
  | .block _ => d

/-- Every resource with a stop line. -/
def stoppable : List Res :=
  (indices 16).map .group ++ (indices 4).map .feed ++ (indices 24).map .branch ++ (indices 4).map .string ++ [.timetable]

/-- While every stop line is driven nothing leaves its stopped state. -/
def Dev.holdStopped (d : Dev) : Dev :=
  if !d.il.stopAll then d
  else
    let one := fun (r : Res) (d : Dev) => match r with
      | .string s => if (d.str s).state.stopped then d else d.strStop s
      | r => d.stopRes r 0
    forAll one stoppable d

/-- A flush written out to its end. -/
def Dev.flushOut : Nat → Dev → Dev
  | 0, d => d
  | n + 1, d => if d.tr.flushTo.isSome then Dev.flushOut n (flushWriteDone d) else d

/-- Step 4 of a full restart: the core domain starts from the Rule Book load (R333); the programming of a fuse row goes on
(R438). -/
def Dev.restartCore (d : Dev) : Dev :=
  { d with core := { d.core with startKind := 2 }, ka := { d.ka with depotOut := false, wakeHeld := none } }.fromOff true
    |>.startCommon false

/-- Open faults in the order in which records of one instant enter (R342): by event source. -/
def bySource : List OpenFault → List OpenFault
  | [] => []
  | f :: fs => insert f (bySource fs)
where
  /-- A fault put before the first one of a higher source. -/
  insert (f : OpenFault) : List OpenFault → List OpenFault
    | [] => [f]
    | g :: gs => if f.det.source ≤ g.det.source then f :: g :: gs else g :: insert f gs

/-- A full restart (R333): stop lines, open faults written down and flushed, the cause stored, the start; a thermal one
waits for the junction to cool (R334). -/
def Dev.fullRestart (d : Dev) (thermal : Bool) : Dev :=
  if !d.coreRuns || d.core.phase == .cooling then d
  else
    let d1 := forAll (fun r d => d.stopRes r 0) stoppable d
    let d2 := forAll (fun f d => d.closeFault f) (bySource d1.il.faults) d1
    let d3 := (ringScanDone d2).flushNow
    let d4 := (d3.flushOut (d3.tr.buffer.length + 1)).storeShutdown (if thermal then 6 else 5)
    if thermal then
      { d4 with il := { d4.il with stopAll := true }, core := { d4.core with phase := .cooling } }
    else d4.restartCore

/-- The junction of a held thermal restart has fallen below 140 °C (R334). -/
def Dev.cooledOff (d : Dev) : Dev := if d.core.phase = .cooling then d.restartCore else d

/-! ### Block resets (R419, Table 16-8) -/

/-- The live registers of a block, reloaded from the Rule Book. -/
def Dev.reload (d : Dev) (p : Nat → Bool) : Dev :=
  let kept := d.cfg.filter (fun e => !p e.1)
  let back := d.book.loaded.filter (fun e => p e.1)
  { d with cfg := back.foldl (fun r e => r.set e.1 e.2) kept }

/-- The registers of group `g` in the Loop Engine and the Phase Timing Unit, with those of its legs, and its targets. -/
def inGroupBlock (g : Nat) (legs : List Nat) (off : Nat) : Bool :=
  (off < 0x2200 && off / 0x20 == 0x100 + g) || (0x2400 ≤ off && off < 0x2600 && off / 0x20 == 0x120 + g)
  || off == 0x2600 + 4 * g || (0x2800 ≤ off && off < 0x3000 && off / 0x80 == 0x50 + g)
  || (0x3000 ≤ off && off < 0x3100 && off / 0x10 == 0x300 + g)
  || (0x3100 ≤ off && off < 0x3280 && legs.contains ((off - 0x3100) / 0x10))
  || (0x10000 ≤ off && off / 0x40 == 0x400 + g)

/-- The health and the parking of a leg clear (R144). -/
def Dev.freshLeg (d : Dev) (g k : Nat) : Dev :=
  (d.clearHealth g k).modLeg k (fun l =>
    { l with health := .good, state := if l.state = .parked then .idle else l.state, parkCause := 0 })

/-- A group's block reset. -/
def Dev.resetGroup (d : Dev) (g : Nat) : Dev :=
  let legs := d.legsOf g
  let d1 := forAll (fun k d => d.freshLeg g k) legs d
  let d2 := (forAll (fun k d => d.takeSettings k) legs (d1.reload (inGroupBlock g legs))).modGroup g (fun x =>
    { x with samples := [], pend := [], rate := { x.rate with designs := [] } })
  (d2.modGroup g (fun x => x.modChan 0 (fun c => { c with t := d2.target g 0, r := d2.target g 0 }))).refreshLimits g |>.refreshAux g

/-- The Token Office's block reset: requests are given up, held amounts return at once. -/
def Dev.resetOffice (d : Dev) : Dev :=
  let d1 := d.reload (fun off => 0x5000 ≤ off && off < 0x5400)
  let d2 := forAll (fun i d => if (d.slot i).state = .waiting then d.giveUp i else d) (indices 80) d1
  let d3 := forAll (fun i d => if (d.slot i).state = .holding then d.modSlot i (fun _ => default) else d) (indices 80) d2
  { d3 with office := { d3.office with recovering := [] } }.owe .office

/-- What the block reset of a block other than a resource does to its live state, by BAR0 base (Table 16-8). -/
def Dev.resetBase (d : Dev) (base : Nat) : Dev :=
  if base = 0x0100 then d.linkReset 4 true false .kept
  else if base = 0x7000 then d.modSp (fun s => { s with response := spFirst })
  else if base = 0x4800 then (d.reload (fun off => 0x4800 ≤ off && off < 0x5000)).busesReset
  else if base = 0x5000 then d.resetOffice
  else if base = 0x5800 then d.reload (fun off => 0x5800 ≤ off && off < 0x5C00)
  else if base = 0x5C00 then d.fuseReset
  else
    let e := base - engineBlock 0
    (d.reload (fun off => (engineWorks e).any (fun w => off == BGE_INT.reg w))).beginEngine e

/-- A block reset (R419): the block's effect, then BLOCK_RESET with the block's base. -/
def Dev.blockReset (d : Dev) (r : Res) : Dev :=
  let told := fun (e : Dev) (base : Nat) => e.raise 0x0174 clsC 160 base 0
  match r with
  | .group g => if (d.group g).state.stopped then told (d.resetGroup g) 0x2000 else d
  | .feed f =>
    told ((d.reload (fun off => 0x3800 + 0x40 * f ≤ off && off < 0x3840 + 0x40 * f)).feedWarn f) 0x3800
  | .branch n =>
    let d1 := d.reload (fun off => 0x3C00 + 0x40 * n ≤ off && off < 0x3C40 + 0x40 * n && off < 0x4200)
    told (d1.setThreshold (96 + n) (tripCode (BC_LIMIT.ilim d1 n) (BC_LIMIT.mult d1 n))) 0x3C00
  | .string s =>
    let d0 := d.reload (fun off => 0x4400 + 0x40 * s ≤ off && off < 0x4440 + 0x40 * s)
    let d1 := d0.modStr s (fun x => { x with ofs := d0.fuseOfs s })
    told (forAll (fun g d => d.refreshAux g) (indices 16) d1) 0x4400
  | .timetable => told (d.resetBase 0x4800) 0x4800
  | .block base => told (d.resetBase base) (if engineBlock 0 ≤ base ∧ base < engineBlock 4 then engineBlock 0 else base)

/-! ### Power-on and RESET_N -/

/-- Every supply of the core domain valid, or none. -/
def Supplies.every (b : Bool) : Supplies := ⟨b, b, b, b, b⟩

/-- A held core domain starts once RESET_N is released and all six supplies read valid (R452, R470). -/
def Dev.startHeld (d : Dev) : Dev :=
  if d.core.phase = .held ∧ d.core.rstIn = false ∧ d.core.supplies.all = true then d.coldStart d.core.startKind else d

/-- CORE_POWER_ON (R416, R452, R470): the monitors read all six supplies valid. The test port resets as VDDIO comes up
(R461), PWR_EN is high while the core runs (R266), and while RESET_N is asserted the start waits for its release. A core
domain that runs already has the supply back that it had lost. -/
def corePowerOn (d : Dev) : Dev :=
  let tap := if d.core.supplies.vddio then d.tap else tapReset
  let d0 := { d with tap := tap, core := { d.core with supplies := .every true } }
  if d.core.phase ≠ .off then d0.startHeld
  else
    let low := if d.ka.leaving = .awake then d.ka.lowPower else d.ka.leaving
    let kind := match low with
      | .awake => 0
      | .stabled => 3
      | .depot => 4
    let ka := { d.ka with pwrEn := d.ka.vbak, pwrHold := false, lowPower := .awake, leaving := .awake,
                          valid := d.ka.valid && low != .depot }
    ({ d0 with ka := ka, core := { d0.core with startKind := kind, phase := .held } } : Dev).startHeld

/-- RESET_N: asserted for 1 µs or longer; `torn` record writes were in flight (R454, Table 16-7). -/
def resetN (torn : Fin 9) (d : Dev) : Dev :=
  let d0 := { d with core := { d.core with rstIn := true } }
  if !d.coreRuns then d0
  else
    let d1 := d0.storeShutdown 2
    ({ d1 with core := { d1.core with startKind := 1 } }).coreStops .held torn.val

/-- RESET_N_RELEASE: deasserted; a held core domain starts, or waits for its supplies (R424, R452, R454). -/
def resetNRelease (d : Dev) : Dev := ({ d with core := { d.core with rstIn := false } } : Dev).startHeld

end Sys2Proof.Machine
end

