-- ==== Sys2Proof/Machine/Power.lean ====
section
/-! DEFINITION. Low-power states, supplies, VBAK, wakes, the power-fail warning, and the time-driven rows of the Token
Office (spec/09_battery_shelf.md R263 to R269; spec/02 R38 to R45; spec/20 R470 to R472; spec/16 Table 16-7; spec/11 R296,
R302, R303). -/
namespace Sys2Proof.Machine

/-! ### Entry to Stabled and Depot (R265, R268) -/

/-- Change the departure in progress. -/
def Dev.setLeaving (d : Dev) (x : Option Departing) : Dev := { d with shelf := { d.shelf with leaving := x } }

/-- The second stage of R265 begins: checkpoints, and a flush of every record now in the buffer. -/
def Dev.departFlush (d : Dev) (x : Departing) : Dev :=
  let d1 := (d.checkpointAll true).flushNow
  d1.setLeaving (some { x with stage := 2, goal := d1.tr.next })

/-- A departure goes on when what it waits for has come: every string OPEN or FAULTED, then every record below the goal
flushed; the completion is posted, and 1 ms later PWR_EN goes low. -/
def Dev.departStep (d : Dev) : Dev :=
  let second := fun (d : Dev) => match d.shelf.leaving with
    | some x =>
      if x.stage = 2 ∧ (d.tr.buffer.all (fun r => x.goal ≤ r.seq)) = true then
        (d.commitAllOpt x.fetch stDone []).setLeaving (some { x with stage := 3, offAt := d.now + ticksPerMs })
      else d
    | none => d
  match d.shelf.leaving with
  | some x =>
    if x.stage = 1 ∧ (indices 4).all (fun s => (d.str s).state.stopped) = true then
      second ((d.commitOpt x.fetch 1).departFlush x)
    else second d
  | none => d

/-- The conditions of R265: every group OFF or FAULTED, and the Timetable down. -/
def Dev.mayDepart (d : Dev) : Bool :=
  (indices 16).all (fun g => (d.group g).state.stopped) && d.tt.state == .down && d.shelf.leaving.isNone

/-- A branch is turned off as BRANCH_SWITCH off does. -/
def Dev.branchOff (d : Dev) (n : Nat) : Dev :=
  if (d.branch n).state = .off then d else ((d.release (slotBranch n)).branchEnter n .off).branchEnd n stSuperseded

/-- A feed is turned off as FEED_SWITCH off does. -/
def Dev.feedOff (d : Dev) (f : Nat) : Dev :=
  if (d.feed f).state = .off then d else ((d.release (slotFeed f)).feedEnter f .off).feedEnd f stSuperseded

/-- A resumed ENTER_DEPOT takes over the departure its closed command left (R387): the stages whose condition holds
commit at once. -/
def Dev.departRejoin (d : Dev) (c : OpenCmd) : Option Dev :=
  match d.shelf.leaving with
  | some x =>
    if x.depot ≠ (c.desc.byte 20 == 1) ∨ d.gone x.fetch = false then none
    else
      let d1 := d.setLeaving (some { x with fetch := some c.fetch })
      some (if x.stage = 3 then d1.commitAll c.fetch stDone [] else (if x.stage = 2 then d1.commit c.fetch 1 else d1).departStep)
  | none => none

/-- ENTER_DEPOT: its first stage turns branches and feeds off and opens the strings. -/
def specEnterDepot : OpSpec where
  code := 0x43
  cls := clsDevice
  count := 1
  stdOk := true
  expOk := false
  total := fun _ _ => 2
  inSlw := fun _ => true
  params := fun c _ => c.byte 20 ≤ 1
  begin := fun c d =>
    if !d.mayDepart then (if c.resumed then d.departRejoin c else none).getD (d.finish c.fetch stRejected [])
    else
      let d0 := forAll (fun n d => d.branchOff n) (indices 24) d
      let d1 := forAll (fun f d => d.feedOff f) (indices 4) d0
      let d2 := forAll (fun s d => d.strOff s) (indices 4) d1
      (d2.setLeaving (some ⟨some c.fetch, c.desc.byte 20 == 1, 1, 0, 0⟩)).departStep
  resume := fun c d => d.departRejoin c

/-- Entry to Depot without the conditions of R265 (R268): stop lines for groups, branches and feeds, then the second
stage. A departure under way goes to Depot. -/
def Dev.departNow (d : Dev) : Dev :=
  match d.shelf.leaving with
  | some ⟨_, _, 2, _, _⟩ | some ⟨_, _, 3, _, _⟩ => d
  | old =>
    let off := fun (r : Res) (d : Dev) => d.stopRes r 0
    let rs := (indices 16).map .group ++ (indices 24).map .branch ++ (indices 4).map .feed
    let d1 := (forAll off rs d).finishOpt (old.bind (·.fetch)) stAborted []
    (d1.departFlush ⟨none, true, 1, 0, 0⟩).departStep

/-- PWR_EN is low, and every supply but VBAK has gone (R456). -/
def Dev.unsupplied (d : Dev) : Dev := { d with core := { d.core with supplies := .every false } }

/-- DEPOT_SHUTDOWN: 1 ms after the completion the cause is stored and PWR_EN goes low (R265, R266, R456). -/
def depotShutdown (d : Dev) : Dev :=
  match d.shelf.leaving with
  | some x =>
    if x.stage ≠ 3 ∨ d.coreRuns = false then d
    else if !d.ka.vbak then d.setLeaving none
    else
      let held := d.ka.wakeHeld
      let d1 := ((d.until x.offAt).storeShutdown (if x.depot then 4 else 3)).coreStops .off 0 |>.unsupplied
      { d1 with ka := { d1.ka with lowPower := if x.depot then .depot else .stabled, pwrEn := false, pwrHold := true,
                                   wakeHeld := held } }
  | none => d

/-! ### Wakes (R266, R267) -/

/-- wake_cause of a source (Table 9-18). -/
def WakeSource.code : WakeSource → Nat
  | .wakeIn i _ => 1 + i.val
  | .busSns => 5
  | .chgDet => 7

/-- A source is armed: in Stabled those enabled, a WAKE_IN input at the level its polarity selects, and in Depot CHG_DET
alone. -/
def KeepAlive.arms (k : KeepAlive) (depot : Bool) : WakeSource → Bool
  | .wakeIn i high => !depot && bitOf k.winEn i && bitOf k.winPol i == high
  | .busSns => !depot && k.busEn
  | .chgDet => depot || k.chgEn

/-- The keep-alive domain acts on a wake: PWR_EN goes high, and leaving Depot makes the calendar invalid (R39). -/
def Dev.wakeNow (d : Dev) (cause : Nat) : Dev :=
  { d with ka := { d.ka with pwrEn := true, wakeHeld := none, wakeCause := cause, leaving := d.ka.lowPower,
                             valid := d.ka.valid && d.ka.lowPower != .depot, lowPower := .awake } }

/-- A wake occurs: acted on at once, or held until PWR_EN has been low for 20 ms. -/
def Dev.wakeUp (d : Dev) (cause : Nat) : Dev :=
  if d.ka.pwrHold ∨ d.ka.lowPower = .awake then
    if d.ka.wakeHeld.isSome then d else { d with ka := { d.ka with wakeHeld := some cause } }
  else d.wakeNow cause

/-- Where a wake counts: in a low-power state, or while one is entered after the first stage of ENTER_DEPOT; the answer
is whether that state is Depot. -/
def Dev.wakeable (d : Dev) : Option Bool :=
  if !d.ka.vbak then none
  else match d.ka.lowPower with
    | .stabled => some false
    | .depot => some true
    | .awake => match d.shelf.leaving with
      | some x => if 2 ≤ x.stage then some x.depot else none
      | none => none

/-- KA_WAKE: a wake input, BUS_SNS or CHG_DET asks to wake the device (R267). -/
def kaWake (src : WakeSource) (d : Dev) : Dev :=
  match d.wakeable with
  | some depot => if d.ka.arms depot src then d.wakeUp src.code else d
  | none => d

/-- The calendar moves on to the moment the alarm is due, alarm_s seconds after the entry to Stabled (Table 9-19). -/
def KeepAlive.toAlarm (k : KeepAlive) : KeepAlive :=
  let due := bitsOf k.calDown 30 34 + k.alarmS
  if k.ticks && decide (k.seconds < due) then { k with seconds := due % 2 ^ 34, subsec := bitsOf k.calDown 15 15, frac := 0 }
  else k

/-- WAKE_ALARM: the alarm of TB_KA_ALARM expires in Stabled (R267). -/
def wakeAlarm (d : Dev) : Dev :=
  if d.ka.vbak ∧ d.ka.lowPower = .stabled ∧ d.ka.alarmEn ∧ d.ka.alarmS ≠ 0 ∧ d.ka.x32Runs then
    { d with ka := d.ka.toAlarm }.wakeUp 6
  else d

/-- PWR_EN_HOLD_END: PWR_EN has been low for 20 ms, and a held wake raises it (R266, R267). -/
def pwrEnHoldEnd (d : Dev) : Dev :=
  if d.ka.pwrHold then
    let d1 := { d with ka := { d.ka with pwrHold := false } }
    match d.ka.wakeHeld with
    | some c => d1.wakeNow c
    | none => d1
  else d

/-! ### Supplies -/

/-- VBAK_APPLIED after a loss (R39, R41, R266). -/
def vbakApplied (d : Dev) : Dev :=
  if d.ka.vbak then d
  else
    let cl := (Config.x32Vendor (d.fuse.row 16).copyA.nominal.data).toNat
    { d with ka := { kaReset cl with x32Ok := d.ka.x32Ok, x32Runs := d.ka.x32Runs } }

/-- VBAK_LOST: the keep-alive domain loses its state, and PWR_EN falls with it, which takes the core supplies away
(R38, Table 16-7); `torn` record writes were in flight. -/
def vbakLost (torn : Fin 9) (d : Dev) : Dev :=
  if !d.ka.vbak then d
  else
    let d1 := if d.coreRuns then d.coreStops .off torn.val else { d.cutProgram with core := { d.core with phase := .off } }
    { d1.unsupplied with ka := { kaReset 0 with vbak := false, pwrEn := false, x32Ok := d.ka.x32Ok, x32Runs := d.ka.x32Runs } }

/-- The monitor of a core supply reads failed. -/
def Supplies.lose (x : Supplies) : CoreSupply → Supplies
  | .vcore => { x with vcore := false }
  | .vddio => { x with vddio := false }
  | .vdda => { x with vdda := false }

/-- CORE_SUPPLY_FAIL: VCORE, VDDIO or VDDA falls below its fail level (R45, R470). The cause is 7 with a power-fail warning
in the 10 ms before. -/
def coreSupplyFail (loss : SupplyLoss) (d' : Dev) : Dev :=
  let d := { d' with core := { d'.core with supplies := d'.core.supplies.lose loss.supply } }
  if !d.coreRuns then { d.cutProgram with core := { d.core with phase := .off } }
  else
    let warned := match d.core.warnedAt with
      | some t => decide (d.now ≤ t + 10 * ticksPerMs)
      | none => false
    (d.storeShutdown (if warned then 7 else 1)).coreStops .off loss.torn.val

/-- VGD_FAIL: a core that runs goes on; branches find out through GATE_UNDERDRIVE (R471). One that has not started waits
for VGD (R452). -/
def vgdFail (d : Dev) : Dev := { d with core := { d.core with supplies := { d.core.supplies with vgd := false } } }

/-- POWER_FAIL_WARNING: BUS_SNS has stayed below its warning level for 2 µs: flush and checkpoints (R263, R347, R472).
-/
def powerFailWarning (d : Dev) : Dev :=
  if !d.core.warnArmed then d
  else
    let d1 := { d with core := { d.core with warnArmed := false } }
    if d.coreRuns then
      ({ d1 with core := { d1.core with warnedAt := some d.now } }.checkpointAll true).flushNow
    else d1

/-- BUS_SNS_REARM: BUS_SNS has risen above its rearm level for 2 µs (R472): no shutdown is in sight, so that no
checkpoint counts as the final one (R264); one that an earlier run of the core wrote stands until a start restores it. -/
def busSnsRearm (d : Dev) : Dev :=
  let d1 := { d with core := { d.core with warnArmed := true } }
  kaWake .busSns (if d.coreRuns then d1.checkpointsLast false else d1)

/-! ### The Token Office's timers -/

/-- The recovering amount that is due first. -/
def firstDue : List Recovering → Option Recovering
  | [] => none
  | r :: rs => match firstDue rs with
    | none => some r
    | some s => if r.due ≤ s.due then some r else some s

/-- SURGE_RECOVERED: the amount that is due first becomes available (R302). -/
def surgeRecovered (d : Dev) : Dev :=
  match d.coreRuns, firstDue d.office.recovering with
  | true, some r =>
    let d1 := d.until r.due
    { d1 with office := { d1.office with recovering := d1.office.recovering.erase r } }.owe .office
  | _, _ => d

/-- The request a slot has waiting: on slot 78 it may wait beside a held token (R433). -/
def Dev.waitingOf (d : Dev) (slot : Nat) : Nat :=
  if slot = slotFuse ∧ d.slotBusy slotSecond = true then slotSecond else slot

/-- TOKEN_WAIT_LIMIT: the request of a slot reaches its rank's wait limit (R303). -/
def tokenWaitLimit (slot : Fin 79) (d : Dev) : Dev :=
  let i := d.waitingOf slot
  let s := d.slot i
  if d.coreRuns && s.state == .waiting then (d.until s.limit).giveUp i else d

/-- TOKEN_DURATION_END: a held token reaches the end of its duration and returns (R296). -/
def tokenDurationEnd (slot : Fin 79) (d : Dev) : Dev :=
  let s := d.slot slot
  if d.coreRuns && s.state == .holding && s.lapses != 0 then (d.until s.lapses).release slot else d

end Sys2Proof.Machine
end

