-- ==== Sys2Proof/Machine/Pins.lean ====
section
/-! DEFINITION. The state of every ball (spec/19_pins_package.md R451 to R458, Tables 19-6 and 19-7) and the test
access port with its boundary scan register (R461 to R463, Table 19-9). -/
namespace Sys2Proof.Machine

/-! ### The test access port -/

/-- The next controller state of IEEE 1149.1 for a level of TMS (log entry 16). -/
def TapState.next : TapState → Bool → TapState
  | .reset, tms => if tms then .reset else .idle
  | .idle, tms => if tms then .selectDr else .idle
  | .selectDr, tms => if tms then .selectIr else .captureDr
  | .captureDr, tms => if tms then .exit1Dr else .shiftDr
  | .shiftDr, tms => if tms then .exit1Dr else .shiftDr
  | .exit1Dr, tms => if tms then .updateDr else .pauseDr
  | .pauseDr, tms => if tms then .exit2Dr else .pauseDr
  | .exit2Dr, tms => if tms then .updateDr else .shiftDr
  | .updateDr, tms => if tms then .selectDr else .idle
  | .selectIr, tms => if tms then .reset else .captureIr
  | .captureIr, tms => if tms then .exit1Ir else .shiftIr
  | .shiftIr, tms => if tms then .exit1Ir else .shiftIr
  | .exit1Ir, tms => if tms then .updateIr else .pauseIr
  | .pauseIr, tms => if tms then .exit2Ir else .pauseIr
  | .exit2Ir, tms => if tms then .updateIr else .shiftIr
  | .updateIr, tms => if tms then .selectDr else .idle

/-- The instructions of Table 19-9. -/
inductive TapInstr where
  | extest | sample | idcode | highz | bypass
  deriving DecidableEq, Repr

/-- The instruction a code acts as; EXTEST and HIGHZ take effect only while RESET_N is asserted (R461, R463). -/
def Tap.instr (t : Tap) (rst : Bool) : TapInstr :=
  if t.ir = 0x0 then (if rst then .extest else .bypass)
  else if t.ir = 0x1 then .sample
  else if t.ir = 0x2 then .idcode
  else if t.ir = 0x3 then (if rst then .highz else .bypass)
  else .bypass

/-- A register shifted one place towards TDO. -/
def shiftIn {w : Nat} (x : BitVec w) (tdi : Bool) : BitVec w :=
  (x >>> 1) ||| (if tdi then BitVec.twoPow w (w - 1) else 0)

/-- What a rising edge of TCK does in the present controller state: capture or shift. `pins` are the levels on the
balls, one bit for each cell. -/
def Tap.edge (t : Tap) (rst tdi : Bool) (pins : BitVec 167) : Tap :=
  match t.state, t.instr rst with
  | .captureDr, .extest | .captureDr, .sample => { t with scan := pins }
  | .captureDr, .idcode => { t with ident := 0x248247CF }
  | .captureDr, .highz | .captureDr, .bypass => { t with bypass := false }
  | .shiftDr, .extest | .shiftDr, .sample => { t with scan := shiftIn t.scan tdi }
  | .shiftDr, .idcode => { t with ident := shiftIn t.ident tdi }
  | .shiftDr, .highz | .shiftDr, .bypass => { t with bypass := tdi }
  | .captureIr, _ => { t with irSh := 0x1 }
  | .shiftIr, _ => { t with irSh := shiftIn t.irSh tdi }
  | _, _ => t

/-- What entry to a controller state does by the falling edge that follows: the port's reset, or an update. -/
def Tap.settle (t : Tap) (rst : Bool) : Tap :=
  match t.state with
  | .reset => { t with ir := 0x2 }
  | .updateIr => { t with ir := t.irSh }
  | .updateDr => match t.instr rst with
    | .extest | .sample => { t with update := t.scan }
    | _ => t
  | _ => t

/-- The level TDO takes with the falling edge, while the port shifts (Table 19-7). -/
def Tap.tdo (t : Tap) (rst : Bool) : Option Bool :=
  match t.state with
  | .shiftIr => some (t.irSh.getLsbD 0)
  | .shiftDr => match t.instr rst with
    | .extest | .sample => some (t.scan.getLsbD 0)
    | .idcode => some (t.ident.getLsbD 0)
    | _ => some t.bypass
  | _ => none

/-- TAP_TCK_EDGE: a rising edge of TCK with the levels of TMS, TDI and the balls; nothing without VDDIO. -/
def tapTckEdge (tms tdi : Bool) (pins : BitVec 167) (d : Dev) : Dev :=
  if d.core.supplies.vddio = false then d
  else
    let rst := d.core.rstIn
    let t := (({ d.tap.edge rst tdi pins with state := d.tap.state.next tms } : Tap)).settle rst
    match t.tdo rst with
    | some b => { d with tap := t }.emit (.tdo b)
    | none => { d with tap := t }

/-! ### Balls (R451, R453, Tables 19-6 and 19-7) -/

/-- The balls of Table 19-7. -/
inductive Ball where
  | pwmA (k : Fin 24) | pwmB (k : Fin 24) | drvflt (k : Fin 24) | ren (n : Fin 16) | rmon (n : Fin 16)
  | rdis (n : Fin 16) | fwarn (f : Fin 4) | bellOut | bellIn | haltN | sirqN | sdo | scsN | sclk | sdi
  | pbScl (b : Fin 4) | pbSda (b : Fin 4) | pbAlertN (b : Fin 4) | avClk (a : Fin 2) | avMdata (a : Fin 2)
  | avSdata (a : Fin 2) | kd (s : Fin 4) | pc (s : Fin 4) | ka (s : Fin 4) | bcG (n : Fin 24) | fdG (f : Fin 4)
  | bcS (n : Fin 24) | bcP (n : Fin 24) | bcN (n : Fin 24) | fdS (f : Fin 4) | fdD (f : Fin 4) | csP (s : Fin 4)
  | csN (s : Fin 4) | ainP (n : Fin 48) | ainN (n : Fin 48) | th (i : Fin 8) | ga (i : Fin 10) | cmp (i : Fin 4)
  | resetN | perstN | pwrEn | tck | tms | tdi | tdo
  deriving DecidableEq, Repr

/-- What a ball shows: high impedance, a passive or weak pull-down, a driven level, an open drain released or pulled
low, a gate clamped passively, pulled to its source, or driven on, an active time in 1/256 of a period, or a waveform
that its unit makes. Of an input: that it counts as asserted, is ignored, is acted on or sensed, or stands on its 50 kΩ
pull. -/
inductive Drive where
  | highZ | weakLow | low | high | released | pulledLow | clamped | off | on | duty (of256 : Nat) | running
  | asserted | ignored | read | sensed | pullUp | pullDown
  deriving DecidableEq, Repr

/-- The domains of Table 19-6 that carry signal balls of Table 19-7. -/
inductive Domain where
  | keepAlive | logic | analogue | gate | bus
  deriving DecidableEq, Repr

/-- The domain of a ball. Of the high-voltage balls the gates need VGD; the sense balls stand on the bus. -/
def Ball.domain : Ball → Domain
  | .pwrEn => .keepAlive
  | .bcG _ | .fdG _ => .gate
  | .bcS _ | .bcP _ | .bcN _ | .fdS _ | .fdD _ | .csP _ | .csN _ => .bus
  | .ainP n | .ainN n => if n.val < 40 then .analogue else .bus
  | .th _ | .ga _ | .cmp _ => .analogue
  | _ => .logic

/-- The supplies of a domain are there. -/
def Dev.supplied (d : Dev) : Domain → Bool
  | .keepAlive => d.ka.vbak
  | .logic => d.core.supplies.vddio
  | .analogue => d.core.supplies.vdda
  | .gate => d.core.supplies.vgd
  | .bus => true

/-- The Unpowered column. -/
def Ball.unpowered : Ball → Drive
  | .bellOut | .kd _ | .pc _ => .weakLow
  | .bcG _ | .fdG _ => .clamped
  | .pwrEn => .low
  | _ => .highZ

/-- The Reset column. -/
def Ball.inReset : Ball → Drive
  | .pwmA _ | .pwmB _ | .ren _ => .weakLow
  | .drvflt _ => .asserted
  | .fwarn _ => .pulledLow
  | .rdis _ | .haltN | .sirqN | .pbScl _ | .pbSda _ => .released
  | .bellOut | .avClk _ | .kd _ | .pc _ => .low
  | .avMdata _ | .pwrEn => .high
  | .bcG _ | .fdG _ => .off
  | .rmon _ | .bellIn | .scsN | .sclk | .sdi | .pbAlertN _ | .avSdata _ => .ignored
  | .perstN => .read
  | .ka _ | .resetN | .tms | .tdi => .pullUp
  | .tck => .pullDown
  | .sdo | .tdo | .bcS _ | .bcP _ | .bcN _ | .fdS _ | .fdD _ | .csP _ | .csN _ | .ainP _ | .ainN _ | .th _ | .ga _
  | .cmp _ => .highZ

/-- A driven level. -/
def driveOf (b : Bool) : Drive := if b then .high else .low

/-- An open drain. -/
def drainOf (b : Bool) : Drive := if b then .pulledLow else .released

/-- Output A, or B, of a leg switches: from its first period start on, and where its column lets it. A discharging leg
switches B alone (R195). -/
def Dev.legSwitches (d : Dev) (k : Nat) (b : Bool) : Bool :=
  let l := d.leg k
  (l.state == .switching || l.state == .joining || (b && l.state == .discharging)) && l.run != .waiting && !l.cycled
    && !d.isLatched (colLeg k)

/-- A gate driven as its branch or feed drives it: an amplifier that regulates it makes a waveform. -/
def GateDrive.ball : GateDrive → Drive
  | .down => .off
  | .enhanced => .on
  | .ramp _ | .limit _ => .running

/-- The Configured column. -/
def Dev.configured (d : Dev) : Ball → Drive
  | .pwmA k => if d.legSwitches k false then .running else driveOf (PTU_LEG_CFG.pol_a d k == 0)
  | .pwmB k => if d.legSwitches k true then .running else driveOf (PTU_LEG_CFG.pol_b d k == 0)
  | .ren n => driveOf ((d.rail n).ren == (TT_RAIL_CFG.pol_en d n == 1))
  | .rdis n => drainOf (d.rail n).dis.isSome
  | .fwarn f => drainOf (d.feed f).warn
  | .bellOut => .low
  | .haltN => drainOf d.tt.drive
  | .sirqN => drainOf (!d.il.sirq.isEmpty)
  | .sdo => .highZ
  | .pbScl b | .pbSda b => if (d.pb b).current.isSome then .running else .released
  | .avClk a => if (d.av a).current.isSome then .running else .low
  | .avMdata a => if (d.av a).current.isSome then .running else .high
  | .kd s => match d.coilDuty s with
    | 0 => .low
    | 256 => .high
    | n => .duty n
  | .pc s => driveOf (d.str s).pc
  | .bcG n => (d.branchDrive n).ball
  | .fdG f => (d.feedDrive f).ball
  | .pwrEn => driveOf d.ka.pwrEn
  | .tdo => match d.tap.tdo d.core.rstIn with
    | some b => driveOf b
    | none => .highZ
  | .drvflt k => if FTA_DF_CFG.en d k = 1 then .read else .ignored
  | .rmon _ | .bellIn | .scsN | .sclk | .sdi | .pbAlertN _ | .avSdata _ | .perstN => .read
  | .ka _ | .resetN | .tms | .tdi => .pullUp
  | .tck => .pullDown
  | .bcS _ | .bcP _ | .bcN _ | .fdS _ | .fdD _ | .csP _ | .csN _ | .ainP _ | .ainN _ | .th _ | .ga _ | .cmp _ => .sensed

/-- What boundary scan makes of a ball whose cell does not only observe, while RESET_N is asserted (R463). -/
def Tap.takes (t : Tap) (rst : Bool) (b : Ball) : Option Drive :=
  match t.instr rst, b with
  | .highz, .bellOut | .highz, .haltN | .highz, .sirqN | .highz, .sdo | .highz, .pbScl _ | .highz, .pbSda _
  | .highz, .avClk _ | .highz, .avMdata _ => some .highZ
  | .extest, .bellOut => some (driveOf (t.update.getLsbD 125))
  | .extest, .haltN => some (drainOf (!t.update.getLsbD 126))
  | .extest, .sdo => some (driveOf (t.update.getLsbD 130))
  | .extest, .sirqN => some (drainOf (!t.update.getLsbD 131))
  | .extest, .pbScl m => some (drainOf (!t.update.getLsbD (137 + m.val)))
  | .extest, .pbSda m => some (drainOf (!t.update.getLsbD (141 + m.val)))
  | .extest, .avClk a => some (driveOf (t.update.getLsbD (149 + a.val)))
  | .extest, .avMdata a => some (driveOf (t.update.getLsbD (151 + a.val)))
  | _, _ => none

/-- The state of a ball: the Unpowered column without the supplies of its domain; PWR_EN and TDO run on their own; the
others follow the core domain, and a full restart stays in the Configured column (R451, R453 to R456, R458). -/
def Dev.ball (d : Dev) (b : Ball) : Drive :=
  if !d.supplied b.domain then b.unpowered
  else if b = .pwrEn ∨ b = .tdo ∨ d.coreRuns = true then d.configured b
  else (d.tap.takes d.core.rstIn b).getD b.inReset

end Sys2Proof.Machine
end

