-- ==== Sys2Proof/Machine/Settle.lean ====
section
/-! DEFINITION. What one command sets going inside the device, brought to its end: the work its effect owes, in the order
it was owed (spec/95_what_each_step_holds.md; spec/11 R300 to R305 for grants; spec/14 R378 for commands that begin). -/
namespace Sys2Proof.Machine

/-! ### Commands by opcode (Table 15-1) -/

/-- The Command Reference: every opcode. -/
def opcodes : List OpSpec :=
  [specNop, specStateSnapshot, specLedgerQuery, specRulebookCommit, specSetPattern,
   specGroupConfigure, specGroupTarget, specGroupLimits, specGroupEnable, specCoeffLoad,
   specModelLoad, specLegConfigure, specShedPolicy, specBranchConfigure, specBranchSwitch,
   specBranchRetry, specFeedConfigure, specFeedSwitch, specFeedShare, specStringConfigure,
   specStringConnect, specEstimatorSet, specEnterDepot, specTimetableLoad, specTimetableRun,
   specPolTransaction, specAvsTransaction, specRecorderRead, specClearNonce, specRecorderClear,
   specCalendarSet, specThresholdSet, specComparatorMode, specFuseRead, specFuseProgram,
   specAdvance, specBgeConfigure, specTelemetryStream, specInjectArm, specInject,
   specFaultResume]

/-- The entry of an opcode. -/
def opcodeOf (op : Nat) : Option OpSpec := opcodes.find? (fun sp => sp.code == op)

/-! ### Leave (R296, R303) -/

/-- A grant reaches its requester. -/
def Dev.tellGranted (d : Dev) (i : Nat) : Dev :=
  if i < 16 then d.groupGranted i
  else if i < 40 then d.legGranted (i - 16)
  else if i < 44 then d.feedGranted (i - 40)
  else if i < 68 then d.branchGranted (i - 44)
  else if i < 72 then d.strGranted (i - 68)
  else if i = slotTimetable then d.ttGranted
  else if i = slotSweep then d.sweepGranted
  else if i = slotMode then d.modeGranted
  else if i = slotCommit then d.commitGranted
  else if i = slotClear then d.clearGranted
  else if i = slotFlush then d.flushGranted
  else d.progGranted

/-- A given-up request reaches its requester. -/
def Dev.tellGaveUp (d : Dev) (i : Nat) : Dev :=
  if i < 16 then d.groupGaveUp i
  else if i < 40 then d.legGaveUp (i - 16)
  else if i < 44 then d.feedGaveUp (i - 40)
  else if i < 68 then d.branchGaveUp (i - 44)
  else if i < 72 then d.strGaveUp (i - 68)
  else if i = slotTimetable then d.ttGaveUp
  else if i = slotSweep then d.sweepUnmet
  else if i = slotMode then d.modeGaveUp
  else if i = slotCommit then d.commitGaveUp
  else if i = slotClear then d.clearGaveUp
  else if i = slotFlush then d
  else d.progGaveUp

/-! ### Column latches, groups, lanes -/

/-- A column latch, set by `row`, reaches its owner (Table 3-14). -/
def Dev.tellLatched (d : Dev) (col row : Nat) : Dev :=
  if col < 24 then d.legLatched col
  else if col < 48 then d.branchLatched (col - 24)
  else if col < 52 then d.feedLatched (col - 48) row
  else d.strLatched (col - 52)

/-- A group has changed its state, winner or clamp: its feeds see it (R217), and what waited for a sample boundary takes
effect in a stopped group. -/
def Dev.groupMoved (d : Dev) (g : Nat) : Dev :=
  let d1 := d.feedsOfGroup g
  if (d1.group g).state.stopped then (d1.restTargets g).boundary g else d1

/-- REFILL (spec/12, section on reactions; R133): the output history at 16 times the applied demand, no error history,
and the model from the latest eight samples. -/
def Dev.refill (d : Dev) (g : Nat) : Dev :=
  let x := d.group g
  let y : Int := 16 * x.applied
  let clear := fun (i : Nat) (x : Group) => x.modChan i (fun c => { c with e1 := 0, e2 := 0, e3 := 0 })
  let v := meanOf (x.samples.map (·.vout))
  let d1 := d.modGroup g (fun x => { clear 0 (clear 1 (clear 2 (clear 3 x))) with
    y1 := y, y2 := y, y3 := y, model := { x.model with vhat := v, iload := 0 } })
  forAll (fun p d =>
    let i := preCurrent x.samples p
    d.modLeg p (fun l => { l with model := { l.model with ihat := i, pred := i } })) (d.phasesOf g) d1

/-- A lane's self-test has ended: at a start the start goes on, else a FAULT_RESUME does (R151, R152). -/
def Dev.laneTested (d : Dev) : Dev :=
  match d.core.phase with
  | .testing => d.selfTestsOver
  | .sweeping | .running => d.resumeTested
  | _ => d

/-! ### The loop over owed work -/

/-- One piece of owed work. -/
def Dev.doWork (d : Dev) : Work → Dev
  | .begin => d.beginNext (fun c => opcodeOf c.op)
  | .office => d.evaluate
  | .granted i => d.tellGranted i
  | .gaveUp i => d.tellGaveUp i
  | .latched col row => d.tellLatched col row
  | .cycled col => d.cycleAction col
  | .stopLine r code => d.stopRes r code
  | .enterSlw cause => d.enterSlw cause
  | .restart thermal => d.fullRestart thermal
  | .blockReset r => d.blockReset r
  | .refill g => d.refill g
  | .laneStrike l => d.strike l
  | .laneStall l => d.retireLane l 2
  | .engineStall e => d.engineStalled e
  | .hostRevert => d.revertAll
  | .halt => d.ttShutOff false
  | .fill => d.flushAsking
  | .bound => d.boundWritten
  | .dropped => d.tellDropped
  | .groupMoved g => d.groupMoved g
  | .laneTested => d.laneTested
  | .cooled => d.cooledOff
  | .depotAuto => d.departNow

/-- Work is done in the order it is owed; what it owes in turn joins the end. -/
def Dev.drain : Nat → Dev → Dev
  | 0, d => d
  | n + 1, d => match d.due with
    | [] => d
    | w :: ws => Dev.drain n (({ d with due := ws } : Dev).doWork w)

/-- The watches that look at the whole device after each effect: driven stop lines, the fuse temperature, a departure, a
queued run up, Single-Line Working. Each changes nothing where nothing calls for it. -/
def Dev.watches (d : Dev) : Dev :=
  if d.coreRuns then d.holdStopped.progTemperature.departStep.ttTryQueued.slwUpkeep else d

/-- More work than one command can owe: a bound on the loop (log entry 15). -/
def workBound : Nat := 4096

/-- The device settles: owed work, the watches, and the work those owe; then the trip matrix, which is combinational,
holds every driven column latched (R88). -/
def Dev.settle (d : Dev) : Dev := (((d.drain workBound).watches.drain workBound).watches.drain workBound).latchStep

/-- UNKNOWN_OPCODE: a descriptor whose opcode Table 15-1 does not list is fetched (R370). -/
def unknownOpcode (op : BitVec 8) (c : Desc) (d : Dev) : Dev :=
  match opcodeOf op.toNat with
  | some _ => d
  | none => d.fetchUnknown op.toNat c

/-- A host buffer that cannot be read ends its command before it begins (R361). -/
def OpSpec.unread (sp : OpSpec) (aer : Nat) : OpSpec :=
  { sp with begin := fun c d => d.bufferFailed c.fetch aer, resume := fun c d => some (d.bufferFailed c.fetch aer) }

/-- DMA_ERROR: a read of host memory ends in an error, with the AER status `aer` (R361). -/
def dmaError (what : ReadFailure) (aer : Word) (d : Dev) : Dev :=
  match what with
  | .descriptor n => d.fetchFailed n.val aer.toNat
  | .staged k => d.bufferFailed k.toNat aer.toNat
  | .buffer op c =>
    match opcodeOf op.toNat with
    | none => d.fetchUnknown op.toNat c
    | some sp =>
      let d1 := d.fetch (sp.unread aer.toNat) c
      if d1.hqi.fetches = d.hqi.fetches then d else d1.bufferFailed d1.hqi.fetches aer.toNat

/-- A command's whole effect on the device. -/
def Dev.effect (f : Dev → Dev) (d : Dev) : Dev := (f { d with out := [] }).settle

/-- A command runs: its effect on the device, the queue untouched. -/
def run (f : Dev → Dev) (s : State) : Host.Outcome State Fault Refusal := .next (s.put (s.dev.effect f))

end Sys2Proof.Machine
end

