-- ==== Sys2Proof/Machine/HostCommands.lean ====
section
/-! DEFINITION. The meanings of the host commands: each is the fetch of its descriptor (spec/15_command_reference.md;
spec/14 R370, R377 to R381), by the entry of its opcode. -/
namespace Sys2Proof.Machine

/-- NOP (R396). -/
def execNop (c : Desc) (s : State) : Host.Outcome State Fault Refusal := run (fun d => d.fetch specNop c) s

/-- STATE_SNAPSHOT (R407). -/
def execStateSnapshot (c : Desc) (s : State) : Host.Outcome State Fault Refusal :=
  run (fun d => d.fetch specStateSnapshot c) s

/-- LEDGER_QUERY (R383). -/
def execLedgerQuery (c : Desc) (s : State) : Host.Outcome State Fault Refusal :=
  run (fun d => d.fetch specLedgerQuery c) s

/-- RULEBOOK_COMMIT (R411). -/
def execRulebookCommit (c : Desc) (s : State) : Host.Outcome State Fault Refusal :=
  run (fun d => d.fetch specRulebookCommit c) s

/-- SET_PATTERN (R87). -/
def execSetPattern (c : Desc) (s : State) : Host.Outcome State Fault Refusal :=
  run (fun d => d.fetch specSetPattern c) s

/-- GROUP_CONFIGURE (R126). -/
def execGroupConfigure (c : Desc) (s : State) : Host.Outcome State Fault Refusal :=
  run (fun d => d.fetch specGroupConfigure c) s

/-- GROUP_TARGET (R116). -/
def execGroupTarget (c : Desc) (s : State) : Host.Outcome State Fault Refusal :=
  run (fun d => d.fetch specGroupTarget c) s

/-- GROUP_LIMITS (R118). -/
def execGroupLimits (c : Desc) (s : State) : Host.Outcome State Fault Refusal :=
  run (fun d => d.fetch specGroupLimits c) s

/-- GROUP_ENABLE_ON (R121). -/
def execGroupEnableOn (c : Desc) (s : State) : Host.Outcome State Fault Refusal :=
  run (fun d => d.fetch specGroupEnable c) s

/-- GROUP_ENABLE_OFF (R122). -/
def execGroupEnableOff (c : Desc) (s : State) : Host.Outcome State Fault Refusal :=
  run (fun d => d.fetch specGroupEnable c) s

/-- COEFF_LOAD (R128). -/
def execCoeffLoad (c : Desc) (s : State) : Host.Outcome State Fault Refusal := run (fun d => d.fetch specCoeffLoad c) s

/-- MODEL_LOAD (R145). -/
def execModelLoad (c : Desc) (s : State) : Host.Outcome State Fault Refusal := run (fun d => d.fetch specModelLoad c) s

/-- LEG_CONFIGURE_CONFIGURE (R183). -/
def execLegConfigureConfigure (c : Desc) (s : State) : Host.Outcome State Fault Refusal :=
  run (fun d => d.fetch specLegConfigure c) s

/-- LEG_PARK (R183). -/
def execLegPark (c : Desc) (s : State) : Host.Outcome State Fault Refusal := run (fun d => d.fetch specLegConfigure c) s

/-- LEG_UNPARK (R183). -/
def execLegUnpark (c : Desc) (s : State) : Host.Outcome State Fault Refusal :=
  run (fun d => d.fetch specLegConfigure c) s

/-- LEG_CLEAR_HEALTH (R144). -/
def execLegClearHealth (c : Desc) (s : State) : Host.Outcome State Fault Refusal :=
  run (fun d => d.fetch specLegConfigure c) s

/-- SHED_POLICY (R190). -/
def execShedPolicy (c : Desc) (s : State) : Host.Outcome State Fault Refusal :=
  run (fun d => d.fetch specShedPolicy c) s

/-- BRANCH_CONFIGURE (R238). -/
def execBranchConfigure (c : Desc) (s : State) : Host.Outcome State Fault Refusal :=
  run (fun d => d.fetch specBranchConfigure c) s

/-- BRANCH_SWITCH_ON (R223). -/
def execBranchSwitchOn (c : Desc) (s : State) : Host.Outcome State Fault Refusal :=
  run (fun d => d.fetch specBranchSwitch c) s

/-- BRANCH_SWITCH_OFF (R236). -/
def execBranchSwitchOff (c : Desc) (s : State) : Host.Outcome State Fault Refusal :=
  run (fun d => d.fetch specBranchSwitch c) s

/-- BRANCH_RETRY (R223). -/
def execBranchRetry (c : Desc) (s : State) : Host.Outcome State Fault Refusal :=
  run (fun d => d.fetch specBranchRetry c) s

/-- FEED_CONFIGURE (R202). -/
def execFeedConfigure (c : Desc) (s : State) : Host.Outcome State Fault Refusal :=
  run (fun d => d.fetch specFeedConfigure c) s

/-- FEED_SWITCH_ON (R203). -/
def execFeedSwitchOn (c : Desc) (s : State) : Host.Outcome State Fault Refusal :=
  run (fun d => d.fetch specFeedSwitch c) s

/-- FEED_SWITCH_OFF (R207). -/
def execFeedSwitchOff (c : Desc) (s : State) : Host.Outcome State Fault Refusal :=
  run (fun d => d.fetch specFeedSwitch c) s

/-- FEED_SHARE (R215). -/
def execFeedShare (c : Desc) (s : State) : Host.Outcome State Fault Refusal := run (fun d => d.fetch specFeedShare c) s

/-- STRING_CONFIGURE (R399). -/
def execStringConfigure (c : Desc) (s : State) : Host.Outcome State Fault Refusal :=
  run (fun d => d.fetch specStringConfigure c) s

/-- STRING_CONNECT_ON (R243). -/
def execStringConnectOn (c : Desc) (s : State) : Host.Outcome State Fault Refusal :=
  run (fun d => d.fetch specStringConnect c) s

/-- STRING_CONNECT_OFF (R245). -/
def execStringConnectOff (c : Desc) (s : State) : Host.Outcome State Fault Refusal :=
  run (fun d => d.fetch specStringConnect c) s

/-- ESTIMATOR_SET (R260). -/
def execEstimatorSet (c : Desc) (s : State) : Host.Outcome State Fault Refusal :=
  run (fun d => d.fetch specEstimatorSet c) s

/-- ENTER_DEPOT (R265). -/
def execEnterDepot (c : Desc) (s : State) : Host.Outcome State Fault Refusal :=
  run (fun d => d.fetch specEnterDepot c) s

/-- TIMETABLE_LOAD (R281). -/
def execTimetableLoad (c : Desc) (s : State) : Host.Outcome State Fault Refusal :=
  run (fun d => d.fetch specTimetableLoad c) s

/-- TIMETABLE_RUN_UP (R274). -/
def execTimetableRunUp (c : Desc) (s : State) : Host.Outcome State Fault Refusal :=
  run (fun d => d.fetch specTimetableRun c) s

/-- TIMETABLE_RUN_DOWN (R277). -/
def execTimetableRunDown (c : Desc) (s : State) : Host.Outcome State Fault Refusal :=
  run (fun d => d.fetch specTimetableRun c) s

/-- POL_TRANSACTION (R292). -/
def execPolTransaction (c : Desc) (s : State) : Host.Outcome State Fault Refusal :=
  run (fun d => d.fetch specPolTransaction c) s

/-- AVS_TRANSACTION (R294). -/
def execAvsTransaction (c : Desc) (s : State) : Host.Outcome State Fault Refusal :=
  run (fun d => d.fetch specAvsTransaction c) s

/-- RECORDER_READ (R350). -/
def execRecorderRead (c : Desc) (s : State) : Host.Outcome State Fault Refusal :=
  run (fun d => d.fetch specRecorderRead c) s

/-- CLEAR_NONCE (R352). -/
def execClearNonce (c : Desc) (s : State) : Host.Outcome State Fault Refusal :=
  run (fun d => d.fetch specClearNonce c) s

/-- RECORDER_CLEAR (R354). -/
def execRecorderClear (c : Desc) (s : State) : Host.Outcome State Fault Refusal :=
  run (fun d => d.fetch specRecorderClear c) s

/-- CALENDAR_SET (R40). -/
def execCalendarSet (c : Desc) (s : State) : Host.Outcome State Fault Refusal :=
  run (fun d => d.fetch specCalendarSet c) s

/-- THRESHOLD_SET (R79). -/
def execThresholdSet (c : Desc) (s : State) : Host.Outcome State Fault Refusal :=
  run (fun d => d.fetch specThresholdSet c) s

/-- COMPARATOR_MODE (R86). -/
def execComparatorMode (c : Desc) (s : State) : Host.Outcome State Fault Refusal :=
  run (fun d => d.fetch specComparatorMode c) s

/-- FUSE_READ (R399). -/
def execFuseRead (c : Desc) (s : State) : Host.Outcome State Fault Refusal := run (fun d => d.fetch specFuseRead c) s

/-- FUSE_PROGRAM (R437). -/
def execFuseProgram (c : Desc) (s : State) : Host.Outcome State Fault Refusal :=
  run (fun d => d.fetch specFuseProgram c) s

/-- LIFECYCLE_ADVANCE (R431). -/
def execLifecycleAdvance (c : Desc) (s : State) : Host.Outcome State Fault Refusal :=
  run (fun d => d.fetch specAdvance c) s

/-- BGE_CONFIGURE_INTERVALS (R57). -/
def execBgeConfigureIntervals (c : Desc) (s : State) : Host.Outcome State Fault Refusal :=
  run (fun d => d.fetch specBgeConfigure c) s

/-- BGE_CONFIGURE_SWEEP (R53). -/
def execBgeConfigureSweep (c : Desc) (s : State) : Host.Outcome State Fault Refusal :=
  run (fun d => d.fetch specBgeConfigure c) s

/-- TELEMETRY_STREAM (R447). -/
def execTelemetryStream (c : Desc) (s : State) : Host.Outcome State Fault Refusal :=
  run (fun d => d.fetch specTelemetryStream c) s

/-- INJECT_ARM (R335). -/
def execInjectArm (c : Desc) (s : State) : Host.Outcome State Fault Refusal := run (fun d => d.fetch specInjectArm c) s

/-- INJECT (R336). -/
def execInject (c : Desc) (s : State) : Host.Outcome State Fault Refusal := run (fun d => d.fetch specInject c) s

/-- FAULT_RESUME (R329). -/
def execFaultResume (c : Desc) (s : State) : Host.Outcome State Fault Refusal :=
  run (fun d => d.fetch specFaultResume c) s

end Sys2Proof.Machine
end

