-- ==== Sys2Proof/Machine/Accesses.lean ====
section
/-! DEFINITION. The meanings of register accesses, safety port frames and link events (spec/14 R360 to R366, R384, R388;
spec/18 R440). -/
namespace Sys2Proof.Machine

/-- DB_CQ_WRITE (R367). -/
def execDbCqWrite (n : Fin 4) (value : Word) (s : State) : Host.Outcome State Fault Refusal := run (dbCqWrite n value) s

/-- DB_HEAD_WRITE (R367). -/
def execDbHeadWrite (r : Fin 7) (value : Word) (s : State) : Host.Outcome State Fault Refusal :=
  run (dbHeadWrite r value) s

/-- HQI_RING_ENABLE (R365). -/
def execHqiRingEnable (r : Fin 11) (value : Word) (s : State) : Host.Outcome State Fault Refusal :=
  run (hqiRingEnable r value) s

/-- HQI_RING_DISABLE (R365). -/
def execHqiRingDisable (r : Fin 11) (value : Word) (s : State) : Host.Outcome State Fault Refusal :=
  run (hqiRingDisable r value) s

/-- SYS_BLKRST_WRITE (R419). -/
def execSysBlkrstWrite (blk index : BitVec 8) (s : State) : Host.Outcome State Fault Refusal :=
  run (sysBlkrstWrite blk index) s

/-- IL_FE_CODE_REARM (R321). -/
def execIlFeCodeRearm (s : State) : Host.Outcome State Fault Refusal := run ilFeCodeRearm s

/-- FTA_CP_ENABLE (R81). -/
def execFtaCpEnable (n : Fin 128) (value : Word) (s : State) : Host.Outcome State Fault Refusal :=
  run (ftaCpEnable n value) s

/-- FTA_CP_DISABLE (R81). -/
def execFtaCpDisable (n : Fin 128) (value : Word) (s : State) : Host.Outcome State Fault Refusal :=
  run (ftaCpDisable n value) s

/-- BAR0_WRITE (R440). -/
def execBar0Write (off : BitVec 16) (value : Word) (s : State) : Host.Outcome State Fault Refusal :=
  run (bar0Write off value) s

/-- MALFORMED_ACCESS (R363). -/
def execMalformedAccess (access : HostAccess) (s : State) : Host.Outcome State Fault Refusal :=
  run (malformedAccess access) s

/-- MIRROR_LOW_WORD_READ (R406). -/
def execMirrorLowWordRead (word : Fin 0x3FC00) (s : State) : Host.Outcome State Fault Refusal :=
  run (mirrorLowWordRead word) s

/-- TR_LATCHED_READ (R444). -/
def execTrLatchedRead (flushed : Bool) (s : State) : Host.Outcome State Fault Refusal := run (trLatchedRead flushed) s

/-- SP_NOP (R390). -/
def execSpNop (payload : BitVec 20) (s : State) : Host.Outcome State Fault Refusal := run (spNop payload) s

/-- SP_READ_LO (R390). -/
def execSpReadLo (payload : BitVec 20) (s : State) : Host.Outcome State Fault Refusal := run (spReadLo payload) s

/-- SP_READ_HI (R390). -/
def execSpReadHi (payload : BitVec 20) (s : State) : Host.Outcome State Fault Refusal := run (spReadHi payload) s

/-- SP_HEARTBEAT (R391). -/
def execSpHeartbeat (payload : BitVec 20) (s : State) : Host.Outcome State Fault Refusal := run (spHeartbeat payload) s

/-- SP_HALT (R391). -/
def execSpHalt (payload : BitVec 20) (s : State) : Host.Outcome State Fault Refusal := run (spHalt payload) s

/-- SP_ENTER_SINGLE_LINE (R391). -/
def execSpEnterSingleLine (payload : BitVec 20) (s : State) : Host.Outcome State Fault Refusal :=
  run (spEnterSingleLine payload) s

/-- SP_STATUS (R390). -/
def execSpStatus (payload : BitVec 20) (s : State) : Host.Outcome State Fault Refusal := run (spStatus payload) s

/-- SP_BAD_FRAME (R388). -/
def execSpBadFrame (kind : BadFrame) (cmd : BitVec 4) (s : State) : Host.Outcome State Fault Refusal :=
  run (spBadFrame kind cmd) s

/-- PERST_N (R384). -/
def execPerstN (s : State) : Host.Outcome State Fault Refusal := run perstN s

/-- HOT_RESET (R384). -/
def execHotReset (s : State) : Host.Outcome State Fault Refusal := run hotReset s

/-- LINK_DOWN (R384). -/
def execLinkDown (s : State) : Host.Outcome State Fault Refusal := run linkDown s

/-- LINK_TRAINED (R358). -/
def execLinkTrained (rate : Fin 3) (up : LinkUp) (s : State) : Host.Outcome State Fault Refusal :=
  run (linkTrained rate up) s

/-- FUNCTION_LEVEL_RESET (R384). -/
def execFunctionLevelReset (s : State) : Host.Outcome State Fault Refusal := run functionLevelReset s

/-- D3HOT_ENTRY (R360). -/
def execD3hotEntry (s : State) : Host.Outcome State Fault Refusal := run d3hotEntry s

/-- D3HOT_EXIT (R360). -/
def execD3hotExit (s : State) : Host.Outcome State Fault Refusal := run d3hotExit s

/-- DMA_ERROR (R361). -/
def execDmaError (what : ReadFailure) (aer : Word) (s : State) : Host.Outcome State Fault Refusal :=
  run (dmaError what aer) s

end Sys2Proof.Machine
end

