-- ==== Sys2Proof/Machine/CoreEvents.lean ====
section
/-! DEFINITION. The meanings of timers, supplies, time base, measurement and loop events (spec/02 to spec/06, spec/16). -/
namespace Sys2Proof.Machine

/-- TELEMETRY_FRAME_DUE (R56). -/
def execTelemetryFrameDue (j : Fin 8) (s : State) : Host.Outcome State Fault Refusal := run (telemetryFrameDue j) s

/-- TELEMETRY_WRITE_START (R46). -/
def execTelemetryWriteStart (j : Fin 8) (s : State) : Host.Outcome State Fault Refusal := run (telemetryWriteStart j) s

/-- MSIX_MODERATION_END (R376). -/
def execMsixModerationEnd (vec : Fin 32) (s : State) : Host.Outcome State Fault Refusal := run (msixModerationEnd vec) s

/-- CORE_POWER_ON (R416). -/
def execCorePowerOn (s : State) : Host.Outcome State Fault Refusal := run corePowerOn s

/-- RESET_N (R454). -/
def execResetN (torn : Fin 9) (s : State) : Host.Outcome State Fault Refusal := run (resetN torn) s

/-- VBAK_APPLIED (R41). -/
def execVbakApplied (s : State) : Host.Outcome State Fault Refusal := run vbakApplied s

/-- VBAK_LOST (R38). -/
def execVbakLost (torn : Fin 9) (s : State) : Host.Outcome State Fault Refusal := run (vbakLost torn) s

/-- CORE_SUPPLY_FAIL (R470). -/
def execCoreSupplyFail (loss : SupplyLoss) (s : State) : Host.Outcome State Fault Refusal := run (coreSupplyFail loss) s

/-- VGD_FAIL (R471). -/
def execVgdFail (s : State) : Host.Outcome State Fault Refusal := run vgdFail s

/-- POWER_FAIL_WARNING (R472). -/
def execPowerFailWarning (s : State) : Host.Outcome State Fault Refusal := run powerFailWarning s

/-- BUS_SNS_REARM (R472). -/
def execBusSnsRearm (s : State) : Host.Outcome State Fault Refusal := run busSnsRearm s

/-- KA_WAKE (R267). -/
def execKaWake (src : WakeSource) (s : State) : Host.Outcome State Fault Refusal := run (kaWake src) s

/-- WAKE_ALARM (R267). -/
def execWakeAlarm (s : State) : Host.Outcome State Fault Refusal := run wakeAlarm s

/-- DEPOT_SHUTDOWN (R265). -/
def execDepotShutdown (s : State) : Host.Outcome State Fault Refusal := run depotShutdown s

/-- PWR_EN_HOLD_END (R266). -/
def execPwrEnHoldEnd (s : State) : Host.Outcome State Fault Refusal := run pwrEnHoldEnd s

/-- VPP_WINDOW_CHANGE (R436). -/
def execVppWindowChange (ok : Bool) (s : State) : Host.Outcome State Fault Refusal := run (vppWindowChange ok) s

/-- XREF_LOST (R33). -/
def execXrefLost (s : State) : Host.Outcome State Fault Refusal := run xrefLost s

/-- XREF_RESTORED (R33). -/
def execXrefRestored (s : State) : Host.Outcome State Fault Refusal := run xrefRestored s

/-- X32_LOST (R44). -/
def execX32Lost (s : State) : Host.Outcome State Fault Refusal := run x32Lost s

/-- X32_RECOVERED (R44). -/
def execX32Recovered (s : State) : Host.Outcome State Fault Refusal := run x32Recovered s

/-- X32_MEASUREMENT_DONE (R43). -/
def execX32MeasurementDone (count : BitVec 32) (s : State) : Host.Outcome State Fault Refusal :=
  run (x32MeasurementDone count) s

/-- CAL_TRIM_STEP (R43). -/
def execCalTrimStep (s : State) : Host.Outcome State Fault Refusal := run calTrimStep s

/-- CORE_STALL (R26). -/
def execCoreStall (master : BitVec 8) (access : Fin 5) (transfer : Transfer) (s : State) :
    Host.Outcome State Fault Refusal :=
  run (coreStall master access transfer.target transfer.reaction) s

/-- PACE_WINDOW (R28). -/
def execPaceWindow (ops ticks : Vector (BitVec 16) 6) (s : State) : Host.Outcome State Fault Refusal :=
  run (paceWindow ops ticks) s

/-- PACE_LOW_CLEAR (R31). -/
def execPaceLowClear (s : State) : Host.Outcome State Fault Refusal := run paceLowClear s

/-- CONVERTER_RESULT (R67). -/
def execConverterResult (n : Fin 48) (codes : List (BitVec 12)) (s : State) : Host.Outcome State Fault Refusal :=
  run (converterResult n codes) s

/-- GROUP_SAMPLE_COMPLETE (R105). -/
def execGroupSampleComplete (g : Fin 16) (lanes : ItemLanes) (late : Bool) (s : State) :
    Host.Outcome State Fault Refusal :=
  run (groupSampleComplete g lanes.free late lanes.second) s

/-- MODEL_ITEM (R131). -/
def execModelItem (g : Fin 16) (lane : Fin 6) (s : State) : Host.Outcome State Fault Refusal := run (modelItem g lane) s

/-- INDUCTOR_SAT_CLEARED (R141). -/
def execInductorSatCleared (k : Fin 24) (s : State) : Host.Outcome State Fault Refusal := run (inductorSatCleared k) s

/-- FOLLOWING_ERROR (R146). -/
def execFollowingError (g : Fin 16) (s : State) : Host.Outcome State Fault Refusal := run (followingError g) s

/-- CHECK_ITEM (R156). -/
def execCheckItem (g : Fin 16) (free : Fin 6) (model differs : Bool) (s : State) : Host.Outcome State Fault Refusal :=
  run (checkItem g free model differs) s

/-- VOTE_ITEM (R158). -/
def execVoteItem (third : Fin 6) (agrees : Agreement) (s : State) : Host.Outcome State Fault Refusal :=
  run (voteItem third agrees) s

/-- VOTE_DROPPED (R158). -/
def execVoteDropped (s : State) : Host.Outcome State Fault Refusal := run voteDropped s

/-- SHADOW_LATE (R156). -/
def execShadowLate (g : Fin 16) (s : State) : Host.Outcome State Fault Refusal := run (shadowLate g) s

/-- LANE_SELF_TEST_DONE (R151). -/
def execLaneSelfTestDone (l : Fin 6) (passed : Bool) (s : State) : Host.Outcome State Fault Refusal :=
  run (laneSelfTestDone l passed) s

/-- ESCALATION_STEP (R164). -/
def execEscalationStep (s : State) : Host.Outcome State Fault Refusal := run escalationStep s

/-- RESTORING_STEP (R167). -/
def execRestoringStep (s : State) : Host.Outcome State Fault Refusal := run restoringStep s

/-- GROUP_LIMITING (R111). -/
def execGroupLimiting (g : Fin 16) (s : State) : Host.Outcome State Fault Refusal := run (groupLimiting g) s

/-- SOFT_START_TIMEOUT (R121). -/
def execSoftStartTimeout (g : Fin 16) (s : State) : Host.Outcome State Fault Refusal := run (softStartTimeout g) s

/-- HICCUP_OFF_END (R149). -/
def execHiccupOffEnd (g : Fin 16) (s : State) : Host.Outcome State Fault Refusal := run (hiccupOffEnd g) s

/-- HICCUP_CLEAR (R150). -/
def execHiccupClear (g : Fin 16) (s : State) : Host.Outcome State Fault Refusal := run (hiccupClear g) s

/-- DISCHARGE_TIMEOUT (R195). -/
def execDischargeTimeout (g : Fin 16) (s : State) : Host.Outcome State Fault Refusal := run (dischargeTimeout g) s

/-- SHED_DWELL_END (R188). -/
def execShedDwellEnd (g : Fin 16) (s : State) : Host.Outcome State Fault Refusal := run (shedDwellEnd g) s

/-- PARK_TIME_EXPIRY (R180). -/
def execParkTimeExpiry (k : Fin 24) (s : State) : Host.Outcome State Fault Refusal := run (parkTimeExpiry k) s

/-- LOAD_POINT (R178). -/
def execLoadPoint (k : Fin 24) (centre young : Bool) (s : State) : Host.Outcome State Fault Refusal :=
  run (loadPoint k centre young) s

end Sys2Proof.Machine
end

