-- ==== Sys2Proof/Machine/UnitEvents.lean ====
section
/-! DEFINITION. The meanings of the events of catch points, engines, feeds, branches, strings, rails, the Token Office, the
Interlocking, the Train Register and the test access port (spec/03, spec/07 to spec/13, spec/19). -/
namespace Sys2Proof.Machine

/-- CP_CROSS_TO_FAULT (R82). -/
def execCpCrossToFault (n : Fin 128) (s : State) : Host.Outcome State Fault Refusal := run (cpCrossToFault n) s

/-- CP_RETURN_GOOD (R84). -/
def execCpReturnGood (n : Fin 128) (s : State) : Host.Outcome State Fault Refusal := run (cpReturnGood n) s

/-- THRESHOLD_SETTLED (R83). -/
def execThresholdSettled (n : Fin 128) (beyond : Bool) (s : State) : Host.Outcome State Fault Refusal :=
  run (thresholdSettled n beyond) s

/-- MODE_CHANGE_DONE (R85). -/
def execModeChangeDone (n : Fin 128) (beyond : Bool) (s : State) : Host.Outcome State Fault Refusal :=
  run (modeChangeDone n beyond) s

/-- DRVFLT_ASSERT (R94). -/
def execDrvfltAssert (k : Fin 24) (s : State) : Host.Outcome State Fault Refusal := run (drvfltAssert k) s

/-- DRVFLT_DEASSERT (R94). -/
def execDrvfltDeassert (k : Fin 24) (s : State) : Host.Outcome State Fault Refusal := run (drvfltDeassert k) s

/-- HK_CONVERSION (R73). -/
def execHkConversion (h : BitVec 16) (readback : Bool) (s : State) : Host.Outcome State Fault Refusal :=
  run (hkConversion h readback) s

/-- CC_RESULT (R250). -/
def execCcResult (j : Fin 4) (x : BitVec 24) (s : State) : Host.Outcome State Fault Refusal := run (ccResult j x) s

/-- CALIBRATION_SWEEP_DONE (R53). -/
def execCalibrationSweepDone (cal : Vector (BitVec 16 × BitVec 16) 48) (s : State) : Host.Outcome State Fault Refusal :=
  run (calibrationSweepDone cal) s

/-- DELAY_LINE_CAL (R36). -/
def execDelayLineCal (j : Fin 112) (s : State) : Host.Outcome State Fault Refusal := run (delayLineCal j) s

/-- DELAY_LINE_MEASURED (R36). -/
def execDelayLineMeasured (j : Fin 112) (taps : BitVec 16) (s : State) : Host.Outcome State Fault Refusal :=
  run (delayLineMeasured j taps) s

/-- CAL_STALE (R37). -/
def execCalStale (j : Fin 112) (s : State) : Host.Outcome State Fault Refusal := run (calStale j) s

/-- CONVERTER_CAL_UPDATE (R64). -/
def execConverterCalUpdate (n : Fin 48) (offset gain : BitVec 16) (s : State) : Host.Outcome State Fault Refusal :=
  run (converterCalUpdate n offset gain) s

/-- THRESHOLD_READBACK (R95). -/
def execThresholdReadback (codes : List (BitVec 16)) (s : State) : Host.Outcome State Fault Refusal :=
  run (thresholdReadback codes) s

/-- BGE0_SCRUB_WORD (R49). -/
def execBge0ScrubWord (mem : BitVec 8) (word : BitVec 24) (found : Soundness) (reading : WordReading)
    (last : Bool) (s : State) : Host.Outcome State Fault Refusal :=
  run (bge0ScrubWord mem word found reading.source reading.reader reading.reaction last) s

/-- FUSE_SHADOW_CHECK (R52). -/
def execFuseShadowCheck (upsets : List (Fin 64 × BitVec 72)) (s : State) : Host.Outcome State Fault Refusal :=
  run (fuseShadowCheck upsets) s

/-- WEAR_COMMIT (R54). -/
def execWearCommit (s : State) : Host.Outcome State Fault Refusal := run wearCommit s

/-- PAGE_RETIRE_DONE (R55). -/
def execPageRetireDone (page : BitVec 8) (s : State) : Host.Outcome State Fault Refusal := run (pageRetireDone page) s

/-- BGE_LATE (R58). -/
def execBgeLate (w : Fin 16) (s : State) : Host.Outcome State Fault Refusal := run (bgeLate w) s

/-- INRUSH_TIMEOUT (R206). -/
def execInrushTimeout (f : Fin 4) (s : State) : Host.Outcome State Fault Refusal := run (inrushTimeout f) s

/-- FEED_HOLDOFF_END (R211). -/
def execFeedHoldoffEnd (f : Fin 4) (s : State) : Host.Outcome State Fault Refusal := run (feedHoldoffEnd f) s

/-- FEED_RETRY_CLEAR (R211). -/
def execFeedRetryClear (f : Fin 4) (s : State) : Host.Outcome State Fault Refusal := run (feedRetryClear f) s

/-- FWARN_RELEASE (R216). -/
def execFwarnRelease (f : Fin 4) (s : State) : Host.Outcome State Fault Refusal := run (fwarnRelease f) s

/-- SHARE_PERIOD (R214). -/
def execSharePeriod (j : Fin 2) (s : State) : Host.Outcome State Fault Refusal := run (sharePeriod j) s

/-- BRANCH_MODEL_STEP (R231). -/
def execBranchModelStep (n : Fin 24) (s : State) : Host.Outcome State Fault Refusal := run (branchModelStep n) s

/-- BRANCH_LIMIT_ENGAGE (R229). -/
def execBranchLimitEngage (n : Fin 24) (s : State) : Host.Outcome State Fault Refusal := run (branchLimitEngage n) s

/-- BRANCH_LIMIT_RELEASE (R229). -/
def execBranchLimitRelease (n : Fin 24) (through : Bool) (s : State) : Host.Outcome State Fault Refusal :=
  run (branchLimitRelease n through) s

/-- GATE_UNDERDRIVE (R224). -/
def execGateUnderdrive (n : Fin 24) (s : State) : Host.Outcome State Fault Refusal := run (gateUnderdrive n) s

/-- LIMIT_TIMEOUT (R224). -/
def execLimitTimeout (n : Fin 24) (s : State) : Host.Outcome State Fault Refusal := run (limitTimeout n) s

/-- RAMP_TIMEOUT (R224). -/
def execRampTimeout (n : Fin 24) (s : State) : Host.Outcome State Fault Refusal := run (rampTimeout n) s

/-- BRANCH_HOLDOFF_END (R235). -/
def execBranchHoldoffEnd (n : Fin 24) (s : State) : Host.Outcome State Fault Refusal := run (branchHoldoffEnd n) s

/-- BRANCH_RETRY_CLEAR (R235). -/
def execBranchRetryClear (n : Fin 24) (s : State) : Host.Outcome State Fault Refusal := run (branchRetryClear n) s

/-- BANK_CHECK (R222). -/
def execBankCheck (b : Fin 4) (s : State) : Host.Outcome State Fault Refusal := run (bankCheck b) s

/-- STRING_EVALUATION (R242). -/
def execStringEvaluation (j : Fin 4) (low : Bool) (s : State) : Host.Outcome State Fault Refusal :=
  run (stringEvaluation j low) s

/-- PRE_GAP_END (R244). -/
def execPreGapEnd (j : Fin 4) (s : State) : Host.Outcome State Fault Refusal := run (preGapEnd j) s

/-- PRECHARGE_TIMEOUT (R243). -/
def execPrechargeTimeout (j : Fin 4) (s : State) : Host.Outcome State Fault Refusal := run (prechargeTimeout j) s

/-- CONTACTOR_NO_CLOSE (R243). -/
def execContactorNoClose (j : Fin 4) (s : State) : Host.Outcome State Fault Refusal := run (contactorNoClose j) s

/-- PULL_IN_END (R242). -/
def execPullInEnd (j : Fin 4) (s : State) : Host.Outcome State Fault Refusal := run (pullInEnd j) s

/-- PC_OVERLAP_END (R243). -/
def execPcOverlapEnd (j : Fin 4) (s : State) : Host.Outcome State Fault Refusal := run (pcOverlapEnd j) s

/-- STRING_UNDERVOLTAGE (R243). -/
def execStringUndervoltage (j : Fin 4) (s : State) : Host.Outcome State Fault Refusal := run (stringUndervoltage j) s

/-- OPEN_WAIT_EXPIRY (R243). -/
def execOpenWaitExpiry (j : Fin 4) (s : State) : Host.Outcome State Fault Refusal := run (openWaitExpiry j) s

/-- CONTACTOR_WELDED (R243). -/
def execContactorWelded (j : Fin 4) (s : State) : Host.Outcome State Fault Refusal := run (contactorWelded j) s

/-- HOLDUP_END (R248). -/
def execHoldupEnd (s : State) : Host.Outcome State Fault Refusal := run holdupEnd s

/-- ANCHOR_FULL (R253). -/
def execAnchorFull (j : Fin 4) (s : State) : Host.Outcome State Fault Refusal := run (anchorFull j) s

/-- ANCHOR_EMPTY (R254). -/
def execAnchorEmpty (j : Fin 4) (s : State) : Host.Outcome State Fault Refusal := run (anchorEmpty j) s

/-- ESTIMATOR_CHECKPOINT (R263). -/
def execEstimatorCheckpoint (j : Fin 4) (s : State) : Host.Outcome State Fault Refusal := run (estimatorCheckpoint j) s

/-- STEP_GAP_UP_END (R275). -/
def execStepGapUpEnd (s : State) : Host.Outcome State Fault Refusal := run stepGapUpEnd s

/-- STEP_GAP_DOWN_END (R277). -/
def execStepGapDownEnd (s : State) : Host.Outcome State Fault Refusal := run stepGapDownEnd s

/-- RMON_CHANGE (R272). -/
def execRmonChange (n : Fin 16) (high : Bool) (s : State) : Host.Outcome State Fault Refusal :=
  run (rmonChange n high) s

/-- PG_TIMEOUT (R275). -/
def execPgTimeout (n : Fin 16) (s : State) : Host.Outcome State Fault Refusal := run (pgTimeout n) s

/-- OFF_TIMEOUT (R277). -/
def execOffTimeout (n : Fin 16) (s : State) : Host.Outcome State Fault Refusal := run (offTimeout n) s

/-- DIS_TIME_END (R277). -/
def execDisTimeEnd (n : Fin 16) (s : State) : Host.Outcome State Fault Refusal := run (disTimeEnd n) s

/-- OFF_MIN_END (R274). -/
def execOffMinEnd (s : State) : Host.Outcome State Fault Refusal := run offMinEnd s

/-- HALT_MIN_END (R274). -/
def execHaltMinEnd (s : State) : Host.Outcome State Fault Refusal := run haltMinEnd s

/-- HALT_N_FALL (R282). -/
def execHaltNFall (s : State) : Host.Outcome State Fault Refusal := run haltNFall s

/-- HALT_N_RISE (R282). -/
def execHaltNRise (s : State) : Host.Outcome State Fault Refusal := run haltNRise s

/-- BELL_FRAME_RECEIVED (R285). -/
def execBellFrameReceived (cells : BitVec 8) (s : State) : Host.Outcome State Fault Refusal :=
  run (bellFrameReceived cells) s

/-- BELL_LOST (R287). -/
def execBellLost (s : State) : Host.Outcome State Fault Refusal := run bellLost s

/-- SHED_GAP_END (R327). -/
def execShedGapEnd (s : State) : Host.Outcome State Fault Refusal := run shedGapEnd s

/-- PMBUS_POLL_TIMER (R289). -/
def execPmbusPollTimer (b : Fin 4) (s : State) : Host.Outcome State Fault Refusal := run (pmbusPollTimer b) s

/-- PMBUS_TELE_TIMER (R289). -/
def execPmbusTeleTimer (b : Fin 4) (s : State) : Host.Outcome State Fault Refusal := run (pmbusTeleTimer b) s

/-- PMBUS_TRANSACTION_DONE (R288). -/
def execPmbusTransactionDone (b : Fin 4) (finish : BusEnd) (data : List Byte) (s : State) :
    Host.Outcome State Fault Refusal :=
  run (pmbusTransactionDone b finish.outcome data finish.stuck) s

/-- SMBALERT (R291). -/
def execSmbalert (level : AlertLevel) (s : State) : Host.Outcome State Fault Refusal :=
  run (smbAlert level.bus level.low) s

/-- AVS_FRAME_DONE (R293). -/
def execAvsFrameDone (a : Fin 2) (ack : Fin 4) (status : Fin 32) (data : BitVec 16) (crcOk : Bool) (s : State) :
    Host.Outcome State Fault Refusal :=
  run (avsFrameDone a ack status data crcOk) s

/-- AVS_ALERT (R294). -/
def execAvsAlert (a : Fin 2) (s : State) : Host.Outcome State Fault Refusal := run (avsAlert a) s

/-- AVS_RESYNC_TIMER (R293). -/
def execAvsResyncTimer (a : Fin 2) (s : State) : Host.Outcome State Fault Refusal := run (avsResyncTimer a) s

/-- SURGE_RECOVERED (R302). -/
def execSurgeRecovered (s : State) : Host.Outcome State Fault Refusal := run surgeRecovered s

/-- TOKEN_WAIT_LIMIT (R303). -/
def execTokenWaitLimit (slot : Fin 79) (s : State) : Host.Outcome State Fault Refusal := run (tokenWaitLimit slot) s

/-- TOKEN_DURATION_END (R296). -/
def execTokenDurationEnd (slot : Fin 79) (s : State) : Host.Outcome State Fault Refusal := run (tokenDurationEnd slot) s

/-- SETTLE_WINDOW_CLOSE (R322). -/
def execSettleWindowClose (s : State) : Host.Outcome State Fault Refusal := run settleWindowClose s

/-- HOST_SILENT (R331). -/
def execHostSilent (s : State) : Host.Outcome State Fault Refusal := run hostSilent s

/-- SAFETY_SILENT (R332). -/
def execSafetySilent (s : State) : Host.Outcome State Fault Refusal := run safetySilent s

/-- INJECT_WINDOW_END (R335). -/
def execInjectWindowEnd (s : State) : Host.Outcome State Fault Refusal := run injectWindowEnd s

/-- INJECT_OBSERVATION_END (R337). -/
def execInjectObservationEnd (s : State) : Host.Outcome State Fault Refusal := run injectObservationEnd s

/-- TR_CHECKPOINT (R347). -/
def execTrCheckpoint (s : State) : Host.Outcome State Fault Refusal := run trCheckpoint s

/-- FLUSH_WRITE_DONE (R347). -/
def execFlushWriteDone (s : State) : Host.Outcome State Fault Refusal := run flushWriteDone s

/-- RING_SCAN_DONE (R349). -/
def execRingScanDone (s : State) : Host.Outcome State Fault Refusal := run ringScanDone s

/-- CLEAR_ERASE_DONE (R354). -/
def execClearEraseDone (s : State) : Host.Outcome State Fault Refusal := run clearEraseDone s

/-- NONCE_EXPIRY (R352). -/
def execNonceExpiry (s : State) : Host.Outcome State Fault Refusal := run nonceExpiry s

/-- CLEAR_LOCKOUT_END (R356). -/
def execClearLockoutEnd (s : State) : Host.Outcome State Fault Refusal := run clearLockoutEnd s

/-- RULEBOOK_REWRITE_RETRY (R413). -/
def execRulebookRewriteRetry (s : State) : Host.Outcome State Fault Refusal := run rulebookRewriteRetry s

/-- FUSE_PROGRAMMING_DONE (R438). -/
def execFuseProgrammingDone (missedA weakA missedB weakB : BitVec 72) (s : State) : Host.Outcome State Fault Refusal :=
  run (fuseProgrammingDone missedA weakA missedB weakB) s

/-- UNKNOWN_OPCODE (R370). -/
def execUnknownOpcode (op : BitVec 8) (c : Desc) (s : State) : Host.Outcome State Fault Refusal :=
  run (unknownOpcode op c) s

/-- RESET_N_RELEASE (R454). -/
def execResetNRelease (s : State) : Host.Outcome State Fault Refusal := run resetNRelease s

/-- TAP_TCK_EDGE (R461). -/
def execTapTckEdge (tms tdi : Bool) (pins : BitVec 167) (s : State) : Host.Outcome State Fault Refusal :=
  run (tapTckEdge tms tdi pins) s

/-- LIM_WARN_EXPIRY (R217). -/
def execLimWarnExpiry (f : Fin 4) (s : State) : Host.Outcome State Fault Refusal := run (limWarnExpiry f) s

/-- STRIKE_FORGOTTEN (R159). -/
def execStrikeForgotten (l : Fin 6) (s : State) : Host.Outcome State Fault Refusal := run (strikeForgotten l) s

end Sys2Proof.Machine
end

