-- ==== Sys2Proof/Machine/Dispatch.lean ====
section
/-! DEFINITION. The dispatch: one arm for each constructor of Instr, each one direct call of a meaning. -/
namespace Sys2Proof.Machine

def exec (i : Instr) (s : State) : Host.Outcome State Fault Refusal :=
  match i with
  | .nop c => Sys2Proof.Machine.execNop c s
  | .stateSnapshot c => Sys2Proof.Machine.execStateSnapshot c s
  | .ledgerQuery c => Sys2Proof.Machine.execLedgerQuery c s
  | .rulebookCommit c => Sys2Proof.Machine.execRulebookCommit c s
  | .setPattern c => Sys2Proof.Machine.execSetPattern c s
  | .groupConfigure c => Sys2Proof.Machine.execGroupConfigure c s
  | .groupTarget c => Sys2Proof.Machine.execGroupTarget c s
  | .groupLimits c => Sys2Proof.Machine.execGroupLimits c s
  | .groupEnableOn c => Sys2Proof.Machine.execGroupEnableOn c s
  | .groupEnableOff c => Sys2Proof.Machine.execGroupEnableOff c s
  | .coeffLoad c => Sys2Proof.Machine.execCoeffLoad c s
  | .modelLoad c => Sys2Proof.Machine.execModelLoad c s
  | .legConfigureConfigure c => Sys2Proof.Machine.execLegConfigureConfigure c s
  | .legPark c => Sys2Proof.Machine.execLegPark c s
  | .legUnpark c => Sys2Proof.Machine.execLegUnpark c s
  | .legClearHealth c => Sys2Proof.Machine.execLegClearHealth c s
  | .shedPolicy c => Sys2Proof.Machine.execShedPolicy c s
  | .branchConfigure c => Sys2Proof.Machine.execBranchConfigure c s
  | .branchSwitchOn c => Sys2Proof.Machine.execBranchSwitchOn c s
  | .branchSwitchOff c => Sys2Proof.Machine.execBranchSwitchOff c s
  | .branchRetry c => Sys2Proof.Machine.execBranchRetry c s
  | .feedConfigure c => Sys2Proof.Machine.execFeedConfigure c s
  | .feedSwitchOn c => Sys2Proof.Machine.execFeedSwitchOn c s
  | .feedSwitchOff c => Sys2Proof.Machine.execFeedSwitchOff c s
  | .feedShare c => Sys2Proof.Machine.execFeedShare c s
  | .stringConfigure c => Sys2Proof.Machine.execStringConfigure c s
  | .stringConnectOn c => Sys2Proof.Machine.execStringConnectOn c s
  | .stringConnectOff c => Sys2Proof.Machine.execStringConnectOff c s
  | .estimatorSet c => Sys2Proof.Machine.execEstimatorSet c s
  | .enterDepot c => Sys2Proof.Machine.execEnterDepot c s
  | .timetableLoad c => Sys2Proof.Machine.execTimetableLoad c s
  | .timetableRunUp c => Sys2Proof.Machine.execTimetableRunUp c s
  | .timetableRunDown c => Sys2Proof.Machine.execTimetableRunDown c s
  | .polTransaction c => Sys2Proof.Machine.execPolTransaction c s
  | .avsTransaction c => Sys2Proof.Machine.execAvsTransaction c s
  | .recorderRead c => Sys2Proof.Machine.execRecorderRead c s
  | .clearNonce c => Sys2Proof.Machine.execClearNonce c s
  | .recorderClear c => Sys2Proof.Machine.execRecorderClear c s
  | .calendarSet c => Sys2Proof.Machine.execCalendarSet c s
  | .thresholdSet c => Sys2Proof.Machine.execThresholdSet c s
  | .comparatorMode c => Sys2Proof.Machine.execComparatorMode c s
  | .fuseRead c => Sys2Proof.Machine.execFuseRead c s
  | .fuseProgram c => Sys2Proof.Machine.execFuseProgram c s
  | .lifecycleAdvance c => Sys2Proof.Machine.execLifecycleAdvance c s
  | .bgeConfigureIntervals c => Sys2Proof.Machine.execBgeConfigureIntervals c s
  | .bgeConfigureSweep c => Sys2Proof.Machine.execBgeConfigureSweep c s
  | .telemetryStream c => Sys2Proof.Machine.execTelemetryStream c s
  | .injectArm c => Sys2Proof.Machine.execInjectArm c s
  | .inject c => Sys2Proof.Machine.execInject c s
  | .faultResume c => Sys2Proof.Machine.execFaultResume c s
  | .dbCqWrite n value => Sys2Proof.Machine.execDbCqWrite n value s
  | .dbHeadWrite r value => Sys2Proof.Machine.execDbHeadWrite r value s
  | .hqiRingEnable r value => Sys2Proof.Machine.execHqiRingEnable r value s
  | .hqiRingDisable r value => Sys2Proof.Machine.execHqiRingDisable r value s
  | .sysBlkrstWrite blk index => Sys2Proof.Machine.execSysBlkrstWrite blk index s
  | .ilFeCodeRearm => Sys2Proof.Machine.execIlFeCodeRearm s
  | .ftaCpEnable n value => Sys2Proof.Machine.execFtaCpEnable n value s
  | .ftaCpDisable n value => Sys2Proof.Machine.execFtaCpDisable n value s
  | .bar0Write off value => Sys2Proof.Machine.execBar0Write off value s
  | .malformedAccess access => Sys2Proof.Machine.execMalformedAccess access s
  | .mirrorLowWordRead word => Sys2Proof.Machine.execMirrorLowWordRead word s
  | .trLatchedRead flushed => Sys2Proof.Machine.execTrLatchedRead flushed s
  | .spNop payload => Sys2Proof.Machine.execSpNop payload s
  | .spReadLo payload => Sys2Proof.Machine.execSpReadLo payload s
  | .spReadHi payload => Sys2Proof.Machine.execSpReadHi payload s
  | .spHeartbeat payload => Sys2Proof.Machine.execSpHeartbeat payload s
  | .spHalt payload => Sys2Proof.Machine.execSpHalt payload s
  | .spEnterSingleLine payload => Sys2Proof.Machine.execSpEnterSingleLine payload s
  | .spStatus payload => Sys2Proof.Machine.execSpStatus payload s
  | .spBadFrame kind cmd => Sys2Proof.Machine.execSpBadFrame kind cmd s
  | .perstN => Sys2Proof.Machine.execPerstN s
  | .hotReset => Sys2Proof.Machine.execHotReset s
  | .linkDown => Sys2Proof.Machine.execLinkDown s
  | .linkTrained rate up => Sys2Proof.Machine.execLinkTrained rate up s
  | .functionLevelReset => Sys2Proof.Machine.execFunctionLevelReset s
  | .d3hotEntry => Sys2Proof.Machine.execD3hotEntry s
  | .d3hotExit => Sys2Proof.Machine.execD3hotExit s
  | .dmaError what aer => Sys2Proof.Machine.execDmaError what aer s
  | .telemetryFrameDue j => Sys2Proof.Machine.execTelemetryFrameDue j s
  | .telemetryWriteStart j => Sys2Proof.Machine.execTelemetryWriteStart j s
  | .msixModerationEnd vec => Sys2Proof.Machine.execMsixModerationEnd vec s
  | .corePowerOn => Sys2Proof.Machine.execCorePowerOn s
  | .resetN torn => Sys2Proof.Machine.execResetN torn s
  | .vbakApplied => Sys2Proof.Machine.execVbakApplied s
  | .vbakLost torn => Sys2Proof.Machine.execVbakLost torn s
  | .coreSupplyFail loss => Sys2Proof.Machine.execCoreSupplyFail loss s
  | .vgdFail => Sys2Proof.Machine.execVgdFail s
  | .powerFailWarning => Sys2Proof.Machine.execPowerFailWarning s
  | .busSnsRearm => Sys2Proof.Machine.execBusSnsRearm s
  | .kaWake src => Sys2Proof.Machine.execKaWake src s
  | .wakeAlarm => Sys2Proof.Machine.execWakeAlarm s
  | .depotShutdown => Sys2Proof.Machine.execDepotShutdown s
  | .pwrEnHoldEnd => Sys2Proof.Machine.execPwrEnHoldEnd s
  | .vppWindowChange ok => Sys2Proof.Machine.execVppWindowChange ok s
  | .xrefLost => Sys2Proof.Machine.execXrefLost s
  | .xrefRestored => Sys2Proof.Machine.execXrefRestored s
  | .x32Lost => Sys2Proof.Machine.execX32Lost s
  | .x32Recovered => Sys2Proof.Machine.execX32Recovered s
  | .x32MeasurementDone count => Sys2Proof.Machine.execX32MeasurementDone count s
  | .calTrimStep => Sys2Proof.Machine.execCalTrimStep s
  | .coreStall master access transfer => Sys2Proof.Machine.execCoreStall master access transfer s
  | .paceWindow ops ticks => Sys2Proof.Machine.execPaceWindow ops ticks s
  | .paceLowClear => Sys2Proof.Machine.execPaceLowClear s
  | .converterResult n codes => Sys2Proof.Machine.execConverterResult n codes s
  | .groupSampleComplete g lanes late => Sys2Proof.Machine.execGroupSampleComplete g lanes late s
  | .modelItem g lane => Sys2Proof.Machine.execModelItem g lane s
  | .inductorSatCleared k => Sys2Proof.Machine.execInductorSatCleared k s
  | .followingError g => Sys2Proof.Machine.execFollowingError g s
  | .checkItem g free model differs => Sys2Proof.Machine.execCheckItem g free model differs s
  | .voteItem third agrees => Sys2Proof.Machine.execVoteItem third agrees s
  | .voteDropped => Sys2Proof.Machine.execVoteDropped s
  | .shadowLate g => Sys2Proof.Machine.execShadowLate g s
  | .laneSelfTestDone l passed => Sys2Proof.Machine.execLaneSelfTestDone l passed s
  | .escalationStep => Sys2Proof.Machine.execEscalationStep s
  | .restoringStep => Sys2Proof.Machine.execRestoringStep s
  | .groupLimiting g => Sys2Proof.Machine.execGroupLimiting g s
  | .softStartTimeout g => Sys2Proof.Machine.execSoftStartTimeout g s
  | .hiccupOffEnd g => Sys2Proof.Machine.execHiccupOffEnd g s
  | .hiccupClear g => Sys2Proof.Machine.execHiccupClear g s
  | .dischargeTimeout g => Sys2Proof.Machine.execDischargeTimeout g s
  | .shedDwellEnd g => Sys2Proof.Machine.execShedDwellEnd g s
  | .parkTimeExpiry k => Sys2Proof.Machine.execParkTimeExpiry k s
  | .loadPoint k centre young => Sys2Proof.Machine.execLoadPoint k centre young s
  | .cpCrossToFault n => Sys2Proof.Machine.execCpCrossToFault n s
  | .cpReturnGood n => Sys2Proof.Machine.execCpReturnGood n s
  | .thresholdSettled n beyond => Sys2Proof.Machine.execThresholdSettled n beyond s
  | .modeChangeDone n beyond => Sys2Proof.Machine.execModeChangeDone n beyond s
  | .drvfltAssert k => Sys2Proof.Machine.execDrvfltAssert k s
  | .drvfltDeassert k => Sys2Proof.Machine.execDrvfltDeassert k s
  | .hkConversion h readback => Sys2Proof.Machine.execHkConversion h readback s
  | .ccResult j x => Sys2Proof.Machine.execCcResult j x s
  | .calibrationSweepDone cal => Sys2Proof.Machine.execCalibrationSweepDone cal s
  | .delayLineCal j => Sys2Proof.Machine.execDelayLineCal j s
  | .delayLineMeasured j taps => Sys2Proof.Machine.execDelayLineMeasured j taps s
  | .calStale j => Sys2Proof.Machine.execCalStale j s
  | .converterCalUpdate n offset gain => Sys2Proof.Machine.execConverterCalUpdate n offset gain s
  | .thresholdReadback codes => Sys2Proof.Machine.execThresholdReadback codes s
  | .bge0ScrubWord mem word found reading last => Sys2Proof.Machine.execBge0ScrubWord mem word found reading last s
  | .fuseShadowCheck upsets => Sys2Proof.Machine.execFuseShadowCheck upsets s
  | .wearCommit => Sys2Proof.Machine.execWearCommit s
  | .pageRetireDone page => Sys2Proof.Machine.execPageRetireDone page s
  | .bgeLate w => Sys2Proof.Machine.execBgeLate w s
  | .inrushTimeout f => Sys2Proof.Machine.execInrushTimeout f s
  | .feedHoldoffEnd f => Sys2Proof.Machine.execFeedHoldoffEnd f s
  | .feedRetryClear f => Sys2Proof.Machine.execFeedRetryClear f s
  | .fwarnRelease f => Sys2Proof.Machine.execFwarnRelease f s
  | .sharePeriod j => Sys2Proof.Machine.execSharePeriod j s
  | .branchModelStep n => Sys2Proof.Machine.execBranchModelStep n s
  | .branchLimitEngage n => Sys2Proof.Machine.execBranchLimitEngage n s
  | .branchLimitRelease n through => Sys2Proof.Machine.execBranchLimitRelease n through s
  | .gateUnderdrive n => Sys2Proof.Machine.execGateUnderdrive n s
  | .limitTimeout n => Sys2Proof.Machine.execLimitTimeout n s
  | .rampTimeout n => Sys2Proof.Machine.execRampTimeout n s
  | .branchHoldoffEnd n => Sys2Proof.Machine.execBranchHoldoffEnd n s
  | .branchRetryClear n => Sys2Proof.Machine.execBranchRetryClear n s
  | .bankCheck b => Sys2Proof.Machine.execBankCheck b s
  | .stringEvaluation j low => Sys2Proof.Machine.execStringEvaluation j low s
  | .preGapEnd j => Sys2Proof.Machine.execPreGapEnd j s
  | .prechargeTimeout j => Sys2Proof.Machine.execPrechargeTimeout j s
  | .contactorNoClose j => Sys2Proof.Machine.execContactorNoClose j s
  | .pullInEnd j => Sys2Proof.Machine.execPullInEnd j s
  | .pcOverlapEnd j => Sys2Proof.Machine.execPcOverlapEnd j s
  | .stringUndervoltage j => Sys2Proof.Machine.execStringUndervoltage j s
  | .openWaitExpiry j => Sys2Proof.Machine.execOpenWaitExpiry j s
  | .contactorWelded j => Sys2Proof.Machine.execContactorWelded j s
  | .holdupEnd => Sys2Proof.Machine.execHoldupEnd s
  | .anchorFull j => Sys2Proof.Machine.execAnchorFull j s
  | .anchorEmpty j => Sys2Proof.Machine.execAnchorEmpty j s
  | .estimatorCheckpoint j => Sys2Proof.Machine.execEstimatorCheckpoint j s
  | .stepGapUpEnd => Sys2Proof.Machine.execStepGapUpEnd s
  | .stepGapDownEnd => Sys2Proof.Machine.execStepGapDownEnd s
  | .rmonChange n high => Sys2Proof.Machine.execRmonChange n high s
  | .pgTimeout n => Sys2Proof.Machine.execPgTimeout n s
  | .offTimeout n => Sys2Proof.Machine.execOffTimeout n s
  | .disTimeEnd n => Sys2Proof.Machine.execDisTimeEnd n s
  | .offMinEnd => Sys2Proof.Machine.execOffMinEnd s
  | .haltMinEnd => Sys2Proof.Machine.execHaltMinEnd s
  | .haltNFall => Sys2Proof.Machine.execHaltNFall s
  | .haltNRise => Sys2Proof.Machine.execHaltNRise s
  | .bellFrameReceived cells => Sys2Proof.Machine.execBellFrameReceived cells s
  | .bellLost => Sys2Proof.Machine.execBellLost s
  | .shedGapEnd => Sys2Proof.Machine.execShedGapEnd s
  | .pmbusPollTimer b => Sys2Proof.Machine.execPmbusPollTimer b s
  | .pmbusTeleTimer b => Sys2Proof.Machine.execPmbusTeleTimer b s
  | .pmbusTransactionDone b finish data => Sys2Proof.Machine.execPmbusTransactionDone b finish data s
  | .smbalert level => Sys2Proof.Machine.execSmbalert level s
  | .avsFrameDone a ack status data crcOk => Sys2Proof.Machine.execAvsFrameDone a ack status data crcOk s
  | .avsAlert a => Sys2Proof.Machine.execAvsAlert a s
  | .avsResyncTimer a => Sys2Proof.Machine.execAvsResyncTimer a s
  | .surgeRecovered => Sys2Proof.Machine.execSurgeRecovered s
  | .tokenWaitLimit slot => Sys2Proof.Machine.execTokenWaitLimit slot s
  | .tokenDurationEnd slot => Sys2Proof.Machine.execTokenDurationEnd slot s
  | .settleWindowClose => Sys2Proof.Machine.execSettleWindowClose s
  | .hostSilent => Sys2Proof.Machine.execHostSilent s
  | .safetySilent => Sys2Proof.Machine.execSafetySilent s
  | .injectWindowEnd => Sys2Proof.Machine.execInjectWindowEnd s
  | .injectObservationEnd => Sys2Proof.Machine.execInjectObservationEnd s
  | .trCheckpoint => Sys2Proof.Machine.execTrCheckpoint s
  | .flushWriteDone => Sys2Proof.Machine.execFlushWriteDone s
  | .ringScanDone => Sys2Proof.Machine.execRingScanDone s
  | .clearEraseDone => Sys2Proof.Machine.execClearEraseDone s
  | .nonceExpiry => Sys2Proof.Machine.execNonceExpiry s
  | .clearLockoutEnd => Sys2Proof.Machine.execClearLockoutEnd s
  | .rulebookRewriteRetry => Sys2Proof.Machine.execRulebookRewriteRetry s
  | .fuseProgrammingDone missedA weakA missedB weakB => Sys2Proof.Machine.execFuseProgrammingDone missedA weakA missedB weakB s
  | .unknownOpcode op c => Sys2Proof.Machine.execUnknownOpcode op c s
  | .resetNRelease => Sys2Proof.Machine.execResetNRelease s
  | .tapTckEdge tms tdi pins => Sys2Proof.Machine.execTapTckEdge tms tdi pins s
  | .limWarnExpiry f => Sys2Proof.Machine.execLimWarnExpiry f s
  | .strikeForgotten l => Sys2Proof.Machine.execStrikeForgotten l s

end Sys2Proof.Machine
end

