-- ==== Sys2Proof/Machine/Step.lean ====
section
/-! DEFINITION. One step of the block: the command at the front of the queue runs with the rest of the queue; on an empty
queue one tick of 25 ns passes (log entry 9). -/
namespace Sys2Proof.Machine

/-- A tick in which nothing is commanded. -/
def State.idle (s : State) : State := s.put ({ s.dev with out := [] }.pass 1)

/-- One step. -/
def step (s : State) : Host.Outcome State Fault Refusal :=
  match s.pending with
  | [] => .next s.idle
  | c :: rest => exec c { s with pending := rest }

/-- The command a word of the opcode table spells, put at the front of the queue; the table gives no row any bits, so no
word spells one and the state stays as it is. -/
def State.withFetchWord (s : State) (nbits w : Nat) : State :=
  match Sys2Proof.decodeTableWord nbits w with
  | some c => { s with pending := c :: s.pending }
  | none => s

end Sys2Proof.Machine
end

