-- ==== Sys2Proof/Safety.lean ====
section
/-! DEFINITION. What counts as safe, in the terms that statements use. -/
namespace Sys2Proof.Machine

/-- The device as a command finds it: nothing sent outward yet. -/
def Dev.silent (d : Dev) : Dev := { d with out := [] }

/-- Every column that a driving row of the trip matrix names is latched (spec/03 R81, R88): no output whose fault still
stands can be driven. -/
def Dev.columnsHeld (d : Dev) : Prop := Nat.lor d.trip.latches d.drivenCols = d.trip.latches

/-- The device owes nothing and no watch asks for anything: no stop line is driven, no fuse is being programmed, no
low-power entry and no FAULT_RESUME is under way, no run up waits, and Single-Line Working is not in force. -/
def Dev.quiet (d : Dev) : Prop :=
  d.due = [] ∧ d.il.stopAll = false ∧ d.fuse.run = none ∧ d.shelf.leaving = none ∧ d.tt.queued = none
  ∧ d.sup.resuming = none ∧ d.il.slw = false

/-- Quiet, with every driven column latched: what a command does here is its own effect and nothing besides. -/
def Dev.still (d : Dev) : Prop := d.quiet ∧ d.columnsHeld

/-- The Train Register takes `n` more records and events of every class without reaching the level of an early flush or
the numbers that call for a new sequence bound, with none dropped before, outside Withdrawn (spec/13 R342, R343, R346,
Table 13-5; R357). -/
def Dev.roomFor (d : Dev) (n : Nat) : Prop :=
  d.tr.readOnly = false ∧ d.tr.dropRun = 0 ∧ d.tr.buffer.length + n ≤ 200
  ∧ d.tr.buffer.length + n < bitsOf (d.reg 0x5800) 16 8 ∧ d.tr.next + n + 256 < d.tr.reserve

/-- A descriptor is the next the HQI fetches, no other command is staged, and it passes the checks of Table 14-6 as a
fresh command at the Standard level (spec/14 R370, R377, R378; R386). -/
def Dev.admits (d : Dev) (sp : OpSpec) (c : Desc) : Prop :=
  let e := d.takeOff c.ring.val
  d.fetchTurn = some c.ring.val ∧ d.hqi.staged = [] ∧ c.expert = false ∧ c.resume = false ∧ sp.stdOk = true
  ∧ c.cls.toNat = sp.cls ∧ c.idx < sp.count ∧ c.buffer.toNat % 8 = 0
  ∧ (if d.withdrawn then sp.inWithdrawn else sp.life c e) = true ∧ (d.il.slw = true → sp.inSlw c = true)
  ∧ sp.params c e = true

/-- The open command that an admitted descriptor becomes (R377, R380): fetch number, ledger entry, stages counted. -/
def Dev.opened (d : Dev) (sp : OpSpec) (c : Desc) : OpenCmd :=
  let e := d.takeOff c.ring.val
  ⟨e.hqi.fetches, if sp.ledger then some e.hqi.fetches else none, sp.code, c, true, sp.total c e, 0, false, []⟩

/-- The device as an admitted command begins: the descriptor off its ring, the ledger entry open, the command staged. -/
def Dev.begun (d : Dev) (sp : OpSpec) (c : Desc) : Dev :=
  let e := d.takeOff c.ring.val
  let e1 := if sp.ledger then
      (e.addEntry (newEntry e sp.code c true 0xFF (sp.total c e))).setTotal e.hqi.fetches
        (sp.total c e)
    else e
  { e1 with hqi := { e1.hqi with staged := [d.opened sp c] } }

/-- As `admits`, for a descriptor at the Expert level (spec/01 R12, R13): the HQI lets Expert commands through, the
opcode has an Expert form, and the Train Register has room for the EXPERT record. -/
def Dev.admitsExpert (d : Dev) (sp : OpSpec) (c : Desc) : Prop :=
  let e := d.takeOff c.ring.val
  d.fetchTurn = some c.ring.val ∧ d.hqi.staged = [] ∧ c.expert = true ∧ d.hqi.expertEn = true ∧ c.resume = false
  ∧ sp.expOk = true ∧ c.cls.toNat = sp.cls ∧ c.idx < sp.count ∧ c.buffer.toNat % 8 = 0
  ∧ (if d.withdrawn then sp.inWithdrawn else sp.life c e) = true ∧ (d.il.slw = true → sp.inSlw c = true)
  ∧ sp.params c e = true ∧ d.roomFor 1

/-- A descriptor passes the checks at the level it asks for. -/
def Dev.accepts (d : Dev) (sp : OpSpec) (c : Desc) : Prop := d.admits sp c ∨ d.admitsExpert sp c

/-- The device as an accepted command begins: an Expert command has left its EXPERT record (R13). -/
def Dev.started (d : Dev) (sp : OpSpec) (c : Desc) : Dev :=
  if c.expert then (d.begun sp c).recordNow recExpert (expertPayload sp.code c) else d.begun sp c

/-- The row of Table 15-1 and the descriptor of a host command; no other command of the table is one. -/
def hostCommand : Instr → Option (OpSpec × Desc)
  | .nop c => some (specNop, c)
  | .stateSnapshot c => some (specStateSnapshot, c)
  | .ledgerQuery c => some (specLedgerQuery, c)
  | .rulebookCommit c => some (specRulebookCommit, c)
  | .setPattern c => some (specSetPattern, c)
  | .groupConfigure c => some (specGroupConfigure, c)
  | .groupTarget c => some (specGroupTarget, c)
  | .groupLimits c => some (specGroupLimits, c)
  | .groupEnableOn c => some (specGroupEnable, c)
  | .groupEnableOff c => some (specGroupEnable, c)
  | .coeffLoad c => some (specCoeffLoad, c)
  | .modelLoad c => some (specModelLoad, c)
  | .legConfigureConfigure c => some (specLegConfigure, c)
  | .legPark c => some (specLegConfigure, c)
  | .legUnpark c => some (specLegConfigure, c)
  | .legClearHealth c => some (specLegConfigure, c)
  | .shedPolicy c => some (specShedPolicy, c)
  | .branchConfigure c => some (specBranchConfigure, c)
  | .branchSwitchOn c => some (specBranchSwitch, c)
  | .branchSwitchOff c => some (specBranchSwitch, c)
  | .branchRetry c => some (specBranchRetry, c)
  | .feedConfigure c => some (specFeedConfigure, c)
  | .feedSwitchOn c => some (specFeedSwitch, c)
  | .feedSwitchOff c => some (specFeedSwitch, c)
  | .feedShare c => some (specFeedShare, c)
  | .stringConfigure c => some (specStringConfigure, c)
  | .stringConnectOn c => some (specStringConnect, c)
  | .stringConnectOff c => some (specStringConnect, c)
  | .estimatorSet c => some (specEstimatorSet, c)
  | .enterDepot c => some (specEnterDepot, c)
  | .timetableLoad c => some (specTimetableLoad, c)
  | .timetableRunUp c => some (specTimetableRun, c)
  | .timetableRunDown c => some (specTimetableRun, c)
  | .polTransaction c => some (specPolTransaction, c)
  | .avsTransaction c => some (specAvsTransaction, c)
  | .recorderRead c => some (specRecorderRead, c)
  | .clearNonce c => some (specClearNonce, c)
  | .recorderClear c => some (specRecorderClear, c)
  | .calendarSet c => some (specCalendarSet, c)
  | .thresholdSet c => some (specThresholdSet, c)
  | .comparatorMode c => some (specComparatorMode, c)
  | .fuseRead c => some (specFuseRead, c)
  | .fuseProgram c => some (specFuseProgram, c)
  | .lifecycleAdvance c => some (specAdvance, c)
  | .bgeConfigureIntervals c => some (specBgeConfigure, c)
  | .bgeConfigureSweep c => some (specBgeConfigure, c)
  | .telemetryStream c => some (specTelemetryStream, c)
  | .injectArm c => some (specInjectArm, c)
  | .inject c => some (specInject, c)
  | .faultResume c => some (specFaultResume, c)
  | _ => none

/-- The target class or index of a descriptor is not its opcode's (check 2 of spec/14 Table 14-6). -/
def OpSpec.wrongTarget (sp : OpSpec) (c : Desc) : Prop := c.cls.toNat ≠ sp.cls ∨ sp.count ≤ c.idx

/-- A descriptor asks for a level it may not use (check 3, spec/01 R12). -/
def OpSpec.wrongLevel (sp : OpSpec) (c : Desc) (d : Dev) : Prop :=
  (c.expert = true ∧ d.hqi.expertEn = false) ∨ (c.expert = false ∧ sp.stdOk = false)

/-- A descriptor turned away at a check: its ledger entry, where its opcode takes one, closed at once with no stage
done, and its completion (R370, R381). -/
def Dev.turnedAway (d : Dev) (sp : OpSpec) (c : Desc) (status : Nat) : Dev :=
  let e := d.takeOff c.ring.val
  let total := sp.total c e
  (if sp.ledger then e.addEntry (newEntry e sp.code c false status total) else e).postCompletion sp.code c false status 0
    total []

/-- The state a step starts from with no work left over from the step before. -/
def State.settled (s : State) : Prop := s.dev.due = []

end Sys2Proof.Machine
end

