-- ==== Sys2Proof/Certificates/Slice0/Obligations.lean ====
section
/-! DEFINITION. The statements for the provers. In them `s.dev.silent` is the device as a command finds it, `settle` brings
owed work to its end, and times are in ticks of 25 ns: 40 to the microsecond, 40,000 to the millisecond. -/
open Sys2Proof Sys2Proof.Machine

/-- R366, R367, R373: a doorbell write moves the doorbell index of an enabled ring and nothing else; on a disabled
ring it is ignored; an index at or above the ring's size is counted and, where none was told within the last second,
raised. After a head doorbell EQ_OVERFLOW is posted where events were lost, EQ has a free slot and the function is not
in D3hot. -/
def Obligations.DoorbellWrites : Prop :=
  ∀ s : State, s.dev.still → s.dev.coreRuns = true →
    let d := s.dev.silent
    let bad := fun (r idx : Nat) =>
      (({ d with hqi := { d.hqi with dbErr := held 255 (d.hqi.dbErr + 1) } } : Dev).tell (0x017C * 256 + 166)).raise
        0x017C clsC 166 (doorbellOffset r) idx
    let served := fun (x : Dev) =>
      if x.hqi.eqLost ≠ 0 ∧ (x.ring 8).room = true ∧ x.hqi.d3hot = false then
        ({ x with hqi := { x.hqi with eqLost := 0 } } : Dev).raise 0x017D clsC 166 x.hqi.eqLost
          (x.hqi.eqLostSeq % 2 ^ 32)
      else x
    (∀ (n : Fin 4) (v : Word), (d.ring n.val).en = true → v.toNat % 2 ^ 16 < (d.ring n.val).entries →
      exec (.dbCqWrite n v) s = .next (s.put (d.modRing n.val (fun x => { x with dbIdx := v.toNat % 2 ^ 16 })))) ∧
    (∀ (n : Fin 4) (v : Word), (d.ring n.val).en = false → exec (.dbCqWrite n v) s = .next (s.put d)) ∧
    (∀ (n : Fin 4) (v : Word), (d.ring n.val).en = true → (d.ring n.val).entries ≤ v.toNat % 2 ^ 16 →
      d.mayTell (0x017C * 256 + 166) = true → d.roomFor 1 →
      exec (.dbCqWrite n v) s = .next (s.put (bad n.val (v.toNat % 2 ^ 16)))) ∧
    (∀ (r : Fin 7) (v : Word), d.roomFor 1 → (d.ring (4 + r.val)).en = true →
      v.toNat % 2 ^ 16 < (d.ring (4 + r.val)).entries → exec (.dbHeadWrite r v) s =
        .next (s.put (served (d.modRing (4 + r.val) (fun x => { x with dbIdx := v.toNat % 2 ^ 16 }))))) ∧
    (∀ (r : Fin 7) (v : Word), d.roomFor 1 → (d.ring (4 + r.val)).en = false →
      exec (.dbHeadWrite r v) s = .next (s.put (served d))) ∧
    (∀ (r : Fin 7) (v : Word), d.roomFor 2 → (d.ring (4 + r.val)).en = true →
      (d.ring (4 + r.val)).entries ≤ v.toNat % 2 ^ 16 → d.mayTell (0x017C * 256 + 166) = true →
      exec (.dbHeadWrite r v) s = .next (s.put (served (bad (4 + r.val) (v.toNat % 2 ^ 16)))))

/-- R365: a write of HQI_RING_CFG takes the size while the ring is stopped and the size is legal (a CC takes that of
its CQ, never its own) and the vector; with en it starts a stopped ring whose size and base are legal, with both
indices 0 and the lap that the device writes first, leaves en at 0 where they are not, and keeps an enabled ring as it
is; without en it stops the ring. Nothing else changes but that EQ_OVERFLOW may be posted (R373). -/
def Obligations.RingSetup : Prop :=
  ∀ (s : State) (r : Fin 11) (v : Word), s.dev.still → s.dev.coreRuns = true → s.dev.roomFor 1 →
    let d := s.dev.silent
    let n := bitsOf v.toNat 16 5
    let mapped := fun (x : Dev) =>
      if ringHasVec r.val then x.modRing r.val (fun x => { x with vec := bitsOf v.toNat 8 5 }) else x
    let sized := d.modRing r.val (fun x => { x with log2n := n })
    let paired := if r.val < 4 then sized.modRing (4 + r.val) (fun x => { x with log2n := n }) else sized
    let e := mapped (if (d.ring r.val).en = false ∧ ¬ (4 ≤ r.val ∧ r.val < 8) ∧ sizeLegal r.val n = true then paired else d)
    let size := (e.ring r.val).log2n
    let fits := sizeLegal r.val size = true ∧ (e.ring r.val).base + 2 ^ size * entrySize r.val ≤ 2 ^ 64
    let started := fun (x : Ring) =>
      { x with en := true, devIdx := 0, dbIdx := 0, lap := decide (4 ≤ r.val), stopped := false }
    ((d.ring r.val).en = false → fits →
      exec (.hqiRingEnable r v) s = .next (s.put (e.modRing r.val started).postOverflow)) ∧
    ((d.ring r.val).en = false → ¬ fits → exec (.hqiRingEnable r v) s = .next (s.put e.postOverflow)) ∧
    ((d.ring r.val).en = true → exec (.hqiRingEnable r v) s = .next (s.put e.postOverflow)) ∧
    exec (.hqiRingDisable r v) s = .next (s.put (e.modRing r.val (fun x => { x with en := false })))

/-- R384, R385, Table 14-12: PERST_N, a hot reset, a link down and a function-level reset close the ledger entries of
the open commands, drop the stages of theirs that wait for a boundary or for their bus, and return the HQI's ring
items and configuration space to their defaults, the first three its control items, vectors and MSI-X table and the
link speed too; HQI_LINK_RESET is raised, and nothing else changes. That a function-level reset keeps
Max_Payload_Size, ASPM Control and the AER status is the model's choice (log entry 8). -/
def Obligations.LinkEventsResetTheHqiAlone : Prop :=
  ∀ s : State, s.dev.still → s.dev.coreRuns = true → s.dev.roomFor 1 → s.dev.hqi.heldBack = [] →
    let d := s.dev.silent
    let closed := d.ledger.map (fun e =>
      if e.opened then { e with opened := false, status := 9, uptime := d.core.uptime } else e)
    let onBus := fun (x : BusItem) => match x.use with
      | .user _ => false
      | _ => true
    let onAvs := fun (x : AvsItem) => match x.use with
      | .user _ => false
      | _ => true
    let told := fun (kind : Nat) (h : Hqi) =>
      let shut : Dev := { d with ledger := closed, hqi := h,
                                 groups := d.groups.map (fun x => { x with pend := x.pend.filter (fun p => !p.ofCommand) }),
                                 pmbus := d.pmbus.map (fun m => { m with queue := m.queue.filter onBus }),
                                 avs := d.avs.map (fun m => { m with queue := m.queue.filter onAvs }) }
      Host.Outcome.next (s.put (shut.raise 0x017E clsC 166 (Config.linkKind kind) d.hqi.staged.length))
    let rings := { d.hqi with rings := ringsReset, staged := [], heldBack := [], rotation := 0, d3hot := false }
    let kept := { rings with func := { functionReset with payload256 := d.hqi.func.payload256,
                                                          aspmL1 := d.hqi.func.aspmL1 } }
    let cleared := { rings with expertEn := false, imod := 0, evtVec := evtVecsReset, msix := Vector.replicate 32 msixReset,
                                speed := 0, width := 0, func := functionReset, aer := 0 }
    exec .perstN s = told 0 cleared ∧ exec .hotReset s = told 1 cleared ∧ exec .linkDown s = told 2 cleared
      ∧ exec .functionLevelReset s = told 3 kept

/-- R358, R359, R360, R375: training sets the link's rate and width and the host's setting of the function, D3hot is
entered on a trained link and left again, where nothing was held back and no event was lost; a message that pends is
sent when its vector may send again, and nothing else changes. The setting comes with the training: log entry 8, the
model's choice. -/
def Obligations.LinkStates : Prop :=
  ∀ s : State, s.dev.still → s.dev.coreRuns = true →
    let d := s.dev.silent
    let sent := fun (x : Dev) => forAll (fun v x => x.sendPending v) (indices 32) x
    (∀ (rate : Fin 3) (up : LinkUp), exec (.linkTrained rate up) s = .next (s.put (sent
      { d with hqi := { d.hqi with speed := rate.val + 1, width := if up.two then 2 else 1, func := up.setup } }))) ∧
    (d.hqi.speed ≠ 0 → exec .d3hotEntry s = .next (s.put { d with hqi := { d.hqi with d3hot := true } })) ∧
    (d.hqi.d3hot = true → d.hqi.heldBack = [] → d.hqi.eqLost = 0 → exec .d3hotExit s =
      .next (s.put (sent { d with hqi := { d.hqi with d3hot := false, heldBack := [] } })))

/-- R361: a failed descriptor read at a ring's turn passes its slot, stops fetching from that ring, and is counted,
reported by AER and raised as HQI_DMA_ERROR; a failed read of the buffer of the one staged command ends it with
ABORTED_FAULT. R376: at the end of a moderation interval the owed message is sent, or pends where the vector may not
send, and a next interval begins. -/
def Obligations.HostReadFailuresAndModeration : Prop :=
  ∀ s : State, s.dev.still →
    let d := s.dev.silent
    let failed := fun (e : Dev) (what aer : Nat) =>
      ((({ e with hqi := { e.hqi with dmaErr := held 255 (e.hqi.dmaErr + 1), aer := e.hqi.aer ||| aer } } : Dev).emit (.uncorrectedAer aer)).raise
        0x017B clsB 166 what aer)
    (∀ (n : Fin 4) (aer : Word), d.fetchTurn = some n.val → d.roomFor 1 →
      exec (.dmaError (.descriptor n) aer) s = .next (s.put (failed
        (d.modRing n.val (fun r => { r with stopped := true, devIdx := (r.devIdx + 1) % r.entries })) n.val aer.toNat))) ∧
    (∀ (k : BitVec 32) (aer : Word) (c : OpenCmd), d.hqi.staged = [c] → c.fetch = k.toNat → d.roomFor 1 →
      exec (.dmaError (.staged k) aer) s =
        .next (s.put ((failed d c.desc.tag.toNat aer.toNat).finish k.toNat stAborted []))) ∧
    (∀ vec : Fin 32, d.coreRuns = true → d.core.uptime < 2 ^ 64 → d.hqi.msix[vec].hushed < 2 ^ 64 →
      d.hqi.msix[vec].owed = true → d.hqi.d3hot = false →
      let e := (d.until d.hqi.msix[vec].hushed).modVec vec.val (fun x => { x with owed := false })
      let next := fun (x : MsixVec) => { x with owed := false, hushed := e.core.uptime + e.hqi.imod * 40 }
      exec (.msixModerationEnd vec) s = .next (s.put (if e.hqi.imod = 0 ∨ e.mayMessage vec.val = false
        then e.message vec.val else (e.message vec.val).modVec vec.val next)))

/-- R388 to R391, Table 14-16: while the core runs, a frame of the safety port is answered in the next frame and does
what its command says: nothing (NOP), a word of BAR2 with its high half latched (READ_LO), that half (READ_HI), the
heartbeat with its acknowledgement and consent (HEARTBEAT), the state word (STATUS). A frame with a wrong pattern, and
a discarded frame told about within the last second, change nothing but the port. That HEARTBEAT answers after its own
acknowledgement, that HEARTBEAT alone ends sp_silent and that READ_LO does not look at payload bits [19:18] are the
model's choice (log entry 51). -/
def Obligations.SafetyPortFrames : Prop :=
  ∀ s : State, s.dev.still → s.dev.coreRuns = true →
    let d := s.dev.silent
    (∀ p, exec (.spNop p) s = .next (s.put (d.spFrame d 0 0x0 0))) ∧
    (∀ p : BitVec 20, bitsOf p.toNat 0 18 < 0x400 → exec (.spReadLo p) s = .next (s.put (d.spFrame d 4 0x1 0))) ∧
    (∀ p : BitVec 20, 0x400 ≤ bitsOf p.toNat 0 18 →
      let a := 4 * bitsOf p.toNat 0 18
      (d.wide a).isSome = true → a % 8 = 0 → exec (.spReadLo p) s = .next (s.put (d.spFrame
        (d.modSp (fun x => { x with wordAt := a + 4, wordHi := d.mirror (a + 4),
                                    readLatch := d.mirror a / 2 ^ 16 % 2 ^ 16 })) 0 0x1 (d.mirror a)))) ∧
    (∀ p : BitVec 20, 0x400 ≤ bitsOf p.toNat 0 18 →
      let a := 4 * bitsOf p.toNat 0 18
      ¬ (a % 8 = 0 ∧ (d.wide a).isSome = true) → a ≠ d.sp.wordAt → exec (.spReadLo p) s = .next (s.put (d.spFrame
        (d.modSp (fun x => { x with readLatch := d.mirror a / 2 ^ 16 % 2 ^ 16 })) 0 0x1 (d.mirror a)))) ∧
    (∀ p, exec (.spReadHi p) s = .next (s.put (d.spFrame d 0 0x2 d.sp.readLatch))) ∧
    (∀ p : BitVec 20,
      let left := if bitOf p.toNat 16 then d.il.sirq.filter (· != bitsOf p.toNat 0 16) else d.il.sirq
      exec (.spHeartbeat p) s = .next (s.put (d.spFrame
        { d with il := { d.il with spBeat := d.core.uptime, spSilent := false,
                                   spHold := d.il.spHold && !bitOf p.toNat 17, sirq := left } } 0 0x3 (left.headD 0)))) ∧
    (∀ p, exec (.spStatus p) s = .next (s.put (d.spFrame d 0 0x6 d.spStatusWord))) ∧
    (∀ p, p ≠ 0x5A5A5 → exec (.spHalt p) s = .next (s.put (d.spFrame d 5 0x4 0))) ∧
    (∀ p, p ≠ 0xA5A5A → exec (.spEnterSingleLine p) s = .next (s.put (d.spFrame d 5 0x5 0))) ∧
    (∀ cmd : BitVec 4, d.mayTell (0x017F * 256 + 167) = false → exec (.spBadFrame .crc cmd) s =
      .next (s.put (d.spFrame (d.modSp (fun x => { x with discarded := (x.discarded + 1) % 2 ^ 32,
                                                          crcErr := held 255 (x.crcErr + 1) })) 1 cmd.toNat 0))) ∧
    (∀ cmd : BitVec 4, d.mayTell (0x017F * 256 + 167) = false → exec (.spBadFrame .length cmd) s =
      .next (s.put (d.spFrame (d.modSp (fun x => { x with discarded := (x.discarded + 1) % 2 ^ 32,
                                                          lenErr := held 255 (x.lenErr + 1) })) 2 cmd.toNat 0)))

/-- R391, R330: HALT and ENTER_SINGLE_LINE with their patterns report SAFETY_HALT, with the shut-off of the Timetable
owed, and SAFETY_SINGLE_LINE, with sp_hold set; the device then settles. -/
def Obligations.SafetyPortHaltAndSingleLine : Prop :=
  ∀ s : State, s.dev.coreRuns = true →
    let d := s.dev.silent
    (exec (.spHalt 0x5A5A5) s =
      .next (s.put (d.spFrame ((d.report (det 0x44 160 0x01 accWrite (detAddr 0x05 0))).owe .halt) 0 0x4 0).settle)) ∧
    (exec (.spEnterSingleLine 0xA5A5A) s =
      .next (s.put (d.spFrame (({ d with il := { d.il with spHold := true } } : Dev).report
        (det 0x45 161 0x01 accWrite (detAddr 0x05 0))) 0 0x5 0).settle))

/-- R362, R363, R366, R406, R444, R321: a write of the State Mirror, one that is no aligned 32-bit word and a
misaligned one are counted and discarded; a read narrower than its word returns the addressed bytes of that word and
latches nothing; a doorbell reads the last index written to it; a 4-byte read of a low word of a 64-bit item returns
it and latches the high word; TR_SEQ_LO and TR_FLUSHED_LO latch the upper half; a 1 written to IL_FE_CODE.valid rearms
the capture. A read across words of no 64-bit item returns a free value, the model's choice (log entry 6). -/
def Obligations.ReadsAndLatches : Prop :=
  ∀ s : State, s.dev.still → s.dev.coreRuns = true →
    let d := s.dev.silent
    let bad := { d with hqi := { d.hqi with badAccess := held 255 (d.hqi.badAccess + 1) } }
    let told := fun (w off n : Nat) => { d with out := [Out.readData (w / 2 ^ (8 * (off % 4)) % 2 ^ (8 * n))] }
    (∀ (off : BitVec 20) (bs : List Byte), 0x01000 ≤ off.toNat ∨ off.toNat % 4 ≠ 0 ∨ bs.length ≠ 4 →
      exec (.malformedAccess (.write true off bs)) s = .next (s.put bad)) ∧
    (∀ (off : BitVec 20) (bs : List Byte), bs.length ≠ 4 → bs.length ≠ 8 ∨ off.toNat < 0x8000 ∨ off.toNat % 8 ≠ 0 →
      exec (.malformedAccess (.write false off bs)) s = .next (s.put bad)) ∧
    (∀ (off : BitVec 20) (bs : List Byte), bs.length = 4 → off.toNat % 4 ≠ 0 →
      exec (.malformedAccess (.write false off bs)) s = .next (s.put bad)) ∧
    (∀ (off : BitVec 20) (n : Fin 8), off.toNat % 4 + (n.val + 1) ≤ 4 → off.toNat / 4 * 4 ≠ 0x5808 →
      off.toNat / 4 * 4 ≠ 0x5810 → exec (.malformedAccess (.read false off n)) s =
        .next (s.put (told (d.readReg (off.toNat / 4 * 4)) off.toNat (n.val + 1)))) ∧
    (∀ (off : BitVec 20) (n : Fin 8), 0x01000 ≤ off.toNat → n.val < 3 → off.toNat % 4 + (n.val + 1) ≤ 4 →
      exec (.malformedAccess (.read true off n)) s =
        .next (s.put (told (d.mirror (off.toNat / 4 * 4)) off.toNat (n.val + 1)))) ∧
    (∀ r : Fin 11, exec (.malformedAccess (.read true (BitVec.ofNat 20 (doorbellOffset r.val)) 3)) s =
      .next (s.put { d with out := [.readData ((d.ring r.val).dbIdx % 2 ^ 32)] })) ∧
    (∀ (b : Bool) (off : BitVec 20) (n : Fin 8), 4 < off.toNat % 4 + (n.val + 1) → n.val ≠ 7 ∨ off.toNat % 8 ≠ 0 →
      exec (.malformedAccess (.read b off n)) s =
        .next (s.put { d with fresh := d.fresh + 1, out := [.readData (Config.freeWord d.fresh)] })) ∧
    (∀ w : Fin 0x3FC00, let a := 0x1000 + 4 * w.val
      a % 8 = 0 → (d.wide a).isSome = true → exec (.mirrorLowWordRead w) s = .next (s.put
        { d with hqi := { d.hqi with latchAt := a + 4, latchHi := d.mirror (a + 4) }, out := [.readData (d.mirror a)] })) ∧
    (∀ w : Fin 0x3FC00, let a := 0x1000 + 4 * w.val
      a % 8 ≠ 0 → a = d.hqi.latchAt → exec (.mirrorLowWordRead w) s = .next (s.put
        { d with hqi := { d.hqi with latchAt := 0 }, out := [.readData d.hqi.latchHi] })) ∧
    exec (.trLatchedRead true) s = .next (s.put
      { d with tr := { d.tr with latchFl := d.tr.flushed / 2 ^ 32 }, out := [.readData (d.tr.flushed % 2 ^ 32)] }) ∧
    exec (.trLatchedRead false) s = .next (s.put
      { d with tr := { d.tr with latchSeq := d.tr.next / 2 ^ 32 }, out := [.readData (d.tr.next % 2 ^ 32)] }) ∧
    exec .ilFeCodeRearm s =
      .next (s.put { d with il := { d.il with capture := { d.il.capture with valid := false } } })

/-- R440, R441, R363, Table 16-9: a misaligned BAR0 write, and a gated one without expert_en, are counted and
discarded; a write of a Rule Book register takes each RW field, and each RWS field while its owner is stopped, whose
value is no reserved one, and leaves every other field and register as it is, but for what the new value does at once;
a write of HQI_CTRL sets its two fields; a write of SYS_BLKRST naming a resource that is not stopped, or no resource,
is refused; one naming a stopped resource owes its block reset. -/
def Obligations.RegisterWriteGates : Prop :=
  ∀ s : State, s.dev.still → s.dev.coreRuns = true →
    let d := s.dev.silent
    let bad := { d with hqi := { d.hqi with badAccess := held 255 (d.hqi.badAccess + 1) } }
    (∀ (off : BitVec 16) (v : Word), off.toNat % 4 ≠ 0 → exec (.bar0Write off v) s = .next (s.put bad)) ∧
    (∀ (off : BitVec 16) (v : Word), 0x0800 ≤ off.toNat → off.toNat < 0x8000 → off.toNat ≠ 0x5410 →
      gated off.toNat = true → d.hqi.expertEn = false → exec (.bar0Write off v) s = .next (s.put bad)) ∧
    (∀ (off : BitVec 16) (v : Word) (r : RegSpec), regAt off.toNat = some r → sampledGroup off.toNat = none →
      0x0800 ≤ off.toNat → off.toNat < 0x8000 → off.toNat % 4 = 0 → off.toNat ≠ 0x5410 →
      ¬ (0x5500 ≤ off.toNat ∧ off.toNat < 0x5700) → ¬ (0x6040 ≤ off.toNat ∧ off.toNat < 0x6C00) →
      ¬ (0x4400 ≤ off.toNat ∧ off.toNat < 0x4500 ∧ off.toNat % 0x40 = 0x24) → gated off.toNat = true →
      d.hqi.expertEn = true → d.cfg.wf = true →
      let stopped := d.ownerStopped r off.toNat
      let e := takeFields r off.toNat v.toNat stopped r.fields d
      (∀ o, o ≠ off.toNat → e.reg o = d.reg o) ∧
      (∀ f ∈ r.fields, f.access = .ro ∨ f.access = .rws ∧ stopped = false ∨ f.ok v.toNat = false →
        e.field off.toNat f.lo f.width = d.field off.toNat f.lo f.width) ∧
      (∀ f ∈ r.fields, f.access = .rw ∨ f.access = .rws ∧ stopped = true → f.ok v.toNat = true →
        (∀ x : Dev, x.fieldAdmits off.toNat f v.toNat = true) →
        e.field off.toNat f.lo f.width = bitsOf v.toNat f.lo f.width) ∧
      (e.registerAdmits off.toNat v.toNat = true → exec (.bar0Write off v) s =
        .next (s.put ((e.storedReg off.toNat).wrote d off.toNat).settle)) ∧
      (e.registerAdmits off.toNat v.toNat = false → exec (.bar0Write off v) s = .next (s.put d))) ∧
    (∀ v : Word, exec (.bar0Write 0x0100 v) s =
      .next (s.put { d with hqi := { d.hqi with expertEn := bitOf v.toNat 31, imod := bitsOf v.toNat 16 8 } })) ∧
    (∀ blk i : BitVec 8, blk ≠ 0 → d.blockOf blk.toNat i.toNat = none → exec (.sysBlkrstWrite blk i) s =
      .next (s.put { d with core := { d.core with blkIndex := i.toNat, blkRefused := true } })) ∧
    (∀ (blk i : BitVec 8) (r : Res), blk ≠ 0 → d.blockOf blk.toNat i.toNat = some r → exec (.sysBlkrstWrite blk i) s =
      .next (s.put (({ d with core := { d.core with blkIndex := i.toNat, blkRefused := false } } : Dev).owe
        (.blockReset r)).settle))

/-- R81, R441, Table 3-12: enabling a channel that is off takes every field of the word that the register admits, and
the channel settles towards the decision of its side; disabling a channel takes the fields writable at run time, and
the channel is off with its row released; that a threshold settles no more then is the model's choice (log entry 141).
The word is stored with fresh check bits. Nothing else changes, and no column latch falls. -/
def Obligations.ChannelEnable : Prop :=
  ∀ (s : State) (n : Fin 128) (v : Word), s.dev.still → s.dev.coreRuns = true → s.dev.hqi.expertEn = true →
    s.dev.cfg.wf = true →
    let d := s.dev.silent
    let reg := 0x1000 + 4 * n.val
    let frame := fun (u : Dev) => (∀ o, o ≠ reg → u.reg o = d.reg o) ∧ FTA_CP_CFG.mode u n.val = FTA_CP_CFG.mode d n.val
      ∧ FTA_CP_CFG.cls u n.val = bitsOf v.toNat 23 2
      ∧ FTA_CP_CFG.evsrc u n.val = (if bitsOf v.toNat 15 8 ≤ 191 then bitsOf v.toNat 15 8 else FTA_CP_CFG.evsrc d n.val)
      ∧ u.il = (d.storedReg reg).il ∧ ({ u with cfg := d.cfg, cps := d.cps, il := d.il } : Dev) = d
    (FTA_CP_CFG.en d n.val = 0 → (d.cp n.val).side = .off →
      ∃ u, exec (.ftaCpEnable n v) s = .next (s.put u) ∧ FTA_CP_CFG.en u n.val = 1
        ∧ FTA_CP_CFG.hyst u n.val = bitsOf v.toNat 26 3
        ∧ FTA_CP_CFG.dir u n.val = (if 124 ≤ n.val then bitsOf v.toNat 25 1 else FTA_CP_CFG.dir d n.val)
        ∧ u.cps = fileMod d.cps n.val (fun c => { c with side := .deciding, settling := true }) ∧ frame u) ∧
    (FTA_CP_CFG.en d n.val = 1 →
      ∃ u, exec (.ftaCpDisable n v) s = .next (s.put u) ∧ FTA_CP_CFG.en u n.val = 0
        ∧ FTA_CP_CFG.hyst u n.val = FTA_CP_CFG.hyst d n.val ∧ FTA_CP_CFG.dir u n.val = FTA_CP_CFG.dir d n.val
        ∧ u.cps = fileMod d.cps n.val (fun c => { c with side := .off, settling := false }) ∧ frame u)

/-- R396, R407, R383, R400: the commands that only read. Each completes with DONE and every stage, its result words
and what it writes to the host buffer, and changes nothing else: NOP, STATE_SNAPSHOT, LEDGER_QUERY, RECORDER_READ,
FUSE_READ. -/
def Obligations.ReadingCommands : Prop :=
  ∀ (s : State) (c : Desc), s.dev.still →
    let d := s.dev.silent
    (d.admits specNop c → exec (.nop c) s = .next (s.put ((d.begun specNop c).finish (d.opened specNop c).fetch 0 []))) ∧
    (d.admits specStateSnapshot c →
      let e := d.begun specStateSnapshot c
      exec (.stateSnapshot c) s = .next (s.put ((e.toBuffer c (e.mirrorBytes (c.num 20 4) (c.num 24 4 / 4))).commitAll
        (d.opened specStateSnapshot c).fetch 0 [d.core.uptime % 2 ^ 32, d.core.uptime / 2 ^ 32]))) ∧
    (d.admits specLedgerQuery c →
      exec (.ledgerQuery c) s = .next (s.put (((d.begun specLedgerQuery c).toBuffer c (ledgerImage d.ledger)).commitAll
        (d.opened specLedgerQuery c).fetch 0 [d.ledger.length, (d.ledger.getLast?.map (·.fetch)).getD 0]))) ∧
    (d.admits specRecorderRead c →
      let got := ((sortRecs (ringRecords d.tr.ring ++ d.tr.buffer)).filter (fun r => c.num 20 6 ≤ r.seq)).take (c.num 28 2)
      let next := match got.getLast? with
        | some r => r.seq + 1
        | none => min (c.num 20 6) d.tr.next
      exec (.recorderRead c) s = .next (s.put (((d.begun specRecorderRead c).toBuffer c (got.flatMap Rec.bytes)).commitAll
        (d.opened specRecorderRead c).fetch 0
        [got.length + held 65535 (ringTorn d.tr.ring) * 2 ^ 16, next % 2 ^ 32,
         next / 2 ^ 32 % 2 ^ 16 + remainWord d.tr next * 2 ^ 16, depthWord d.tr next]))) ∧
    (d.admits specFuseRead c →
      let x := d.fuse.row c.idx
      exec (.fuseRead c) s = .next (s.put ((d.begun specFuseRead c).commitAll (d.opened specFuseRead c).fetch 0
        [x.shadow.toNat % 2 ^ 32, x.shadow.toNat / 2 ^ 32,
         flag (x.shadow.toNat == 0) + 2 * flag (x.margA || x.margB) + 4 * flag x.bothFail + 8 * flag x.replaced])))

/-- R79, R352, R57, R447: one-stage commands that set the device up: THRESHOLD_SET with a physical threshold on a
channel of the host's, CLEAR_NONCE outside a lockout (the nonce is a free value, log entry 4), BGE_CONFIGURE with
intervals, TELEMETRY_STREAM. R39 to R42, R344: CALENDAR_SET holds the value it loads, with the epoch one higher, until
the next X32 edge, which brings it into force and makes the calendar valid; it rewrites every stored deadline, and
writes a CALENDAR_SET record with the old word, the new word and the tag, stamped with the new calendar and its epoch.
That the validity and the epoch wait for the edge too, and that the record does not, is the model's choice (log entry
119). -/
def Obligations.SettingCommands : Prop :=
  (∀ (s : State) (c : Desc), s.dev.still →
    let d := s.dev.silent
    (d.admits specThresholdSet c → ¬ (96 ≤ c.idx ∧ c.idx ≤ 123) →
      let z := d.thresholdCode c.idx (c.int 20 4)
      let e := d.begun specThresholdSet c
      0 ≤ z → z ≤ 1023 → (c.byte 24 = 0xFF ∨ c.byte 24 = FTA_CP_CFG.hyst d c.idx ∨ FTA_CP_CFG.en d c.idx = 0) →
      exec (.thresholdSet c) s = .next (s.put (((if c.byte 24 = 0xFF then e else e.setField (0x1000 + 4 * c.idx) 26 3
        (c.byte 24)).setThreshold c.idx z.toNat).commitAll (d.opened specThresholdSet c).fetch 0
          [z.toNat, unsignedOf 32 (d.thresholdValue c.idx z.toNat)]))) ∧
    (d.admits specClearNonce c → d.tr.lockEnd ≤ d.core.uptime →
      let n := Config.nonce d.fresh % 2 ^ 128
      let e := d.begun specClearNonce c
      exec (.clearNonce c) s = .next (s.put (({ e with
          fresh := e.fresh + 1,
          tr := { e.tr with nonce := some n, nonceEnd := d.core.uptime + 60 * 40000000 } } : Dev).commitAll
        (d.opened specClearNonce c).fetch 0
        [n % 2 ^ 32, n / 2 ^ 32 % 2 ^ 32, n / 2 ^ 64 % 2 ^ 32, n / 2 ^ 96 % 2 ^ 32]))) ∧
    (d.admits specBgeConfigure c → c.byte 20 = 0 →
      exec (.bgeConfigureIntervals c) s = .next (s.put ((forAll (fun p d => d.setField (0x6000 + 4 * p.1) 0 24 p.2) c.intervals
        (d.begun specBgeConfigure c)).commitAll (d.opened specBgeConfigure c).fetch 0 []))) ∧
    (d.admits specTelemetryStream c →
      let e := d.begun specTelemetryStream c
      exec (.telemetryStream c) s = .next (s.put (((e.modStream c.idx (fun x =>
        { x with en := c.byte 20 == 1, words := c.byte 21, period := c.num 24 4, due := d.core.uptime + c.num 24 4 * 40,
                 list := (indices (c.byte 21)).map (fun j => c.bufWord j / 4) })).beginWork (8 + c.idx)).commitAll (d.opened specTelemetryStream c).fetch 0 [])))) ∧
  (∀ (s : State) (c : Desc), s.dev.still → s.dev.roomFor 1 →
    let d := s.dev.silent
    let w := c.num 20 8
    let k := { d.ka with loading := some ⟨w / 2 ^ 30, bitsOf w 15 15, (d.ka.coming.epoch + 1) % 32768, 0⟩ }
    let old := d.ka.calWord
    let new := w / 2 ^ 30 * 2 ^ 30 + bitsOf w 15 15 * 2 ^ 15 + (d.ka.coming.epoch + 1) % 32768
    let e := d.begun specCalendarSet c
    d.admits specCalendarSet c →
      exec (.calendarSet c) s = .next (s.put (((e.rewriteHolds k).record true [⟨recCalendar, ⟨new, d.core.uptime⟩,
        leBytes old 8 ++ leBytes new 8 ++ leBytes c.tag.toNat 2⟩]).commitAll (d.opened specCalendarSet c).fetch 0
          [old % 2 ^ 32, old / 2 ^ 32, new % 2 ^ 32, new / 2 ^ 32]))
      ∧ ∀ n : Nat, k.count (n + 1) =
        ({ d.ka with seconds := w / 2 ^ 30, subsec := bitsOf w 15 15, epoch := (d.ka.coming.epoch + 1) % 32768,
                     valid := true, loading := none } : KeepAlive).addSub n)

/-- R416, R424, R452, R454, R461, R39, R470, Table 16-7: valid supplies start the core domain with the kind of the
low-power state it left, or hold it while RESET_N is asserted; RESET_N and a supply failure store their cause and stop
it; the release starts a held core domain whose supplies are all valid, and one that lacks a supply waits for it; VGD
may fail while the core runs; VBAK applied and lost reset the keep-alive domain. That a held power-on keeps its kind
for the release is the model's choice (log entry 29), and so is that a lost VBAK itself stops the core with no cause
stored (log entry 27). -/
def Obligations.PowerAndReset : Prop :=
  ∀ s : State,
    let d := s.dev.silent
    let ends := fun (e : Dev) => Host.Outcome.next (s.put e.settle)
    let good : Supplies := ⟨true, true, true, true, true⟩
    let released := { d with core := { d.core with rstIn := false } }
    (d.core.phase = .off →
      let low : LowPower := if d.ka.leaving = .awake then d.ka.lowPower else d.ka.leaving
      let kind := if low = .depot then 4 else if low = .stabled then 3 else 0
      let e := { d with
        tap := if d.core.supplies.vddio then d.tap else tapReset
        core := { d.core with supplies := good, startKind := kind, phase := .held }
        ka := { d.ka with pwrEn := d.ka.vbak, pwrHold := false, lowPower := .awake, leaving := .awake,
                          valid := d.ka.valid && low != LowPower.depot } }
      (d.core.rstIn = true → exec .corePowerOn s = ends e) ∧
      (d.core.rstIn = false → exec .corePowerOn s = ends (e.coldStart kind))) ∧
    (d.coreRuns = true → d.ka.vbak = true → ∀ torn : Fin 9,
      exec (.resetN torn) s = ends ((({ d with
        core := { d.core with rstIn := true, startKind := 1 }
        ka := { d.ka with cause := 2, calDown := d.ka.calWord } } : Dev)).coreStops .held torn.val)) ∧
    (d.core.phase = .held → d.core.supplies = good →
      exec .resetNRelease s = ends (released.coldStart d.core.startKind)) ∧
    (d.core.phase = .held → d.core.supplies.all = false → exec .resetNRelease s = ends released) ∧
    (exec .vgdFail s = ends { d with core := { d.core with supplies := { d.core.supplies with vgd := false } } }) ∧
    (d.coreRuns = true → d.ka.vbak = true → d.core.warnedAt = none → ∀ loss : SupplyLoss,
      exec (.coreSupplyFail loss) s =
        ends ({ d with core := { d.core with supplies := d.core.supplies.lose loss.supply }
                       ka := { d.ka with cause := 1, calDown := d.ka.calWord } }.coreStops .off loss.torn.val)) ∧
    (d.ka.vbak = false → exec .vbakApplied s = ends { d with
      ka := { kaReset (Config.x32Vendor (d.fuse.row 16).copyA.nominal.data).toNat with
              x32Ok := d.ka.x32Ok, x32Runs := d.ka.x32Runs } }) ∧
    (d.ka.vbak = true → d.coreRuns = true → ∀ torn : Fin 9,
      let e := d.coreStops .off torn.val
      exec (.vbakLost torn) s = ends { e with
        core := { e.core with supplies := ⟨false, false, false, false, false⟩ }
        ka := { kaReset 0 with vbak := false, pwrEn := false, x32Ok := d.ka.x32Ok, x32Runs := d.ka.x32Runs } })

/-- R265 to R267, R471, R472, R436: the end of an entry to a low-power state takes PWR_EN away; a wake that counts
raises it, or is held while PWR_EN stays low; the 20 ms end; the alarm; the power-fail warning checkpoints and flushes
once until BUS_SNS rearms it, in a core that runs with no checkpoint the final one any more, which is the model's
choice (log entry 62); VPP enters its window. R265, R266, R456: 1 ms after its completion a departure stores its
cause, stops the core domain and takes PWR_EN low for at least 20 ms, with which the core's supplies go. -/
def Obligations.LowPowerWakesAndWarnings : Prop :=
  (∀ s : State, s.dev.still →
    let d := s.dev.silent
    let ends := fun (e : Dev) => Host.Outcome.next (s.put e.settle)
    (d.coreRuns = true → d.core.warnArmed = true → exec .powerFailWarning s =
      ends (({ d with core := { d.core with warnArmed := false, warnedAt := some d.core.uptime } }.checkpointAll true).flushNow)) ∧
    (d.ka.vbak = true → d.ka.lowPower ≠ .awake → d.ka.pwrHold = false → ∀ src : WakeSource,
      d.ka.arms (d.ka.lowPower == LowPower.depot) src = true → exec (.kaWake src) s = .next (s.put { d with
        ka := { d.ka with pwrEn := true, wakeHeld := none, wakeCause := src.code, leaving := d.ka.lowPower,
                          valid := d.ka.valid && d.ka.lowPower != LowPower.depot, lowPower := .awake } })) ∧
    (d.ka.vbak = true → d.ka.lowPower ≠ .awake → d.ka.pwrHold = true → d.ka.wakeHeld = none → ∀ src : WakeSource,
      d.ka.arms (d.ka.lowPower == LowPower.depot) src = true →
      exec (.kaWake src) s = .next (s.put { d with ka := { d.ka with wakeHeld := some src.code } })) ∧
    (d.ka.vbak = true → d.ka.lowPower = .stabled → d.ka.pwrHold = false → d.ka.alarmEn = true → d.ka.alarmS ≠ 0 →
      d.ka.x32Runs = true → exec .wakeAlarm s = .next (s.put { d with
        ka := { d.ka.toAlarm with pwrEn := true, wakeHeld := none, wakeCause := 6, leaving := .stabled,
                                  lowPower := .awake } })) ∧
    (d.ka.pwrHold = true → d.ka.wakeHeld = none →
      exec .pwrEnHoldEnd s = .next (s.put { d with ka := { d.ka with pwrHold := false } })) ∧
    (d.ka.lowPower = .awake →
      let e := { d with core := { d.core with warnArmed := true } }
      exec .busSnsRearm s = .next (s.put (if d.coreRuns then e.checkpointsLast false else e))) ∧
    exec (.vppWindowChange true) s = .next (s.put { d with fuse := { d.fuse with vppOk := true } })) ∧
  (∀ (s : State) (x : Departing),
    let d := s.dev.silent
    let e := d.until x.offAt
    let f := ({ e with ka := { e.ka with cause := if x.depot then 4 else 3, calDown := e.ka.calWord } } : Dev).coreStops .off 0
    let gone : Supplies := ⟨false, false, false, false, false⟩
    d.shelf.leaving = some x → x.stage = 3 → d.coreRuns = true → d.ka.vbak = true →
    exec .depotShutdown s = .next (s.put ({ f with
      core := { f.core with supplies := gone }
      ka := { f.ka with lowPower := if x.depot then .depot else .stabled, pwrEn := false, pwrHold := true,
                        wakeHeld := d.ka.wakeHeld } } : Dev).settle))

/-- R33, R43, R44: a lost or restored XREF, a lost or recovered X32, and the trim: the measured value where auto_en
lets it, and, 10^6 / (32768 |trim|) seconds after the count before, one subsecond added or dropped by its sign, with
what the interval's rounding to a tick leaves over. A loss found by the core is raised, and so is a further loss that
makes a calendar invalid which has become valid since. The model's choices here: a loss drops a load that waits and
X32 is seen to have run for the last second when it has recovered (log entry 119), and the left-over of the trim is
kept exactly (log entry 50). -/
def Obligations.ReferencesAndTrim : Prop :=
  ∀ s : State, s.dev.still → s.dev.coreRuns = true →
    let d := s.dev.silent
    (d.core.xrefOk = true → d.roomFor 1 → exec .xrefLost s = .next (s.put (({ d with
        core := { d.core with xrefGood := false, xrefOk := false }
        bge := { d.bge with lines := d.bge.lines.map (fun x => { x with measuring := false }) } } : Dev).raise
          0x0180 clsB 168 0 0))) ∧
    exec .xrefRestored s =
      .next (s.put { d with core := { d.core with xrefGood := true, xrefOk := true } }) ∧
    ((d.ka.x32Ok = true ∨ d.ka.valid = true ∨ d.ka.loading.isSome = true) → d.roomFor 1 → exec .x32Lost s = .next (s.put (({ d with
        ka := { d.ka with x32Runs := false, x32Ok := false, valid := false, loading := none } } : Dev).raise
          0x0181 clsC 168 0 0))) ∧
    (d.ka.loading = none →
      exec .x32Recovered s = .next (s.put { d with ka := { d.ka with x32Runs := true, x32Ok := true } })) ∧
    (∀ x, d.ka.loading = some x →
      let k := if x.waited = 0 then d.ka else d.ka.count (min x.waited 40000000 * 64 / 78125)
      exec .x32Recovered s = .next (s.put { d with ka := { k with x32Runs := true, x32Ok := true } })) ∧
    (d.engineRuns 1 = true → d.core.xrefOk = true → d.ka.x32Runs = true → d.core.autoEn = true → ∀ count : BitVec 32,
      let e := d.untilWork 7
      exec (.x32MeasurementDone count) s = .next (s.put (({ e with
        ka := { e.ka with trim := clampI (-500) 500 (roundDiv ((count.toNat : Int) - 40000000) 40) } } : Dev).workDone 7))) ∧
    (d.ka.ticks = true → d.ka.trim ≠ 0 → exec .calTrimStep s = .next (s.put (d.pass d.ka.trimLeft))) ∧
    (d.ka.ticks = true → d.ka.trimRun = 0 → 0 < d.ka.trim → d.ka.trim ≤ 500 →
      d.ka.trimLeft = ceilDiv 1220703125 d.ka.trim.natAbs ∧
      d.ka.trimmed d.ka.trimLeft =
        { d.ka.addSub 1 with trimRun := d.ka.trim * (d.ka.trimLeft : Int) - 1220703125 }) ∧
    (d.ka.ticks = true → d.ka.trimRun = 0 → d.ka.trim < 0 → -500 ≤ d.ka.trim →
      d.ka.trimLeft = ceilDiv 1220703125 d.ka.trim.natAbs ∧
      d.ka.trimmed d.ka.trimLeft =
        { d.ka.addSub (-1) with trimRun := d.ka.trim * (d.ka.trimLeft : Int) + 1220703125 })

/-- R36, R37, R57, R64: at the end of its interval BGE1 measures the twin of a delay line, which swaps at once where
it places sample instants; a line not measured for four intervals is raised as stale with the number of the output or
line it places; at the end of its interval a converter takes the offset and gain measured in its free slots. That
outputs and sample lines are numbered apart in CAL_STALE is the model's choice (log entry 123). -/
def Obligations.DelayLinesAndConverterTrim : Prop :=
  ∀ s : State, s.dev.still → s.dev.coreRuns = true →
    let d := s.dev.silent
    (d.engineRuns 1 = true → d.core.xrefOk = true → ∀ i : Fin 112, exec (.delayLineCal i) s =
      .next (s.put ((d.until (fileGet d.bge.lines i.val default).work.due).modLine i (fun x => { x with measuring := true, swap := false })))) ∧
    (d.engineRuns 1 = true → ∀ (i : Fin 112) (taps : BitVec 16), (fileGet d.bge.lines i.val default).measuring = true →
      let e := d.modLine i (fun x =>
        { x with twin := taps.toNat, measuring := false, swap := true, stale := false,
                 work := ⟨d.core.uptime, d.core.uptime + BGE_INT.interval d 3 * 40⟩ })
      exec (.delayLineMeasured i taps) s = .next (s.put (if 48 ≤ i.val then e.modLine i DelayPair.swapNow else e))) ∧
    (d.roomFor 1 → ∀ i : Fin 112, (fileGet d.bge.lines i.val default).stale = false →
      let w := (fileGet d.bge.lines i.val default).work
      let late := w.began + 4 * (w.due - w.began)
      exec (.calStale i) s = .next (s.put (((d.until late).modLine i (fun x => { x with stale := true })).raise
        0x0182 clsC 171 (if i.val < 48 then i.val else i.val - 48) 0))) ∧
    (d.engineRuns 1 = true → ∀ (n : Fin 48) (offset gain : BitVec 16), 0 < d.freeSlots n.val →
      let e := d.until (d.sar n).work.due
      let next : WorkTime := ⟨e.core.uptime, e.core.uptime + BGE_INT.interval e 4 * 40000⟩
      let f := e.modSar n (fun c => { c with offset := offset.toInt, gain := gain.toNat, work := next })
      exec (.converterCalUpdate n offset gain) s = .next (s.put
        (if f.updatable.any (fun m => decide ((f.sar m).work.lateAt ≤ f.core.uptime)) then f else f.workDone 4)))

/-- R49, R52, R54, R55, R58, R95: the other Background Engines: a word found sound changes nothing until the last of a
sweep; a single-bit error is told and counted; a fuse shadow with one inverted bit is raised and set right, one with
more is raised and stays; thresholds are read back; wear is committed; a worn page moves to a spare one; a late work
is raised once. Each waits for the end of its interval (R57). The model's choices here: three or more inverted bits
count as two (log entry 121), bits of a shadow invert at the check (53), the second word of BGE_LATE is the work's
index and a work begins again at the end of its interval (47), and the first page of a partition stands for all (102).
-/
def Obligations.BackgroundEngines : Prop :=
  ∀ s : State, s.dev.still →
    let d := s.dev.silent
    (d.engineRuns 0 = true → ∀ (mem : BitVec 8) (word : BitVec 24) (src : BitVec 8), memSource mem.toNat src.toNat = true →
      d.il.flips = [] →
      exec (.bge0ScrubWord mem word .sound ⟨src, none, false⟩ false) s = .next (s.put d) ∧
      exec (.bge0ScrubWord mem word .sound ⟨src, none, false⟩ true) s =
        .next (s.put ((d.untilWork (if mem.toNat < 0x10 then 0 else 1)).sweepDone mem.toNat)) ∧
      exec (.bge0ScrubWord mem word .single ⟨src, none, false⟩ false) s =
        .next (s.put (((({ d.unflip mem.toNat word.toNat with
          bge := match memPage mem.toNat word.toNat with
            | some p => d.bge.countWrite p
            | none => d.bge } : Dev).memCorrected mem.toNat word.toNat).memStuck mem.toNat word.toNat).settle))) ∧
    (d.engineRuns 0 = true → (∀ q < 64, (d.fuse.row q).upset = 0) →
      exec (.fuseShadowCheck []) s = .next (s.put ((d.untilWork 2).workDone 2)) ∧
      (d.roomFor 1 → ∀ (r : Fin 64) (m : BitVec 72),
        let e := d.untilWork 2
        (popcount 72 m.toNat = 1 → exec (.fuseShadowCheck [(r, m)]) s =
          .next (s.put ((e.raise 0x0186 clsC 174 r.val 0).workDone 2))) ∧
        (2 ≤ popcount 72 m.toNat → exec (.fuseShadowCheck [(r, m)]) s =
          .next (s.put (((e.modFuseRow r.val (fun x => x.flip m)).raise 0x0186 clsC 174 r.val 0).workDone 2))))) ∧
    (d.engineRuns 1 = true → ∀ codes : List (BitVec 16),
      exec (.thresholdReadback codes) s =
        .next (s.put ((forAll (readbackOne codes) (indices 128) (d.untilWork 5)).workDone 5).settle)) ∧
    (d.engineRuns 2 = true →
      let e := (d.untilWork 6).commitWear.workDone 6
      exec .wearCommit s =
        .next (s.put ({ e with bge := { e.bge with sweptAt := fileMod e.bge.sweptAt 2 (fun _ => e.core.uptime) } } : Dev).settle)) ∧
    (d.engineRuns 2 = true → ∀ page : BitVec 8, page.toNat ∈ d.bge.retiring → 0 < d.bge.spares →
      exec (.pageRetireDone page) s = .next (s.put { d with
        bge := (({ d.bge with
          retiring := d.bge.retiring.filter (· != page.toNat)
          spares := d.bge.spares - 1
          moved := (page.toNat, 0xE8 + (16 - d.bge.spares)) :: d.bge.moved.filter (fun q => q.1 != page.toNat) } :
            Background).countWrite 0xE0).countWrite page.toNat })) ∧
    (d.coreRuns = true → d.roomFor 1 → ∀ w : Fin 16, d.workWatched w = true → bitOf d.bge.late w = false →
      let e := d.until (d.workLateAt w)
      exec (.bgeLate w) s = .next (s.put (({ e with bge := { e.bge with late := putBit e.bge.late w true } } : Dev).raise
        0x0189 clsC (170 + workEngine w) (workEngine w) (if w.val < 7 then w.val else Config.coding 0x0189 w % 2 ^ 32))))

/-- R28, R31, R26, R318: a Pace window sets each lane's Pace and busy share and their sums; a low Pace clears after
100 windows above the floor and is raised in the first window below it; a stalled handshake is reported, and a stalled
lane or Background Engine owes its own action; a stall of a transfer that carries a fault's reaction joins that fault.
The model's choices here: a Pace is rounded down (log entry 124), the aggregate busy fraction is over the scheduled
lanes and a window at the floor is none above it (49), and such a transfer is the newest open fault's with one (135).
-/
def Obligations.PaceAndStalls : Prop :=
  ∀ s : State, s.dev.coreRuns = true →
    let d := s.dev.silent
    (s.dev.still → s.dev.roomFor 1 → ∀ ops ticks : Vector (BitVec 16) 6,
      let pace := Vector.ofFn (fun (l : Fin 6) =>
        if ticks[l].toNat < 40 then d.core.pace[l] else held 0xFFFF (ops[l].toNat * 40 / ticks[l].toNat))
      let sum := fun (f : Nat → Nat) => (d.scheduledLanes.map f).foldl (· + ·) 0
      let agg := sum (fun l => fileGet pace l 0)
      let load := sum (fun l => (fileGet ticks l 0).toNat)
      let span := 400 * d.scheduledLanes.length
      let floor := ELE_PACE.pace_floor d
      let low := floor ≠ 0 ∧ agg < floor
      let e := { d with
        core := { d.core with
          pace := pace
          busy := Vector.ofFn (fun (l : Fin 6) => held 255 (256 * ticks[l].toNat / 400))
          aggregate := agg
          lowest := some (min agg (d.core.lowest.getD agg))
          paceLow := d.core.paceLow || decide low
          paceAbove := if floor < agg then held 100 (d.core.paceAbove + 1) else 0 }
        sup := { d.sup with
          highSince := sinceWhen d.core.uptime d.sup.highSince (decide (ELE_OVR_CFG.ovr_high d * span < 256 * load))
          lowSince := sinceWhen d.core.uptime d.sup.lowSince (decide (256 * load < ELE_OVR_CFG.ovr_low d * span)) } }
      exec (.paceWindow ops ticks) s =
        .next (s.put (if low ∧ d.core.paceLow = false then e.raise 0x011B clsC 22 0 0 else e))) ∧
    (s.dev.still → d.core.paceLow = true → 100 ≤ d.core.paceAbove →
      exec .paceLowClear s = .next (s.put { d with core := { d.core with paceLow := false } })) ∧
    (∀ (m : BitVec 8) (access : Fin 5) (target : BitVec 24) (reaction : Bool), m.toNat ∈ stallMasters →
      let x := fun (src : Nat) => det 0x40 src m.toNat access.val target.toNat
      (0x10 ≤ m.toNat → m.toNat ≤ 0x15 → exec (.coreStall m access ⟨target, reaction⟩) s =
        .next (s.put ((d.reportIn (x m.toNat) reaction).owe (.laneStall (m.toNat - 0x10))).settle)) ∧
      ((m.toNat < 0x10 ∨ 0x15 < m.toNat) → reaction = true → d.newestFault.isSome = true →
        exec (.coreStall m access ⟨target, reaction⟩) s = .next (s.put (d.reportIn (x 160) true).settle)) ∧
      (0x20 ≤ m.toNat → m.toNat ≤ 0x23 → d.il.watched = [] → reaction = false → exec (.coreStall m access ⟨target, reaction⟩) s =
        .next (s.put ((d.report (x 160)).owe (.engineStall (m.toNat - 0x20))).settle)) ∧
      ((m.toNat < 0x10 ∨ 0x23 < m.toNat) → reaction = false →
        exec (.coreStall m access ⟨target, reaction⟩) s = .next (s.put (d.report (x 160)).settle)))

/-- R46, R48, R56, R374, R447: at the end of a stream's period BGE3 reads a frame; a frame that has been read is
written to its ring while nothing else waits, or dropped where the ring has no room. That a frame's count is the one
before it is increased, and that drops include a frame not yet written when the next is due, is the model's choice
(log entry 48). -/
def Obligations.TelemetryFrames : Prop :=
  ∀ (s : State) (j : Fin 8), s.dev.still →
    let d := s.dev.silent
    let x := d.stream j
    d.engineRuns 3 = true →
    (x.en = true →
      let y := { x with due := x.due + x.period * 40, drops := x.drops + flag x.ready.isSome }
      exec (.telemetryFrameDue j) s = .next (s.put ((d.until x.due).modStream j (fun _ =>
        { y with frames := (x.frames + 1) % 2 ^ 16, ready := some ((d.until x.due).frameBody j y) })))) ∧
    (∀ body, x.ready = some body → d.hqi.d3hot = false →
      let r := ringTQ (j.val / 4)
      ((d.ring r).room = true →
        let e := (((d.writeEntry r (leNat (body.take 2)) (body.drop 2)).announce (d.ring r).vec false).modStream j
          (fun x => { x with ready := none })).workDone (8 + j.val)
        exec (.telemetryWriteStart j) s = .next (s.put
          { e with bge := { e.bge with sweptAt := fileMod e.bge.sweptAt 3 (fun _ => d.core.uptime) } })) ∧
      ((d.ring r).room = false → exec (.telemetryWriteStart j) s =
        .next (s.put (d.modStream j (fun x => { x with ready := none, drops := x.drops + 1 })))))

/-- R82 to R85, R94, Table 3-12: a good-side channel whose input crosses drives its row and reports; a fault-side one
beyond its band returns, and its latches stay; a settled threshold or mode decides the side; a DRVFLT input that comes
to stand at the level FTA_DF_CFG.pol selects drives its row and marks its leg, one that leaves that level releases
them. That a mode change which ends while the threshold settles decides no side is the model's choice (log entry 139).
-/
def Obligations.CatchPointsAndDriverFaults : Prop :=
  ∀ s : State,
    let d := s.dev.silent
    let ends := fun (e : Dev) => Host.Outcome.next (s.put e.settle)
    (∀ n : Fin 128, (d.cp n.val).side = .good → exec (.cpCrossToFault n) s =
      ends (((d.modCp n.val (fun c => { c with side := .fault })).reportCrossing n.val).driveRow n.val false)) ∧
    (∀ n : Fin 128, (d.cp n.val).side = .fault → (d.cp n.val).settling = false → exec (.cpReturnGood n) s =
      ends (d.modCp n.val (fun c => { c with side := .good, neverGood := false }))) ∧
    (∀ n : Fin 128, (d.cp n.val).settling = true → (d.cp n.val).side ≠ .off → exec (.thresholdSettled n true) s =
      ends (d.modCp n.val (fun c => { c with side := .good, neverGood := false, settling := false }))) ∧
    (∀ n : Fin 128, (d.cp n.val).settling = true → (d.cp n.val).side = .deciding → exec (.thresholdSettled n false) s =
      ends ((d.modCp n.val (fun c => { c with side := .fault, neverGood := true, settling := false })).driveRow n.val true)) ∧
    (∀ n : Fin 128, (d.cp n.val).settling = true → (d.cp n.val).side = .good → exec (.thresholdSettled n false) s =
      ends ((((d.modCp n.val (fun c => { c with settling := false })).modCp n.val (fun c =>
        { c with side := .fault })).reportCrossing n.val).driveRow n.val false)) ∧
    (∀ (n : Fin 128) (m : Nat) (b : Bool), (d.cp n.val).moving = some m → (d.cp n.val).owner = none →
      (d.cp n.val).settling = true → bitOf d.trip.charged n.val = false → exec (.modeChangeDone n b) s =
        ends ((d.setField (0x1000 + 4 * n.val) 29 2 m).modCp n.val (fun c => { c with moving := none, owner := none }))) ∧
    (∀ (n : Fin 128) (m : Nat), (d.cp n.val).moving = some m → (d.cp n.val).owner = none → (d.cp n.val).settling = false →
      (d.cp n.val).side ≠ .off → bitOf d.trip.charged n.val = false →
      exec (.modeChangeDone n true) s = ends ((d.setField (0x1000 + 4 * n.val) 29 2 m).modCp n.val (fun c =>
        { c with moving := none, owner := none, side := .good, neverGood := false }))) ∧
    (d.coreRuns = true → ∀ k : Fin 24, d.inputAsserted k.val = false →
      let e := ({ d with drv := fileMod d.drv k.val (fun x => { x with level := FTA_DF_CFG.pol d k.val == 1 }) } : Dev).modLeg
        k.val (fun l => { l with absent := some d.core.uptime })
      e.inputAsserted k.val = true ∧ exec (.drvfltAssert k) s = ends (e.driveRow (128 + k.val) d.drv[k].treated)) ∧
    (d.coreRuns = true → ∀ k : Fin 24, d.inputAsserted k.val = true →
      let e := ({ d with drv := fileMod d.drv k.val (fun _ => ⟨FTA_DF_CFG.pol d k.val == 0, false⟩) } : Dev).modLeg k.val
        (fun l => { l with absent := none })
      e.inputAsserted k.val = false ∧ e.rowDrives (128 + k.val) = false ∧ exec (.drvfltDeassert k) s = ends e)

/-- R67 to R69: a converter whose sample is complete holds its result, the sum of its OS codes times 16 / OS with no
rounding, from -32768 to +32752 at every OS, its over-range flag, set when a code is -2048 or +2047, and its filtered
value, and counts over-range results; the sample belongs to the converter's next instant, which its line pair places
at tick E / 400 and round(E mod 400 * N / 400) taps (R35, R65, R66); a feed's current converter then evaluates its
feed, at its instants also while it is stopped; a stopped converter of no feed delivers nothing. That a half of a tap
is rounded up is the model's choice (log entry 130). -/
def Obligations.ConverterResults : Prop :=
  ∀ (s : State) (n : Fin 48) (codes : List (BitVec 12)), s.dev.coreRuns = true →
    let d := s.dev.silent
    let os := d.osOf n.val
    let sum := codes.foldl (fun a c => a + c.toInt) 0
    let x := sum * ((16 / os : Nat) : Int)
    let far := codes.any (fun c => c.toInt == -2048 || c.toInt == 2047)
    (codes.length = os → x * (os : Int) = sum * 16 ∧ -32768 ≤ x ∧ x ≤ 32752) ∧
    (MA_CH_CFG.en d n.val = 1 → codes.length = os →
      let e := ((d.takeHold n.val (d.converterInstant n.val)).modSar n.val (fun c =>
        { c with result := x, exceeds := far, started := true,
                 filtered := if c.started then filterStep c.filtered x (MA_CH_CFG.iir d n.val) else x })).overCheck n.val far
      exec (.converterResult n codes) s = .next (s.put (match d.feedOfConv n.val with
        | some f => (e.feedEvaluate f).settle
        | none => e.settle))) ∧
    (∀ t : Int, 0 ≤ t →
      let c := (d.takeHold n.val t).sar n.val
      let taps := (fileGet d.bge.lines (64 + n.val) default).taps
      c.instant = some t ∧ c.hold = ⟨t.toNat / 400, roundDivN (t.toNat % 400 * taps) 400⟩) ∧
    (MA_CH_CFG.en d n.val = 0 → ∀ f, d.feedOfConv n.val = some f → exec (.converterResult n codes) s =
      .next (s.put ((d.takeHold n.val (d.stoppedInstant n.val f)).feedEvaluate f).settle)) ∧
    (s.dev.still → MA_CH_CFG.en d n.val = 0 → d.feedOfConv n.val = none →
      exec (.converterResult n codes) s = .next (s.put d))

/-- R71, R73, R250, R53: a housekeeping conversion moves the frame on and reaches the user of its input; a coulomb
interval moves charge and uncertainty of its string, or waits until the string is restored; a calibration sweep gives
every converter its offset and gain. -/
def Obligations.HousekeepingCoulombsAndSweeps : Prop :=
  ∀ s : State, s.dev.coreRuns = true →
    let d := s.dev.silent
    let ends := fun (e : Dev) => Host.Outcome.next (s.put e.settle)
    (∀ (h : BitVec 16) (readback : Bool) (i : Nat), d.hkUse.1 = .input i →
      let e := d.until (d.house.doneAt + 40)
      exec (.hkConversion h readback) s = ends (({ e with house :=
        { d.house with position := (d.house.position + 1) % 64, entry := d.hkUse.2, doneAt := e.core.uptime } } :
          Dev).hkTake i h.toNat)) ∧
    (∀ h : BitVec 16, d.hkUse.1 = .background →
      let e := d.until (d.house.doneAt + 40)
      let codes := fileMod d.house.codes 95 (fun _ => some h.toNat)
      exec (.hkConversion h true) s = ends { e with house := { d.house with
        position := (d.house.position + 1) % 64, entry := d.hkUse.2, doneAt := e.core.uptime, codes := codes } }) ∧
    (∀ (j : Fin 4) (x : BitVec 24),
      let cc := d.ccs[j]
      let ms := intervalMs cc.ivl
      let z : Int := if BSM_STR_CFG.cc_pol d j.val = 1 then -x.toInt else x.toInt
      let fs : Int := BSM_STR_CC.fs_cc d j.val
      let dq := -(z * (ms : Int) * fs)
      let grow := (dq.natAbs * BSM_STR_UNC.gain_err d j.val : Nat) + ((d.str j.val).ofs * ms * 2 ^ 23 : Nat) * fs
      let a := { d with
        shelf := if d.shelf.since.isSome then { d.shelf with charge := d.shelf.charge - dq } else d.shelf
        ccs := fileMod d.ccs j.val (fun c => { c with result := z, count := c.count + 1, ivl := MA_CC_CFG.dec d j.val }) }
      let e := a.chooseDec j.val (z * fs)
      let old := (e.str j.val).est
      exec (.ccResult j x) s = ends (if old.live then ((e.modEst j.val (fun y => { y with
          q := y.q + dq
          u := y.u + grow
          e := towardsZero y.e (ceilDiv (old.e0.natAbs * ms) (BSM_STR_ANCH.ramp e j.val * 1000)) })).strExhaust j.val
            old).strStale j.val
        else e.modEst j.val (fun y => { y with early := ⟨dq, grow, ms⟩ :: y.early }))) ∧
    (∀ cal : Vector (BitVec 16 × BitVec 16) 48, d.bge.sweeping = true → d.core.phase = .running →
      exec (.calibrationSweepDone cal) s = ends (d.endSweep cal)) ∧
    (∀ cal : Vector (BitVec 16 × BitVec 16) 48, d.bge.sweeping = true → d.core.phase = .sweeping →
      exec (.calibrationSweepDone cal) s = ends (d.endSweep cal).finishStart)

/-- R65, R101, R105, R114, R123, R155, R163, R195: a group's sample is complete once every running converter of the
group has delivered its result for an instant later than the last. It then reports what is missing, a stopped group
takes what waits for the boundary, one that is STARTING advances its references and, where it waits for its pre-bias,
captures after 8 samples, a running one runs its item, or counts an overrun where it comes late, and a discharging one
watches the discharge. That a GROUP_TARGET may arrive in STARTING is the model's choice (log entry 110). -/
def Obligations.GroupSamples : Prop :=
  ∀ (s : State) (g : Fin 16) (free : Fin 6) (second : Option (BitVec 16)), s.dev.coreRuns = true →
    let d := s.dev.silent
    let ends := fun (e : Dev) => Host.Outcome.next (s.put e.settle)
    (d.completeInstant g.val = none → ∀ late, exec (.groupSampleComplete g ⟨free, second⟩ late) s = ends d) ∧
    (∀ t, d.completeInstant g.val = some t →
      let e := ((d.takeInstant g.val t).missingSamples g.val).preSample g.val
      let b := e.boundary g.val
      let c := (b.advanceRefs g.val).arriveTarget g.val
      let live := (e.group g.val).state = .softStart ∨ (e.group g.val).state = .run ∨ (e.group g.val).state = .stopping
      ((e.group g.val).state.stopped = true → ∀ late, exec (.groupSampleComplete g ⟨free, second⟩ late) s = ends b) ∧
      ((e.group g.val).state = .starting → (b.group g.val).state = .starting → (b.group g.val).waiting = true →
        8 ≤ (b.group g.val).samples.length →
        ∀ late, exec (.groupSampleComplete g ⟨free, second⟩ late) s = ends (c.capture g.val)) ∧
      ((e.group g.val).state = .starting → (b.group g.val).state = .starting → (b.group g.val).waiting = false →
        ∀ late, exec (.groupSampleComplete g ⟨free, second⟩ late) s = ends c) ∧
      (live → (b.group g.val).state.stopped = false → exec (.groupSampleComplete g ⟨free, second⟩ false) s =
        ends ((b.runItem g.val free.val (second.map (·.toNat))).dischargeWatch g.val)) ∧
      (live → exec (.groupSampleComplete g ⟨free, second⟩ true) s = ends ((e.overrunAt g.val).dischargeWatch g.val)))

/-- R131, R141, R146, R156, R111: the plant model of a group runs after a hand-over on a scheduled lane, substituted
phases are compared with their thresholds, and the item's record is kept for the check; a saturated phase is good
again after 1 s in its band; a following error that has lasted fe_time is reported, once while it lasts; a group that
has been limited for limit_report ms is raised, once, until VREG has won as long. That the second of a saturated phase
runs on while its group is stopped is the model's choice (log entry 111). -/
def Obligations.ModelsAndLimits : Prop :=
  ∀ s : State, s.dev.coreRuns = true →
    let d := s.dev.silent
    let ends := fun (e : Dev) => Host.Outcome.next (s.put e.settle)
    (∀ (g : Fin 16) (lane : Fin 6) (l : Nat), d.computes g.val = true → (d.group g.val).model.ready = true →
      d.il.slw = false → ELE_MDL_CFG.model_en d g.val = 1 → ELE_MDL_CFG.fe_mode d g.val = 0 →
      (l = lane.val ∧ lane.val ∈ d.scheduledLanes ∨ lane.val ∉ d.scheduledLanes ∧ d.scheduledLanes.head? = some l) →
      let n := d.modelInput g.val
      let e := if n.due then d.evaluateModel g.val else d
      let f := (forAll (fun p d => if (d.leg p).health = .substituted then d.modelTrip g.val p l else d)
        (e.modelPhases g.val) e).modGroup g.val (fun x => { x with model := { x.model with ready := false } })
      let r : ModelRecord := ⟨g.val, l, n, n.run⟩
      exec (.modelItem g lane) s = ends ((f.modGroup g.val (fun x => { x with modelItem := some r })).mustCheck l
        (.model r))) ∧
    (∀ (k : Fin 24) (g t : Nat), d.groupOfLeg k.val = some g → (d.leg k.val).model.inside = some t →
      (d.leg k.val).health = .saturated → exec (.inductorSatCleared k) s =
        ends (((d.until (t + 40000000)).modPhase g k.val (fun l => { l with health := .good })).refreshLimits g)) ∧
    (∀ (g : Fin 16) (t : Nat), (d.group g.val).watch.feSince = some t → (d.group g.val).watch.feTold = false →
      exec (.followingError g) s =
      ends (((d.until (t + ELE_FE.fe_time d g.val * 10 * 40)).modWatch g.val (fun w => { w with feTold := true })).report
        (det 0x12 g.val (0x10 + (d.group g.val).watch.lastLane) accCompute (detAddr 0x03 g.val)))) ∧
    (∀ (g : Fin 16) (t : Nat), 0 < ELE_GRP_RATIO.limit_report d g.val → (d.group g.val).watch.limiting = false →
      (d.group g.val).watch.nonVreg = some t → exec (.groupLimiting g) s =
        ends (((d.until (t + ELE_GRP_RATIO.limit_report d g.val * 40000)).modWatch g.val
          (fun w => { w with limiting := true })).raise 0x0111 clsC g.val (d.group g.val).watch.limWho 0)) ∧
    (∀ (g : Fin 16) (t : Nat), 0 < ELE_GRP_RATIO.limit_report d g.val → (d.group g.val).watch.limiting = true →
      (d.group g.val).watch.vregSince = some t → exec (.groupLimiting g) s =
        ends ((d.until (t + ELE_GRP_RATIO.limit_report d g.val * 40000)).modWatch g.val (fun w => { w with limiting := false })))

/-- R121, R148 to R150, R195: a soft start that has lasted ss_timeout is reported and faults its group with a retry
owed; the off-time of a hiccup ends in a restart or, in STARTING, in a request for leave; hiccups are forgotten after
hiccup_clear in RUN; a discharge that has lasted dis_timeout is raised and ends. That a restart goes ahead where
hiccup_max has come down meanwhile is the model's choice (log entry 146). -/
def Obligations.GroupTimers : Prop :=
  ∀ (s : State) (g : Fin 16), s.dev.coreRuns = true →
    let d := s.dev.silent
    let x := d.group g.val
    let ends := fun (e : Dev) => Host.Outcome.next (s.put e.settle)
    (x.state = .softStart → exec (.softStartTimeout g) s =
      ends (((d.until (x.watch.ssSince + ELE_GRP_SS.ss_timeout d g.val * 40000)).report
        (det 0x10 g.val (0x10 + x.watch.lastLane) accCompute (detAddr 0x03 g.val))).groupFault g.val true)) ∧
    (∀ t, x.watch.restartAt = some t →
      let e := (d.until t).modWatch g.val (fun w => { w with restartAt := none })
      (x.state = .starting → exec (.hiccupOffEnd g) s = ends (e.groupAsks g.val x.watch.enables.head?)) ∧
      (x.state = .faulted → e.noAutoStart g.val = false → exec (.hiccupOffEnd g) s =
        ends ((e.modWatch g.val (fun w => { w with hiccups := w.hiccups + 1 })).hiccupStart g.val))) ∧
    (x.state = .run → exec (.hiccupClear g) s =
      ends ((d.until (x.watch.runSince + ELE_HICCUP.hiccup_clear d g.val * 10 * 40000)).modWatch g.val
        (fun w => { w with hiccups := 0 }))) ∧
    (d.discharging g.val = true → exec (.dischargeTimeout g) s =
      ends (((d.until (x.watch.disSince + PTU_GRP_DIS.dis_timeout d g.val * 40000)).raise 0x0122 clsC g.val 0 0).endDischarge
        g.val))

/-- R172, R178 to R180, R183, R187, R188, R193: a lightly loaded group sheds its highest good phase at the next
period; a leg whose driver has been absent for the park_time in force is parked; a phase's period starts at a multiple
of the period after its moving offset, and its load points, there and with PTU_GRP_TIM.load at its centre, take
settings, count cycle actions, take what waits and load the edges of all its legs. -/
def Obligations.PhaseTiming : Prop :=
  ∀ s : State, s.dev.coreRuns = true →
    let d := s.dev.silent
    let ends := fun (e : Dev) => Host.Outcome.next (s.put e.settle)
    (∀ (g : Fin 16) (p : Nat), (d.group g.val).state = .run → PTU_GRP_SHED.shed_en d g.val = 1 →
      PTU_GRP_SHED.min_ph d g.val + ((d.phasesOf g.val).filter (fun p => (d.leg p).next == .shed)).length
        < (d.activePhases g.val).length → d.lightLoad g.val = true → d.shedChoice g.val = some p →
      let e := d.until ((d.group g.val).watch.shedSince + PTU_GRP_SHED.shed_dwell d g.val * 40000)
      exec (.shedDwellEnd g) s = ends ((e.modPhase g.val p (fun l => { l with next := .shed })).modWatch g.val
        (fun w => { w with shedSince := e.core.uptime }))) ∧
    (∀ (k : Fin 24) (g t : Nat), d.groupOfLeg k.val = some g → (d.leg k.val).absent = some t →
      (d.leg k.val).state = .idle → (d.leg k.val).parkAuto = true → exec (.parkTimeExpiry k) s =
        ends ((d.until (t + (d.leg k.val).parkTime * 40000)).parkPhase g (d.phaseOfLeg k.val) 2)) ∧
    (∀ (k : Fin 24) (young : Bool), k.val ≠ d.phaseOfLeg k.val → ∀ centre, exec (.loadPoint k centre young) s = ends d) ∧
    (∀ (k : Fin 24) (g : Nat) (young : Bool), d.groupOfLeg k.val = some g → k.val = d.phaseOfLeg k.val →
      let per := (d.group g).rate.switchPeriod
      let o := moveOffset (d.leg k.val).offset (d.leg k.val).target per
      let e := d.startPeriod g k.val
      (0 < per → ∃ n : Nat, (e.leg k.val).startAt = some (o + n * per) ∧ (e.leg k.val).offset = o) ∧
      exec (.loadPoint k false young) s = ends ((((((forAll (fun j d => d.legSettings j) (d.legsOfPhase g k.val) e).countCycles g
        k.val).pastFirst g k.val).takeNext g k.val young).joinDone g k.val).phaseEdges g k.val young false) ∧
      (PTU_GRP_TIM.load d g = 1 → (d.leg k.val).startAt.isSome = true → (d.leg k.val).half = false →
        exec (.loadPoint k true young) s =
          ends (((d.reachCentre g k.val).joinDone g k.val).phaseEdges g k.val young true)))

/-- R156, R158, R159, R161: an item re-executed from its record with the same result, by the spare or by a scheduled
lane other than the one that ran it, counts towards the lane's passes; a difference is raised and waits for a vote
where a third lane is healthy; the vote strikes the lane, or lanes, it convicts; a vote not run in 1 ms fails; a group
unchecked for four periods is raised; strikes leave their window. -/
def Obligations.ChecksAndVotes : Prop :=
  ∀ s : State, s.dev.coreRuns = true →
    let d := s.dev.silent
    let ends := fun (e : Dev) => Host.Outcome.next (s.put e.settle)
    (∀ (g : Fin 16) (free : Fin 6) (model differs : Bool) (r : WorkRecord) (c : Nat), d.il.slw = false →
      d.checkRecord g.val model = some r → d.checkerFor r.lane free.val = some c → d.computes r.group = true →
      d.il.laneCorrupt = none →
      let e := d.checked r
      let bad := differs || r.differs false
      let f := (e.modLane r.lane (fun x => { x with toPass := if x.toPass = 0 then 0 else 1000 })).raise 0x0118 clsC
        (16 + c) r.group (Config.pair r.lane c % 2 ^ 32)
      (bad = false → exec (.checkItem g free model differs) s =
        ends (e.modLane r.lane (fun x => { x with toPass := x.toPass - 1 }))) ∧
      (bad = true → 3 ≤ f.healthyLanes.length → exec (.checkItem g free model differs) s = ends { f with
        sup := { f.sup with votes := f.sup.votes ++ [⟨r.group, r.lane, c, f.core.uptime, false⟩] } }) ∧
      (bad = true → f.healthyLanes.length < 3 →
        exec (.checkItem g free model differs) s = ends (f.voteFail [r.lane, c]))) ∧
    (∀ (v : Vote) (rest : List Vote), d.sup.votes = v :: rest →
      let e := { d with sup := { d.sup with votes := rest } }
      (∀ third : Fin 6, d.il.slw = false → third.val ≠ v.ran → third.val ≠ v.checker →
        (d.lane third.val).state = .scheduled → v.forced = false →
        exec (.voteItem third .ran) s = ends (e.strike v.checker) ∧
        exec (.voteItem third .checker) s = ends (e.strike v.ran) ∧
        exec (.voteItem third .neither) s = ends ((((e.strike v.ran).strike v.checker).strike third.val).voteFail
          [v.ran, v.checker, third.val])) ∧
      exec .voteDropped s = ends (({ d.until (v.since + 40000) with sup := { d.sup with votes := rest } } : Dev).voteFail
        [v.ran, v.checker])) ∧
    (∀ g : Fin 16, d.il.slw = false → d.computes g.val = true → (d.group g.val).watch.lateTold = false →
      let w := (d.group g.val).watch
      let oldest := if d.modelled g.val then min w.lastCheck w.lastModel else w.lastCheck
      exec (.shadowLate g) s = ends (((d.until (oldest + 4 * ELE_LANE_CTRL.check_period d * 40)).modWatch g.val
        (fun w => { w with lateTold := true })).raise 0x0119 clsC g.val 0 0)) ∧
    (∀ (l : Fin 6) (t : Nat), (d.lane l.val).strikes.getLast? = some t →
      let e := d.until (t + ELE_LANE_CTRL.strike_window d * 40000000)
      exec (.strikeForgotten l) s = ends (e.modLane l.val (fun x => { x with strikes := e.liveStrikes l.val })))

/-- R151, R152, R164, R167: a lane that passes its self-test returns, as the spare only while six lanes are healthy,
one that fails retires with cause 3, and what waited for it goes on; the overrun policy takes one step after step_up
and undoes one after step_down. -/
def Obligations.LaneTestsAndOverrunSteps : Prop :=
  ∀ s : State, s.dev.coreRuns = true →
    let d := s.dev.silent
    let ends := fun (e : Dev) => Host.Outcome.next (s.put e.settle)
    (∀ l : Fin 6, (d.lane l.val).state = .testing →
      exec (.laneSelfTestDone l false) s = ends (d.retireLane l.val 3) ∧
      (let back : LaneState := if (d.lane l.val).back = .spare ∧ d.healthyLanes.length = 6 then .spare else .scheduled
       let e := d.modLane l.val (fun x => { x with state := back, cause := 0, health := 0 })
       ((d.lane l.val).health = 0 → exec (.laneSelfTestDone l true) s = ends (e.owe .laneTested)) ∧
       ((d.lane l.val).health ≠ 0 → exec (.laneSelfTestDone l true) s = ends ((e.wroteLearned.stored 0x14 l.val).owe .laneTested)))) ∧
    (∀ t, d.il.slw = false → d.sup.overrunAt = none → d.sup.highSince = some t → exec .escalationStep s =
      ends (d.until (max t d.sup.stepAt + ELE_OVR_CFG.step_up d * 10 * 40)).escalateOnce) ∧
    (∀ t, d.il.slw = false → d.sup.lowSince = some t → exec .restoringStep s =
      ends (d.until (max (max t (d.sup.overrunAt.getD 0)) d.sup.restoreAt + ELE_OVR_CFG.step_down d * 40000)).restoreOnce)

/-- R206, R211, R214, R216, R217, Table 7-1: an inrush that has lasted inrush_timeout is reported and trips its feed;
the end of a hold-off lets it retry; retries clear after retry_clear in ON; FWARN releases after warn_hold; a warning
condition comes to hold; a share period moves the trims of a set, towards 0 while the set is disabled. -/
def Obligations.FeedTimers : Prop :=
  ∀ (s : State) (f : Fin 4), s.dev.coreRuns = true →
    let d := s.dev.silent
    let x := d.feed f.val
    let ends := fun (e : Dev) => Host.Outcome.next (s.put e.settle)
    (x.state = .inrush → exec (.inrushTimeout f) s = ends (((d.until (x.since + FC_INRUSH.inrush_timeout d f.val
      * 40000)).report (det 0x20 (96 + f.val) 0x42 accMeasure (detAddr 0x03 f.val))).feedTrip f.val 4 stAborted)) ∧
    (x.hold.live = true → x.state = .tripped → exec (.feedHoldoffEnd f) s =
      ends ((d.until x.hold.endUp).feedRetry f.val)) ∧
    (x.state = .on → exec (.feedRetryClear f) s = ends ((d.until (x.since + FC_RETRY.retry_clear d f.val
      * 40000000)).modFeed f.val (fun x => { x with retries := 0 }))) ∧
    (∀ t, x.clearAt = some t → x.state = .on → x.warnMask = 0 → exec (.fwarnRelease f) s =
      ends ((d.until (t + FC_TIME.warn_hold d f.val * 40000)).modFeed f.val (fun x =>
        { x with warn := false, clearAt := none }))) ∧
    (∀ g t, d.supplier f.val = some g → (d.group g).watch.warnSince = some t → FC_SOA_T.lim_warn d f.val ≠ 0 →
      exec (.limWarnExpiry f) s = ends ((d.until (t + FC_SOA_T.lim_warn d f.val * 10 * 40)).feedWarn f.val)) ∧
    (∀ j : Fin 2, d.il.slw = false → FC_SHARE.en d j.val = 0 → exec (.sharePeriod j) s =
      ends (forAll (fun f d => d.modTrim f (fun t => towardsZero t (FC_SHARE.step s.dev.silent j.val))) (d.members j.val) d)) ∧
    (∀ j : Fin 2, d.il.slw = false → FC_SHARE.en d j.val = 1 → ((d.members j.val).filter d.participates).length < 2 →
      exec (.sharePeriod j) s = ends (forAll (fun f e =>
        if (d.members j.val).filter d.participates == [f] || (e.feed f).state != .on
        then e.modTrim f (fun t => towardsZero t (FC_SHARE.step d j.val)) else e) (d.members j.val) d))

/-- R222, R224, R229, R231, R235, Table 8-1: a model step moves the thermal nodes and takes the exits that are due;
the limit amplifier takes and releases the gate; the timeouts and a weak gate fall due for the next model step; the
end of a hold-off lets the branch retry; retries clear after retry_clear in ON; a bank compares its sum with its
branches, counts the checks in a row that lie further apart than tol, and raises BANK_MISMATCH once, at bank_persist
of them. -/
def Obligations.BranchTimers : Prop :=
  ∀ (s : State) (n : Fin 24), s.dev.coreRuns = true →
    let d := s.dev.silent
    let x := d.branch n.val
    let ends := fun (e : Dev) => Host.Outcome.next (s.put e.settle)
    let limits := fun (e : Dev) => ((e.branchEnter n.val .limiting).modBranch n.val (fun x =>
      { x with limFrom := e.core.uptime, limits := (x.limits + 1) % 2 ^ 32 })).raiseLimited 0x0130 clsC (64 + n.val)
        (BranchState.code .on) 0
    (∀ e, e = ((d.branchMissing n.val).branchModel n.val).branchExits n.val →
      ((e.branch n.val).state = .ramp → exec (.branchModelStep n) s =
        ends (if e.rampedUp n.val then e.branchOn n.val else e)) ∧
      ((e.branch n.val).state = .on → exec (.branchModelStep n) s =
        ends (if (e.branch n.val).lim = true then limits e else e)) ∧
      (((e.branch n.val).state = .tripped ∨ (e.branch n.val).state = .locked) →
        exec (.branchModelStep n) s = ends (e.branchRetry n.val)) ∧
      (((e.branch n.val).state = .off ∨ (e.branch n.val).state = .starting ∨ (e.branch n.val).state = .limiting) →
        exec (.branchModelStep n) s = ends e)) ∧
    (x.state = .on → exec (.branchLimitEngage n) s =
      ends (limits (d.modBranch n.val (fun x => { x with lim := true, letGo := none })))) ∧
    (x.state = .ramp → exec (.branchLimitEngage n) s =
      ends (d.modBranch n.val (fun x => { x with lim := true, letGo := none }))) ∧
    (x.state.conducts = true → x.lim = true → exec (.branchLimitRelease n false) s =
      ends (d.modBranch n.val (fun x => { x with lim := false, letGo := some d.core.uptime }))) ∧
    (∀ t, x.state = .limiting → x.letGo = some t → exec (.branchLimitRelease n true) s =
      ends (((d.until (t + 100 * 40)).modBranch n.val (fun x => { x with lim := false, letGo := none })).branchEnter
        n.val .on)) ∧
    (x.state = .on → exec (.gateUnderdrive n) s = ends (d.modBranch n.val (fun x => { x with gateDue := true }))) ∧
    (x.state = .limiting → exec (.limitTimeout n) s = ends ((d.until (x.limFrom + BC_LIMIT.lim_time d n.val
      * 40000)).modBranch n.val (fun x => { x with limDue := true }))) ∧
    (x.state = .ramp → exec (.rampTimeout n) s = ends ((d.until (x.since + BC_RAMP.ramp_timeout d n.val
      * 40000)).modBranch n.val (fun x => { x with rampDue := true }))) ∧
    (x.hold.live = true → (x.state = .tripped ∨ (x.state = .locked ∧ x.wanted = true)) → exec (.branchHoldoffEnd n) s =
      ends ((d.until x.hold.endUp).branchRetry n.val)) ∧
    (x.state = .on → exec (.branchRetryClear n) s = ends ((d.until (x.since + BC_RETRY.retry_clear d n.val
      * 40000000)).modBranch n.val (fun x => { x with retries := 0 }))) ∧
    (∀ b : Fin 4, BC_BANK_CFG.en d b.val = 1 →
      let c := BC_BANK_CFG.sum_conv d b.val
      let whole : Int := (d.sar c).filtered * 2 * (d.fsOf c : Int)
      let parts := (((indices 24).filter (fun n => BC_CTRL.bank d n == b.val && (d.branch n).state != .off)).map
        d.branchI).sum
      let apart := (whole - (parts : Int)).natAbs
      let was := fileGet d.banks b.val default
      let count := held 255 (was.count + 1)
      let hit := BC_BANK_CFG.bank_persist d b.val ≤ count
      let e := d.modBank b.val (fun _ => ⟨decide hit || was.mismatch, count, roundDiv whole 65536, roundDivN parts 65536⟩)
      (apart ≤ BC_BANK_CFG.tol d b.val * 64 * d.fsOf c → exec (.bankCheck b) s =
        ends (d.modBank b.val (fun _ => ⟨false, 0, roundDiv whole 65536, roundDivN parts 65536⟩))) ∧
      (BC_BANK_CFG.tol d b.val * 64 * d.fsOf c < apart → exec (.bankCheck b) s =
        ends (if hit ∧ was.mismatch = false then e.raise 0x0133 clsB (88 + b.val)
          (unsignedOf 32 (roundDiv whole 65536)) (roundDivN parts 65536 % 2 ^ 32) else e)))

/-- R242 to R246, Table 9-1: the evaluation of a string samples KAs and takes its transitions; a start asks for leave
after pre_gap; precharge and closing end in faults of their own when they last too long; the coil goes to its hold
duty; the precharge drive turns off after the overlap; a deep discharge opens the string; a wait for a low current
ends in a load break; a contact that stays closed is a weld. -/
def Obligations.StringTimers : Prop :=
  ∀ (s : State) (j : Fin 4), s.dev.coreRuns = true →
    let d := s.dev.silent
    let x := d.str j.val
    let ends := fun (e : Dev) => Host.Outcome.next (s.put e.settle)
    (∀ low, exec (.stringEvaluation j low) s =
      let e := ((((d.strMissing j.val).sampleKa j.val low).strMoves j.val).strLevels j.val).strCharge j.val
      ends (if j.val = 3 then e.holdup else e)) ∧
    (x.state = .starting → x.gapping = true →
      exec (.preGapEnd j) s = ends ((d.until (d.gapEnd j.val)).strAsk j.val)) ∧
    (x.state = .precharge → exec (.prechargeTimeout j) s = ends (((d.until (x.since
      + BSM_STR_PRE.pre_timeout d j.val * 100 * 40000)).strReport j.val 0x30).strFault j.val 4)) ∧
    (x.state = .closing → x.kas = false → exec (.contactorNoClose j) s = ends (((d.until (x.since
      + BSM_STR_K.close_time d j.val * 40000)).strReport j.val 0x31).strOpen j.val 5 stAborted)) ∧
    (x.kd = true → x.held = false → exec (.pullInEnd j) s = ends ((d.until (x.kdAt
      + BSM_STR_K.pull_in d j.val * 40000)).modStr j.val (fun x => { x with held := true }))) ∧
    (∀ t, x.shut = some t → exec (.pcOverlapEnd j) s = ends ((d.until t).pcOff j.val)) ∧
    (∀ t, x.state = .connected → x.cutFrom = some t → exec (.stringUndervoltage j) s = ends ((((d.until (t
      + BSM_STR_CUT.cut_time d j.val * 10 * 40000)).strReport j.val 0x34).strOpen j.val 7 stAborted).depotCall)) ∧
    (∀ t, x.state = .connected → x.wait = some t →
      exec (.openWaitExpiry j) s = ends (((d.until t).loadBreak j.val).strOpen j.val 1 stAborted)) ∧
    (x.state = .opening → x.kas = true → exec (.contactorWelded j) s = ends (((d.until (x.since
      + BSM_STR_OPEN.open_time d j.val * 40000)).strReport j.val 0x33).strFault j.val 6))

/-- R248, R253, R254, R263: the hold-up ends with its length and charge; an anchor sets the charge to the capacity, or
to 0 after the capacity has been learned, with its uncertainty, and is checkpointed; a period ends in a checkpoint. An
estimator that a start has not restored yet takes no anchor and writes no checkpoint (R264). -/
def Obligations.EstimatorAnchors : Prop :=
  ∀ (s : State) (j : Fin 4), s.dev.coreRuns = true →
    let d := s.dev.silent
    let floor := BSM_STR_EST.floor d j.val
    let live := (d.str j.val).est.live
    let ends := fun (e : Dev) => Host.Outcome.next (s.put e.settle)
    (∀ t l, d.shelf.since = some t → d.shelf.lowFrom = some l →
      let e := d.until (l + 40000000)
      exec .holdupEnd s = ends (({ e with shelf := { e.shelf with since := none, lowFrom := none, run := 0 } } : Dev).raise
        0x0159 clsC 108 (held 0xFFFFFFFF ((e.core.uptime - t) / 40000)) (word32 (inMah e.shelf.charge)))) ∧
    (∀ t, live = true → (d.str j.val).est.full = some t →
      let e := d.until (t + BSM_STR_ANCH.full_time d j.val * 40000000)
      let x := (e.str j.val).est
      exec (.anchorFull j) s = ends ((((((e.modEst j.val (fun x =>
        ({ x with q := x.c, u := x.part (BSM_STR_UNC.anc_unc d j.val), low := false, span := true } : Estimator).redisplay
          ((e.str j.val).est.shown floor))).anchored j.val).raise 0x0150 clsC (104 + j.val) (word32 (inMah x.c))
            (word32 x.unc)).strExhaust j.val x).strCheckpoint j.val false))) ∧
    (∀ t, live = true → (d.str j.val).est.empty = some t →
      let e := d.until (t + BSM_STR_CUT.empty_time d j.val * 100 * 40000)
      let x := (e.str j.val).est
      let learned := (e.raise 0x0151 clsC (104 + j.val) (word32 (inMah x.q)) (word32 x.unc)).strLearn j.val
      exec (.anchorEmpty j) s = ends ((((learned.modEst j.val (fun y =>
        ({ y with q := 0, u := y.part (BSM_STR_UNC.anc_unc d j.val), low := true, span := false } : Estimator).redisplay
          (x.shown floor))).anchored j.val).strExhaust j.val x).strCheckpoint j.val false)) ∧
    (live = true → exec (.estimatorCheckpoint j) s = ends ((d.until ((d.str j.val).est.ckptAt
      + BSM_SHELF.ckpt_period d * 40000000)).strCheckpoint j.val false)) ∧
    (live = false → exec (.anchorFull j) s = ends d ∧ exec (.anchorEmpty j) s = ends d ∧
      exec (.estimatorCheckpoint j) s = ends d)

/-- R272, R274 to R277, R327, Tables 10-2 and 10-6: the timers of the Timetable: gaps end in the next step, a rail not
good in pg_timeout is late, one not off in off_timeout counts as off, RDIS is released after dis_time, off_min lets a
queued run up begin, halt_min lets HALTED end, and a monitor that shows something new updates its rail. -/
def Obligations.TimetableTimers : Prop :=
  ∀ s : State, s.dev.coreRuns = true →
    let d := s.dev.silent
    let ends := fun (e : Dev) => Host.Outcome.next (s.put e.settle)
    (∀ t, d.tt.state = .rising → d.tt.gap = some t →
      exec .stepGapUpEnd s = ends ((d.until t).runStep true d.tt.step)) ∧
    (∀ t, d.tt.state = .falling → d.tt.gap = some t →
      exec .stepGapDownEnd s = ends ((d.until t).runStep false d.tt.step)) ∧
    (∀ t k, d.tt.state = .up → d.tt.shedGap = some t → d.tt.shedStep = some k →
      let e := (d.until t).modTt (fun s => { s with shedGap := none })
      exec .stepGapDownEnd s = ends ((forAll (fun n d => d.railOffAction n 1 0x40 false)
        ((e.railsOf k).filter (fun n => bitOf e.tt.shed n && (e.rail n).state != .off)) e).shedNext 40)) ∧
    (∀ (n : Fin 16) (high : Bool), exec (.rmonChange n high) s =
      ends ((d.modRail n.val (fun r => { r with level := high })).railUpdate n.val)) ∧
    (∀ n : Fin 16, (d.rail n.val).state = .ramping → exec (.pgTimeout n) s = ends (((d.until ((d.rail n.val).since
      + TT_RAIL_TIM.pg_timeout d n.val * 40000)).railLate n.val 0).stepCheck)) ∧
    (∀ n : Fin 16, (d.rail n.val).state = .falling → exec (.offTimeout n) s = ends ((((((d.until ((d.rail n.val).since
      + TT_RAIL_TIM.off_timeout d n.val * 40000)).modRail n.val (fun r => { r with state := .off })).modTt (fun t =>
        { t with partly := true })).raise 0x0162 clsC (128 + n.val) (TT_RAIL_CFG.step d n.val) 0).railGone))) ∧
    (∀ (n : Fin 16) (t : Nat), (d.rail n.val).dis = some t →
      exec (.disTimeEnd n) s = ends ((d.until t).modRail n.val (fun r => { r with dis := none }))) ∧
    (d.tt.state = .down →
      exec .offMinEnd s = ends (d.until (d.tt.downAt + TT_CTRL.off_min d * 10 * 40000)).ttTryQueued) ∧
    (d.tt.state = .halted →
      exec .haltMinEnd s = ends (d.until (d.tt.haltAt + TT_BELL.halt_min d * 40000)).ttUnhalt)

/-- R282, R284 to R287: HALT_N falling shuts every rail off where halt_in is set, and its return lets a queued run up
begin; a Bell frame with a bad cell is counted and raised, a good one goes to the head or is done by a member; a frame
that has not returned is counted, raised, and the head goes on. -/
def Obligations.HaltAndBellLine : Prop :=
  ∀ s : State, s.dev.coreRuns = true →
    let d := s.dev.silent
    let ends := fun (e : Dev) => Host.Outcome.next (s.put e.settle)
    (d.tt.level = true → TT_CTRL.halt_in d = 1 →
      exec .haltNFall s = ends ((d.modTt (fun t => { t with level := false })).ttShutOff false)) ∧
    (TT_CTRL.halt_in d = 0 → exec .haltNFall s = ends (d.modTt (fun t => { t with level := false }))) ∧
    (d.tt.drive = false → exec .haltNRise s = ends (d.modTt (fun t => { t with level := true })).ttTryQueued) ∧
    (TT_BELL.en d = 1 → ∀ cells : BitVec 8,
      let up := bitOf cells.toNat 6
      let k := bitsOf cells.toNat 2 4
      let e := d.modTt (fun t => { t with lastUp := up, lastStep := k })
      (∀ c, badCell cells = some c → exec (.bellFrameReceived cells) s =
        ends ((d.modTt (fun t => { t with frameErr := held 255 (t.frameErr + 1) })).raise 0x0166 clsC 145 c 0)) ∧
      (badCell cells = none → TT_BELL.head d = 1 → exec (.bellFrameReceived cells) s = ends (e.bellHead up k)) ∧
      (badCell cells = none → TT_BELL.head d = 0 → exec (.bellFrameReceived cells) s = ends (e.bellMember up k))) ∧
    (∀ t, d.tt.ringEnd = some t →
      let up := d.tt.state == .rising
      exec .bellLost s = ends (Dev.stepNext 40 up true (((d.until t).modTt (fun t =>
        { t with lost := held 255 (t.lost + 1) })).raise 0x0165 clsB 145 d.tt.step (flag up))))

/-- R288 to R294: polls every poll_ms and telemetry reads every tele_ms x 10 ms of a PMBus master are queued; a
transaction that is good reaches its user and the next is served, one that fails is counted, told and sent again while
retries are left, after nine clocks where the bus is stuck or has timed out, and counts for its rails; an alert is
read from the Alert Response Address while the line is low; the frames, the alert and the resynchronisation every 100
ms of an AVSBus master. The model's choices: each failed attempt counts, nine clocks are one item of what is sent and
an AVSBus frame that fails twice completes with its response (log entry 95, DESIGN CHOICE), the bits of an AVSBus
frame (log entry 152, PRESUMED) and where a period begins (log entry 153, DESIGN CHOICE). -/
def Obligations.BusMasters : Prop :=
  ∀ s : State, s.dev.coreRuns = true →
    let d := s.dev.silent
    let ends := fun (e : Dev) => Host.Outcome.next (s.put e.settle)
    (∀ b : Fin 4, PB_CFG.en d b.val = 1 →
      let mine := fun (e : Dev) (p : Nat → Bool) => e.railsIn.filter (fun n => TT_RAIL_CFG.bus e n == b.val && p n)
      let polled := (d.until (d.pb b.val).pollAt).modPb b.val (fun m => { m with
        pollAt := (d.until (d.pb b.val).pollAt).now + PB_CFG.poll_ms d b.val * 40000 })
      let told := (d.until (d.pb b.val).teleAt).modPb b.val (fun m => { m with
        teleAt := (d.until (d.pb b.val).teleAt).now + PB_CFG.tele_ms d b.val * 10 * 40000 })
      exec (.pmbusPollTimer b) s = ends (forAll (fun n d => d.pollRail n) (mine polled polled.busMon) polled) ∧
      (PB_CFG.tele_ms d b.val ≠ 0 →
        exec (.pmbusTeleTimer b) s = ends (forAll (fun n d => d.teleRail n) (mine told told.onBus) told)) ∧
      (PB_CFG.alert_en d b.val = 1 → (d.pb b.val).current = none → (d.pb b.val).queue = [] → exec (.smbalert ⟨b, true⟩) s =
        ends ((d.modPb b.val (fun m => { m with
          alert := true, current := some ⟨.alertRead, 2, 0x0C, none, 0, [], 1, false, 0⟩ })).emit (.bus b.val [0x19]))) ∧
      ((d.pb b.val).current.isSome = true →
        exec (.smbalert ⟨b, false⟩) s = ends (d.modPb b.val (fun m => { m with alert := false })))) ∧
    (∀ (b : Fin 4) (x : BusItem) (data : List Byte) (stuck : Bool), (d.pb b.val).current = some x →
      (∀ o : Fin 5, (o = 0 ∨ o = 3 ∧ PB_CFG.pec d b.val = 0) → exec (.pmbusTransactionDone b ⟨o, stuck⟩ data) s =
        ends (((((forAll (fun n d => d.modRail n (fun r => { r with fails := 0 })) (d.railsAt b.val x.addr) d).modPb b.val
          (fun m => { m with current := none })).pbClear b.val stuck).busDone b.val x 0 data).pbServe b.val)) ∧
      (∀ o : Fin 5, o ≠ 0 → (o = 3 → PB_CFG.pec d b.val ≠ 0) →
        let ended := ((d.modPb b.val (fun m => m.countFail o.val)).modPb b.val (fun m => { m with current := none })).pbClear
          b.val (stuck || o == 4)
        let after := fun (e : Dev) =>
          let told := e.raiseLimited 0x0168 clsC (148 + b.val) o.val x.addr
          (forAll (fun n d => d.railMissed n o.val) (told.railsAt b.val x.addr) told).pbServe b.val
        (x.tries < PB_CFG.retries d b.val → exec (.pmbusTransactionDone b ⟨o, stuck⟩ data) s =
          ends (after (ended.modPb b.val (fun m => { m with queue := { x with tries := x.tries + 1 } :: m.queue })))) ∧
        (PB_CFG.retries d b.val ≤ x.tries → exec (.pmbusTransactionDone b ⟨o, stuck⟩ data) s =
          ends (after (ended.busDone b.val x o.val []))))) ∧
    (∀ (a : Fin 2) (x : AvsItem) (ack : Fin 4) (status : Fin 32) (data : BitVec 16), (d.av a.val).current = some x →
      let failed := (d.modAv a.val (fun m => { m with current := none, crcErr := held 255 (m.crcErr + 1) })).raiseLimited
        0x016A clsC (152 + a.val) x.sel 0
      exec (.avsFrameDone a ack status data true) s = ends (((d.modAv a.val (fun m =>
        { m with current := none, last := status.val })).avsDone a.val x ack.val status.val data.toNat).avServe a.val) ∧
      (x.again = false → exec (.avsFrameDone a ack status data false) s =
        ends (failed.avStart a.val { x with again := true } (failed.av a.val).queue)) ∧
      (x.again = true → exec (.avsFrameDone a ack status data false) s =
        ends ((failed.avsDone a.val x ack.val status.val data.toNat).avServe a.val))) ∧
    (∀ a : Fin 2, AV_CFG.en d a.val = 1 →
      exec (.avsAlert a) s = ends ((d.modAv a.val (fun m => { m with alert := true })).avPut a.val
        ((d.avSelects a.val).map (fun s => ⟨.status, 2, 0xE, s, 0, false⟩))) ∧
      let e := d.until (d.av a.val).syncAt
      let due := e.now + 100 * 40000
      ((e.av a.val).current.isSome = true → exec (.avsResyncTimer a) s =
        ends (e.modAv a.val (fun m => { m with syncAt := due, syncOwed := true }))) ∧
      ((e.av a.val).current = none → exec (.avsResyncTimer a) s =
        ends ((e.modAv a.val (fun m => { m with syncAt := due, syncOwed := false })).emit (.avsSync a.val))))

/-- R296, R302 to R304: SURGE released becomes available in the order it is due; a request that has waited its rank's
limit is given up, on slot 78 the one that waits beside a held token (R433; the model's choice, log entry 24,
DEDUCED); a token held for its duration returns. -/
def Obligations.TokenTimers : Prop :=
  ∀ s : State, s.dev.coreRuns = true →
    let d := s.dev.silent
    let ends := fun (e : Dev) => Host.Outcome.next (s.put e.settle)
    (∀ r, firstDue d.office.recovering = some r →
      let e := d.until r.due
      exec .surgeRecovered s =
        ends (({ e with office := { e.office with recovering := e.office.recovering.erase r } } : Dev).owe .office)) ∧
    (∀ slot : Fin 79, (d.slot slot.val).state = .waiting → (slot = 78 → d.slotBusy slotSecond = false) →
      exec (.tokenWaitLimit slot) s = ends ((d.until (d.slot slot.val).limit).giveUp slot.val)) ∧
    (d.slotBusy slotSecond = true → (d.slot slotSecond).state = .waiting →
      exec (.tokenWaitLimit 78) s = ends ((d.until (d.slot slotSecond).limit).giveUp slotSecond)) ∧
    (∀ slot : Fin 79, (d.slot slot.val).state = .holding → (d.slot slot.val).lapses ≠ 0 →
      exec (.tokenDurationEnd slot) s = ends ((d.until (d.slot slot.val).lapses).release slot.val))

/-- R322, R327, R331, R332, R335, R337: the settle window that closes first is written down; the shedding goes on
after its gap; silence of the host or of the safety port is reported once, with the action IL_HB gives it; the arm
window and an observation end, the latter with its record, its event and its completion. -/
def Obligations.InterlockingTimers : Prop :=
  ∀ s : State, s.dev.coreRuns = true →
    let d := s.dev.silent
    let ends := fun (e : Dev) => Host.Outcome.next (s.put e.settle)
    (∀ f, d.il.faults = [f] → exec .settleWindowClose s = ends ((d.until f.closes).closeFault f)) ∧
    (∀ t, d.il.slw = true → d.il.shedAt = some t → exec .shedGapEnd s = ends (d.until t).shedNow) ∧
    (IL_HB.hb_timeout d ≠ 0 → d.il.hostSilent = false →
      let e := ((d.until (d.il.hostBeat + IL_HB.hb_timeout d * 40000)).modIl (fun il => { il with hostSilent := true })).report
        (det 0x42 163 0x00 accRead (detAddr 0x05 0))
      exec .hostSilent s = ends (if IL_HB.hb_act e = 1 then e.owe .hostRevert else e)) ∧
    (IL_HB.sp_timeout d ≠ 0 → d.il.spSilent = false →
      let e := ((d.until (d.il.spBeat + IL_HB.sp_timeout d * 40000)).modIl (fun il => { il with spSilent := true })).report
        (det 0x43 163 0x01 accWrite (detAddr 0x05 0))
      exec .safetySilent s = ends (if IL_HB.sp_act e = 1 then e.owe .halt else e)) ∧
    (∀ t, d.il.armedUntil = some t →
      exec .injectWindowEnd s = ends ((d.until t).modIl (fun il => { il with armedUntil := none }))) ∧
    (∀ i rest, d.il.watched = i :: rest →
      let e := ((d.until i.endAt).modIl (fun il => { il with
        watched := rest, laneCorrupt := if i.kind = 3 then none else il.laneCorrupt })).recordNow recInjection
          (leBytes i.kind 1 ++ leBytes (flag i.seen) 1 ++ leBytes i.ident 2 ++ leBytes i.word0 4 ++ leBytes i.word1 4
            ++ leBytes i.tag 2)
      exec .injectObservationEnd s = ends ((e.raise 0x0173 clsC 162 (i.kind * 2 ^ 24 + flag i.seen * 2 ^ 16 + i.ident)
        i.word0).commitAll i.fetch stDone [flag i.seen, i.ident]))

/-- R347 to R349, R352, R354 to R356: the checkpoint asks for a flush; a record write commits, frees its slot and ends
the flush with the last record, after which the early flush is judged anew; the ring scan finds the write pointer; the
erase of a clear runs while no flush does, past the end of its token too; a nonce and a lockout expire. -/
def Obligations.TrainRegisterTimers : Prop :=
  ∀ s : State, s.dev.coreRuns = true →
    let d := s.dev.silent
    let ends := fun (e : Dev) => Host.Outcome.next (s.put e.settle)
    (∀ e, e = d.until d.tr.ckptAt →
      exec .trCheckpoint s = ends ({ e with tr := { e.tr with
        ckptAt := e.core.uptime + TR_CTRL.ckpt e * 40000000 } } : Dev).flushAsking) ∧
    (∀ last r rest, d.tr.scanning = false → d.tr.flushTo = some last → d.tr.buffer = r :: rest → r.seq ≤ last →
      d.tr.clearing = none →
      let wrote := fun (on : Option Nat) => (({ d with
        tr := { d.tr with
          buffer := rest
          ring := ringPut d.tr.ring d.tr.wptr (.valid r)
          wptr := (d.tr.wptr + 1) % 12288
          flushed := max d.tr.flushed r.seq
          flushedAt := true
          flushTo := on }
        bge := d.bge.countWrite (16 + d.tr.wptr / 64) } : Dev).stored 0x11 d.tr.wptr)
      (∀ n more, rest = n :: more → n.seq ≤ last → exec .flushWriteDone s = ends (wrote (some last))) ∧
      (rest = [] → exec .flushWriteDone s = ends ((wrote none).release slotFlush).commitWear.judgeFill)) ∧
    (d.tr.scanning = true → ringTorn d.tr.ring = 0 → d.tr.log = [] → exec .ringScanDone s = ends { d with
      tr := { d.tr with
        scanning := false
        wptr := ringNext d.tr.ring
        torn := 0
        flushed := highestSeq (ringRecords d.tr.ring)
        flushedAt := !(ringRecords d.tr.ring).isEmpty
        buffer := d.tr.buffer.map (patchStart (highestSeq (ringRecords d.tr.ring)) 0 false) } }) ∧
    (∀ c, d.tr.flushTo = none → d.tr.clearing = some c → c.granted = true → c.recSeq = none →
      exec .clearEraseDone s = ends (d.erase c)) ∧
    (d.tr.nonce.isSome = true →
      let e := d.until d.tr.nonceEnd
      exec .nonceExpiry s = ends { e with tr := { e.tr with nonce := none } }) ∧
    (d.core.uptime < d.tr.lockEnd →
      let e := d.until d.tr.lockEnd
      exec .clearLockoutEnd s = ends { e with tr := { e.tr with lockEnd := 0 } })

/-- R413, R437, R438, R431, R434, R435, R370: a rewrite of a Rule Book copy is asked for again after its 10 s; the end
of programming blows the row's codeword but for the bits missed, resolves the row into its shadow and returns PROG; a
row below 56 completes with what the check of both copies finds; a marker row that is set takes the new lifecycle
state in force, with its LIFECYCLE record, the manifest and MANIFEST_INCOMPLETE on In-Traffic and the withdrawal on
Withdrawn, and one that is not set ends ABORTED_FAULT; a descriptor with an opcode Table 15-1 does not list is refused
with BAD_PARAM. -/
def Obligations.RepairProgrammingUnknown : Prop :=
  ∀ s : State, s.dev.coreRuns = true →
    let d := s.dev.silent
    let ends := fun (e : Dev) => Host.Outcome.next (s.put e.settle)
    (∀ t, d.book.retryAt = some t → exec .rulebookRewriteRetry s = ends (d.until t).askRewrite) ∧
    (∀ (x : FuseRun) (k : Nat) (missedA weakA missedB weakB : BitVec 72), d.fuse.run = some x → x.fetch = some k →
      let r := ({ d.fuse.blow x missedA weakA missedB weakB with run := none } : FuseBank).resolve x.row
      let e := ({ d with fuse := { r with required := if x.row = 24 then r.requires else r.required } } : Dev).release slotFuse
      let done := fun (f : Dev) => exec (.fuseProgrammingDone missedA weakA missedB weakB) s = ends f
      (x.row < 56 →
        let pass := (e.fuse.row x.row).passes x.value
        done ((e.commit k 2).commitAll k (if pass then stDone else stPartial) [flag pass])) ∧
      (56 ≤ x.row → e.fuse.isSet x.row = true →
        let new := e.fuse.state
        let b := { e.fuse with lifecycle := new }
        let told := ({ e with fuse := if new = lifeInTraffic then b.applyManifest else b } : Dev).recordNow recLifecycle
          (leBytes e.fuse.lifecycle 1 ++ leBytes new 1 ++ leBytes x.tag 2)
        let listed := if new = lifeInTraffic then told.manifestEvent else told
        let f := if new = lifeWithdrawn then listed.withdraw else listed
        done (f.commitAll k (if new = lifeInTraffic ∧ f.fuse.missing ≠ 0 then stPartial else stDone) [new])) ∧
      (56 ≤ x.row → e.fuse.isSet x.row = false → done (e.finish k stAborted []))) ∧
    (s.dev.still → ∀ (op : BitVec 8) (c : Desc), opcodeOf op.toNat = none → d.fetchTurn = some c.ring.val →
      d.hqi.staged = [] →
      exec (.unknownOpcode op c) s =
        .next (s.put ((d.takeOff c.ring.val).refuse op.toNat true c stBadParam 0)))

/-- R461 to R463, Table 19-9: a rising edge of TCK captures or shifts as the controller state and the instruction say,
moves the controller, and shifts TDO out while the port shifts; nothing else changes. The sixteen controller states,
the shift order and the update with the rising edge are IEEE 1149.1's and the model's choice (log entry 16, PRESUMED).
-/
def Obligations.TestAccessPort : Prop :=
  ∀ (s : State) (tms tdi : Bool) (pins : BitVec 167), s.dev.still → s.dev.core.supplies.vddio = true →
    let d := s.dev.silent
    let rst := d.core.rstIn
    let t := (({ d.tap.edge rst tdi pins with state := d.tap.state.next tms } : Tap)).settle rst
    exec (.tapTckEdge tms tdi pins) s = .next (s.put { d with
      tap := t
      out := match t.tdo rst with
        | some b => [.tdo b]
        | none => [] })

/-- R107, R126, R173, R118, R190: GROUP_CONFIGURE in a stopped group spreads the sample instants of the groups that
share its period, writes the group's registers, assigns its converters and phase offsets and returns spp, pps and the
phase; GROUP_LIMITS writes the limits over earlier writes that still wait, whose fields stay where it gives none, and
returns the ICAP target; SHED_POLICY writes the thresholds as codes of the ICAP full scale over m. Each in one stage,
at the Standard and at the Expert level. The spread with running groups is the model's choice (log entry 10). -/
def Obligations.GroupSettings : Prop :=
  ∀ (s : State) (c : Desc),
    let d := s.dev.silent
    let k := (d.takeOff c.ring.val).hqi.fetches
    let g := c.idx
    let ends := fun (e : Dev) => Host.Outcome.next (s.put e.settle)
    (∀ e, d.accepts specGroupConfigure c → e = d.started specGroupConfigure c → (e.group g).state.stopped = true →
      (c.expert = true → ∀ e1, e1 = (e.setImages (c.images (groupRegs g))).setField (ELE_GRP_CTRL.reg g) 16 1 1 →
        36 ≤ c.length.toNat → imagesOk (c.images (groupRegs g)) = true → e1.groupRegsOk g = true →
        exec (.groupConfigure c) s =
          ends ((e1.refreshLimits g).commitAll k stDone [PTU_GRP_TIM.spp e1 g, PTU_GRP_TIM.pps e1 g, MA_GRP_SAMP.phase e1 g])) ∧
      (c.expert = false → ∀ spp pps phase e1, e.groupOk c = true →
        splitRate (c.num 30 2) (c.num 44 4) = some (spp, pps) → periodOk (c.num 30 2) spp pps = true →
        phase = (((e.spreadInstants g (c.num 30 2)).find? (fun x => x.1 == g)).map (·.2)).getD 0 →
        e1 = forAll (fun (x : Nat × Nat) d => if x.1 = g then d else d.moveInstant x.1 x.2)
          (e.spreadInstants g (c.num 30 2)) e →
        exec (.groupConfigure c) s = ends (((e1.groupPlaced c spp pps phase).refreshLimits g).commitAll k stDone [spp, pps, phase]))) ∧
    (∀ (e : Dev) (w : LimitWords), d.accepts specGroupLimits c → e = d.started specGroupLimits c →
      (c.expert = true → w = ⟨c.num 20 4, c.num 24 4, c.num 28 4, c.int 32 8 * 256, c.int 40 8 * 256, c.int 48 8 * 256⟩) →
      (c.expert = false →
        (c.optI 20 4 ≠ none → e.icapFs g ≠ none) ∧ (c.opt 24 4 ≠ none → e.pcapFs g ≠ none) ∧
        (c.optI 28 4 ≠ none → e.auxFs g ≠ none ∧ ELE_GRP_CFG.aux_src e g ≠ 0) ∧
        (c.optI 32 4 ≠ none ∨ c.optI 36 4 ≠ none ∨ c.opt 42 2 ≠ none → e.voutFs g ≠ none) ∧
        (∀ a, c.optI 32 4 = some a → 0 ≤ a) ∧ (∀ b, c.optI 36 4 = some b → 0 ≤ b) ∧
        (∀ a b, c.optI 32 4 = some a → c.optI 36 4 = some b → a ≤ b) ∧
        ∃ vmin vmax slew trim : Nat, vmin ≤ 65535 ∧ vmax ≤ 65535 ∧ slew ≤ 65535 ∧ trim ≤ 65535 ∧
          (vmin : Int) = givenCode (bitsOf (e.waitingWord g (ELE_GRP_VWIN.reg g)) 0 16) (c.optI 32 4) (e.voutFs g) 16 ∧
          (vmax : Int) = givenCode (bitsOf (e.waitingWord g (ELE_GRP_VWIN.reg g)) 16 16) (c.optI 36 4) (e.voutFs g) 16 ∧
          (slew : Int) = givenCode (bitsOf (e.waitingWord g (ELE_GRP_SLEW.reg g)) 16 16) ((c.opt 40 2).map (fun v => (v : Int))) (some 10000)
            16 ∧
          (trim : Int) = givenCode (bitsOf (e.waitingWord g (ELE_GRP_SLEW.reg g)) 0 16) ((c.opt 42 2).map (fun v => (v : Int)))
            (e.voutFs g) 16 ∧
          w = ⟨e.waitingWord g (ELE_GRP_DLIM.reg g), vmax * 65536 + vmin, slew * 65536 + trim,
            givenTarget (e.target g 1) (c.optI 20 4) (e.icapFs g),
            givenTarget (e.target g 2) ((c.opt 24 4).map (fun v => ((v * 1000000 : Nat) : Int))) (e.pcapFs g),
            givenTarget (e.target g 3) (c.optI 28 4) (e.auxFs g)⟩) →
      imageOk (ELE_GRP_DLIM.reg g) w.dlim = true → imageOk (ELE_GRP_VWIN.reg g) w.vwin = true →
      imageOk (ELE_GRP_SLEW.reg g) w.slew = true →
      bitsOf w.dlim 0 16 ≤ bitsOf w.dlim 16 16 → bitsOf w.vwin 0 16 ≤ bitsOf w.vwin 16 16 →
      sat48 w.t1 = w.t1 → sat48 w.t2 = w.t2 → sat48 w.t3 = w.t3 →
      (bitsOf w.vwin 0 16 * 4096 : Nat) ≤ e.target g 0 → e.target g 0 ≤ (bitsOf w.vwin 16 16 * 4096 : Nat) →
      (∀ regs e1 e2 r, regs = [(ELE_GRP_DLIM.reg g, w.dlim), (ELE_GRP_VWIN.reg g, w.vwin), (ELE_GRP_SLEW.reg g, w.slew)] →
        e1 = ((((((e.dropWrites g (regs.map (·.1))).setRegs regs).setTarget g 1 w.t1).setTarget g 2 w.t2).setTarget g 3
          w.t3).refreshLimits g) →
        e2 = (if c.expert then e1.modGroup g (fun x => x.limit 3 w.t3) else e1) →
        r = e2.orFree ((e2.icapFs g).map (fun fs => unsignedOf 32 (roundDiv (e2.icapTarget g * (fs : Nat)) (2 ^ 28)))) →
        exec (.groupLimits c) s = ends (r.2.commitAll k stDone [r.1]))) ∧
    (∀ e v, d.accepts specShedPolicy c → e = d.started specShedPolicy c →
      (c.expert = true → v = c.num 20 4) →
      (c.expert = false → ∃ fs low high : Nat, e.icapFs g = some fs ∧ fs ≠ 0 ∧ e.phaseCount g ≠ 0 ∧
        (low : Int) = c.int 24 4 * 256 * (e.phaseCount g : Int) / (fs : Int) ∧
        (high : Int) = c.int 28 4 * 256 * (e.phaseCount g : Int) / (fs : Int) ∧ 0 ≤ c.int 24 4 ∧
        c.int 24 4 < c.int 28 4 ∧ low ≤ 255 ∧ high ≤ 255 ∧ 1 ≤ c.byte 21 ∧ c.byte 21 ≤ 24 ∧ c.byte 20 ≤ 1 ∧ c.byte 22 ≠ 0 ∧
        v = place 31 1 (c.byte 20) + place 26 5 (c.byte 21) + place 18 8 high + place 10 8 low + place 2 8 (c.byte 22)) →
      imageOk (PTU_GRP_SHED.reg g) v = true → bitsOf v 10 8 < bitsOf v 18 8 →
      (∀ e1 r q, e1 = e.writeShed g v →
        r = e1.orFree ((e1.icapFs g).map (fun fs => roundDivN (bitsOf v 10 8 * fs) (256 * e1.phaseCount g))) →
        q = r.2.orFree ((e1.icapFs g).map (fun fs => roundDivN (bitsOf v 18 8 * fs) (256 * e1.phaseCount g))) →
        exec (.shedPolicy c) s = ends (q.2.commitAll k stDone [r.1, q.1])))

/-- R127 to R129, R145, R116, R117: COEFF_LOAD, MODEL_LOAD and GROUP_TARGET put what they load to the group's next
sample boundary, in Expert codes or in codes designed from physical parameters; the window a target must lie in is the
one the writes before it leave. That a Standard rate is an unsigned number is the model's choice (log entry 142). -/
def Obligations.GroupLoads : Prop :=
  ∀ (s : State) (c : Desc),
    let d := s.dev.silent
    let k := (d.takeOff c.ring.val).hqi.fetches
    let g := c.idx
    let ends := fun (e : Dev) => Host.Outcome.next (s.put e.settle)
    (∀ e, d.accepts specCoeffLoad c → e = d.started specCoeffLoad c →
      (c.expert = true → exec (.coeffLoad c) s =
        ends (e.atBoundary g (.coeffs k (c.byte 20) ((indices 7).map (fun j => signedOf 24 (c.num (24 + 4 * j) 4))) none))) ∧
      (c.expert = false → ∀ x cs, x = ⟨c.byte 21 == 3, c.num 24 4, c.num 28 4, c.num 32 4, c.num 36 4, c.num 40 4⟩ →
        bitOf (ELE_GRP_CTRL.order e g) (c.byte 20) = (c.byte 21 == 3) → x.fits (e.livePeriod g) = true →
        Design.codes x (e.livePeriod g) = some cs →
        exec (.coeffLoad c) s =
          ends ((e.toBuffer c ([4, 5, 6].flatMap (fun j => leBytes (unsignedOf 24 (cs.getD j 0)) 4))).atBoundary g
            (.coeffs k (c.byte 20) cs (some x))))) ∧
    (∀ e ims, d.accepts specModelLoad c → e = d.started specModelLoad c →
      (c.expert = true → ims = (indices 8).map (fun j =>
        ((modelRegs g).getD j 0, imageMerge ((modelRegs g).getD j 0) 0 (c.num (20 + 4 * j) 4)))) →
      (c.expert = false → ∃ vfs ifs n, e.voutFs g = some vfs ∧ e.phaseFs g = some ifs ∧ e.vinConv g = some n ∧
        modelImages e g c vfs ifs (e.fsOf n) = some ims) →
      ((e.group g).state.stopped = true ∨ e.changesMode g (ims.headD (0, 0)).2 = false) →
      exec (.modelLoad c) s = ends (e.atBoundary g (.model k ims))) ∧
    (∀ e t v, d.accepts specGroupTarget c → e = d.started specGroupTarget c →
      (c.expert = true → t = c.int 20 8 * 256 ∧ v = c.num 28 4) →
      (c.expert = false → ∃ fs, e.voutFs g = some fs ∧ t = ofScaleI (c.int 20 4) fs 28 ∧
        v = rateStep (c.num 24 4) (e.livePeriod g) fs) →
      (∀ w, w = e.waitingWord g (ELE_GRP_VWIN.reg g) →
        (bitsOf w 0 16 * 4096 : Nat) ≤ t ∧ t ≤ (bitsOf w 16 16 * 4096 : Nat)) → v < 2 ^ 32 →
      (∀ r, r = e.orFree ((e.voutFs g).map (fun fs => realisedRate v (e.livePeriod g) fs)) →
        exec (.groupTarget c) s = ends (r.2.atBoundary g (.target k t v
          (if (e.group g).state.stopped then v else v / 2 ^ (e.group g).rate.doubled) r.1))))

/-- R121, R122, R183, R144 (Tables 4-3, 6-3): GROUP_ENABLE on starts a stopped group whose resources are free, and off
ends a running one; LEG_CONFIGURE writes a leg's registers, parks and unparks a phase, and clears a phase's health.
Where a second off joins the first and a target's command ends is the model's choice (log entry 69, DEDUCED). -/
def Obligations.GroupAndLegCommands : Prop :=
  ∀ (s : State) (c : Desc),
    let d := s.dev.silent
    let k := (d.takeOff c.ring.val).hqi.fetches
    let g := c.idx
    let ends := fun (e : Dev) => Host.Outcome.next (s.put e.settle)
    (∀ e, d.accepts specGroupEnable c → e = d.started specGroupEnable c → c.byte 20 = 1 →
      ((e.group g).state = .run → exec (.groupEnableOn c) s = ends (e.commitAll k stDone [])) ∧
      (((e.group g).state = .off ∨ (e.group g).state = .faulted) → e.il.stopAll = false →
        (e.il.slw = true → e.safetyCrit g = true) → e.canStart g = true →
        e.slotBusy (slotGroup g) = false → exec (.groupEnableOn c) s = ends (if (e.group g).watch.restartAt.isSome then
            (e.modWatch g (fun w => { w with hiccups := 0 })).enterStarting g (some k) false false
          else e.enterStarting g (some k) true false)) ∧
      (((e.group g).state = .starting ∨ (e.group g).state = .softStart) →
        exec (.groupEnableOn c) s = ends (e.joinStart k g))) ∧
    (∀ e, d.accepts specGroupEnable c → e = d.started specGroupEnable c → c.byte 20 = 0 →
      (∀ e0, e0 = e.modWatch g (fun w => { w with hiccups := 0, restartAt := none }) →
        ((e.group g).state = .off → exec (.groupEnableOff c) s = ends (e0.commitAll k stDone [])) ∧
        ((e.group g).state = .faulted → exec (.groupEnableOff c) s =
          ends (((e0.modGroup g (fun x => { x with state := .off })).owe (.groupMoved g)).commitAll k stDone [])) ∧
        (((e.group g).state = .softStart ∨ (e.group g).state = .run) →
          exec (.groupEnableOff c) s = ends (e0.enterStopping g k)) ∧
        ((e.group g).state = .starting → exec (.groupEnableOff c) s =
          ends (((((e0.modGroup g (fun x => x.rest .off)).release (slotGroup g)).finishAll (e0.group g).watch.enables
            stSuperseded).owe (.groupMoved g)).commitAll k stDone [])) ∧
        ((e.group g).state = .stopping → exec (.groupEnableOff c) s =
          ends ((e0.modWatch g (fun w => { w with disables := w.disables ++ [k] })).commit k 1)))) ∧
    (∀ e cfg dt ofs, d.accepts specLegConfigure c → e = d.started specLegConfigure c → c.byte 20 = 0 →
      (c.expert = true → cfg = c.num 24 4 ∧ dt = c.num 28 4 ∧ ofs = c.num 32 4) →
      (c.expert = false →
        roundDivN (c.num 24 2) 5 ≤ 254 ∧ roundDivN (c.num 26 2) 5 ≤ 254 ∧ roundDivN (c.num 28 2) 5 ≤ 255 ∧
        cfg = place 31 1 (c.byte 21) + place 30 1 (c.byte 21 / 2) + place 29 1 (c.byte 21 / 4) + place 16 8 (c.byte 22)
          + place 8 8 (roundDivN (c.num 28 2) 5) + place 0 8 (c.byte 23) ∧
        dt = place 8 8 (roundDivN (c.num 24 2) 5) + place 0 8 (roundDivN (c.num 26 2) 5) ∧ ofs = PTU_LEG_OFS.ofs e g) →
      imageOk (PTU_LEG_CFG.reg g) cfg = true → imageOk (PTU_LEG_DT.reg g) dt = true →
      e.offsetOk g (bitsOf ofs 0 20) = true → ((e.leg g).state = .idle ∨ (e.leg g).state = .parked) →
      (∀ e1, e1 = e.setImages [(PTU_LEG_CFG.reg g, cfg), (PTU_LEG_DT.reg g, dt), (PTU_LEG_OFS.reg g, ofs)] →
        exec (.legConfigureConfigure c) s =
          ends (e1.commitAll k stDone [PTU_LEG_DT.dt_a e1 g * 5000, PTU_LEG_DT.dt_b e1 g * 5000]))) ∧
    (∀ e q, d.accepts specLegConfigure c → e = d.started specLegConfigure c → c.byte 20 = 1 → e.groupOfLeg g = some q →
      e.upperLeg g = false →
      ((e.leg g).state = .parked → exec (.legPark c) s = ends (e.commitAll k stDone [])) ∧
      ((e.leg g).state = .idle → exec (.legPark c) s = ends ((e.parkPhase q g 1).commitAll k stDone [])) ∧
      ((e.leg g).state ≠ .parked → (e.leg g).state ≠ .idle → exec (.legPark c) s =
        ends ((e.modPhase q g (fun l => { l with next := .park ((e.leg g).parks ++ [k]), unpark := none })).finishOpt
          (e.leg g).unpark stSuperseded []))) ∧
    (∀ e q, d.accepts specLegConfigure c → e = d.started specLegConfigure c → c.byte 20 = 2 → e.groupOfLeg g = some q →
      e.upperLeg g = false → (e.leg g).state = .parked → (e.leg g).health ≠ .legOpen →
      (((e.group q).state = .off ∨ (e.group q).state = .faulted) → exec (.legUnpark c) s =
        ends (((e.modPhase q g (fun l => { l with state := .idle, parkCause := 0 })).refreshLimits q).commitAll k stDone [])) ∧
      ((e.group q).state = .run → e.slotBusy (slotLeg g) = false → (e.leg g).unpark = none →
        (∀ ms, ms = (if c.byte 21 = 0 then PTU_GRP_STOP.join_time e q else c.byte 21) →
          exec (.legUnpark c) s =
            ends (Dev.request (e.modLeg g (fun l => { l with unpark := some k, joinMs := ms })) (slotLeg g)
              { rank := e.groupRank q (some c.ring.val), surge := roundDivN (e.icapLimit q) (e.phaseCount q),
                span := ms * 40000, tagged := true })))) ∧
    (∀ e q, d.accepts specLegConfigure c → e = d.started specLegConfigure c → c.byte 20 = 3 → e.groupOfLeg g = some q →
      e.upperLeg g = false → (e.group q).state.stopped = true →
      exec (.legClearHealth c) s = ends ((e.clearHealth q g).commitAll k stDone []))

/-- R219, R220, R221, R223, R236 to R238 (Table 8-1): BRANCH_CONFIGURE on a stopped branch writes its registers, its
fast trip and its row; BRANCH_SWITCH on starts a branch that is OFF and completes on one that conducts; off takes its
column low and ends what waits for it; BRANCH_RETRY of a tripped or locked branch counts no retries and lets it retry
as soon as it may. A branch that Single-Line Working holds is not started: from the entry on, which is the model's
choice (log entry 151, DEDUCED). Cross-field limits are judged where the command gives one of the fields (R395). -/
def Obligations.BranchCommands : Prop :=
  ∀ (s : State) (c : Desc),
    let d := s.dev.silent
    let k := (d.takeOff c.ring.val).hqi.fetches
    let n := c.idx
    let ends := fun (e : Dev) => Host.Outcome.next (s.put e.settle)
    (∀ e ims, d.accepts specBranchConfigure c → e = d.started specBranchConfigure c → (e.branch n).state.stopped = true →
      (c.expert = true → ims = c.images (branchRegs n)) →
      (c.expert = false →
        standardImages (branchConv (e.branchFs n c)) e.reg 0 c.given (fieldList (branchRegs n)) [] = some ims) →
      4 * (if c.expert then 11 else (fieldList (branchRegs 0)).length) ≤ c.length.toNat →
      (c.expert = true → imagesOk ims = true) →
      (e.setImages ims).branchRegsOk n (c.gives (fieldList (branchRegs n))) = true →
      (∀ e1 code e2, e1 = e.setImages ims → code = tripCode (BC_LIMIT.ilim e1 n) (BC_LIMIT.mult e1 n) →
        e2 = ((e1.setThreshold (96 + n) code).setField (FTA_CP_CFG.reg (96 + n)) 23 2 0).nameColumn (96 + n) (24 + n) →
        exec (.branchConfigure c) s = ends (e2.commitAll k stDone
          [e2.branchLimit n, roundDivN (code * BC_SCALE.fs e2 n) 1024, BC_RAMP.ramp_rate e2 n]))) ∧
    (∀ e, d.accepts specBranchSwitch c → e = d.started specBranchSwitch c → c.byte 20 = 1 →
      (((e.branch n).state = .ramp ∨ (e.branch n).state = .on ∨ (e.branch n).state = .limiting) →
        exec (.branchSwitchOn c) s = ends (e.commitAll k stDone [])) ∧
      (∀ e1, e1 = e.modBranch n (fun x => { x with cmds := x.cmds ++ [k] }) →
        ((e.branch n).state = .starting → exec (.branchSwitchOn c) s =
          ends (if (e.branch n).awaiting ∨ (e.slot (slotBranch n)).state = .holding then e1.commit k 1 else e1)) ∧
        ((e.branch n).state = .off → e.branchReady n = true → e.slotBusy (slotBranch n) = false → e.noStarts = false →
          (e.il.slw = true → bitOf (IL_SLW_BR.br_keep e) n = true) →
          (∀ e2, e2 = e1.modBranch n (fun x => { x with retries := 0 }) →
            exec (.branchSwitchOn c) s = ends (if 0 < e.holdLeft (e.branch n).hold then e2.branchEnter n .tripped
              else e2.branchStart n .fresh))))) ∧
    (∀ e, d.accepts specBranchSwitch c → e = d.started specBranchSwitch c → c.byte 20 = 0 →
      exec (.branchSwitchOff c) s = ends (if (e.branch n).state = .off then e.commitAll k stDone []
        else (((e.release (slotBranch n)).branchEnter n .off).branchEnd n stSuperseded).commitAll k stDone [])) ∧
    (∀ e e1, d.accepts specBranchRetry c → e = d.started specBranchRetry c →
      ((e.branch n).state = .tripped ∨ (e.branch n).state = .locked) → e.branchReady n = true →
      e.slotBusy (slotBranch n) = false → e.noStarts = false →
      (e.il.slw = true → bitOf (IL_SLW_BR.br_keep e) n = true) →
      e1 = e.modBranch n (fun x => { x with retries := 0, wanted := true, cmds := x.cmds ++ [k] }) →
      exec (.branchRetry c) s = ends (e1.branchRetry n))

/-- R200 to R203, R207, R214, R215 (Table 7-1): FEED_CONFIGURE on a stopped feed writes its registers, its trip and
its row; FEED_SWITCH on and off; FEED_SHARE writes the set's word and its members and returns the realised gain and
step. -/
def Obligations.FeedCommands : Prop :=
  ∀ (s : State) (c : Desc),
    let d := s.dev.silent
    let k := (d.takeOff c.ring.val).hqi.fetches
    let f := c.idx
    let ends := fun (e : Dev) => Host.Outcome.next (s.put e.settle)
    (∀ e ims code, d.accepts specFeedConfigure c → e = d.started specFeedConfigure c →
      (e.feed f).state.stopped = true →
      (c.expert = true → ims = c.images (feedRegs f) ∧ code = c.bufWord 9) →
      (c.expert = false → standardImages (e.feedConv f) e.reg 0 c.given (fieldList (feedRegs f)) [] = some ims ∧
        e.fsOf (40 + f) ≠ 0 ∧ code = c.bufWord (fieldList (feedRegs f)).length * 1024 / e.fsOf (40 + f)) →
      4 * ((if c.expert then 9 else (fieldList (feedRegs 0)).length) + 1) ≤ c.length.toNat →
      (c.expert = true → imagesOk ims = true) →
      (e.setImages ims).feedRegsOk f (c.gives (fieldList (feedRegs f))) = true → 1 ≤ code → code ≤ 1023 →
      (∀ e1, e1 = ((((e.setImages ims).setThreshold (120 + f) code).setField (FTA_CP_CFG.reg (120 + f)) 23 2 0).nameColumn
          (120 + f) (48 + f)).feedWarn f →
        exec (.feedConfigure c) s =
          ends (e1.commitAll k stDone [code, roundDivN (code * e.fsOf (40 + f)) 1024]))) ∧
    (∀ e, d.accepts specFeedSwitch c → e = d.started specFeedSwitch c → c.byte 20 = 1 →
      (((e.feed f).state = .on ∨ (e.feed f).state = .blocked) →
        exec (.feedSwitchOn c) s = ends (e.commitAll k stDone [])) ∧
      (∀ e1 e2, e1 = e.modFeed f (fun x => { x with cmds := x.cmds ++ [k] }) →
        e2 = (e.modFeed f (fun x => { x with retries := 0 })).modFeed f (fun x => { x with cmds := x.cmds ++ [k] }) →
        ((e.feed f).state = .inrush → exec (.feedSwitchOn c) s = ends (e1.commit k 2)) ∧
        ((e.feed f).state = .starting → exec (.feedSwitchOn c) s =
          ends (if (e.slot (slotFeed f)).state = .holding then e1.commit k 1 else e1)) ∧
        (e.feedReady f = true → e.noStarts = false →
          ((e.feed f).state = .off → e.slotBusy (slotFeed f) = false → exec (.feedSwitchOn c) s =
            ends (if 0 < e.holdLeft (e.feed f).hold then
              (e2.modFeed f (fun x => { x with wanted := true })).feedEnter f .tripped else e2.feedStart f .fresh)) ∧
          ((e.feed f).state = .tripped → exec (.feedSwitchOn c) s =
            ends ((e2.modFeed f (fun x => { x with wanted := true })).feedRetry f)) ∧
          ((e.feed f).state = .locked → e.slotBusy (slotFeed f) = false →
            exec (.feedSwitchOn c) s = ends (e2.feedStart f .fresh))))) ∧
    (∀ e, d.accepts specFeedSwitch c → e = d.started specFeedSwitch c → c.byte 20 = 0 →
      exec (.feedSwitchOff c) s = ends (if (e.feed f).state = .off then e.commitAll k stDone []
        else (((e.release (slotFeed f)).feedEnter f .off).feedEnd f stSuperseded).commitAll k stDone [])) ∧
    (∀ e e1 e2 ms i v per ki st w g r, d.accepts specFeedShare c → e = d.started specFeedShare c →
      ms = bitsIn 4 (bitsOf (c.byte 21) 0 4) → i = (ms.map (fun f => e.scaleOf (some (40 + f)))).headD 0 →
      v = (ms.map e.shareVfs).headD 0 → allSame (ms.map (fun f => e.scaleOf (some (40 + f)))) = true →
      allSame (ms.map e.shareVfs) = true → (ms.map e.shareVfs).contains 0 = false →
      (c.expert = true → w = putBit (c.num 24 4) 31 (c.byte 20 == 1) ∧ e1 = e) →
      (c.expert = false → per = roundDivN (c.num 24 4) 10 ∧ per ≤ 255 ∧
        ki = e.orFree (if ms.isEmpty then none else some (roundDivN (c.num 28 4 * per * i * 4096) (100000000 * v))) ∧
        st = ki.2.orFree (if ms.isEmpty then none else some (roundDivN (c.num 32 4 * per * 65536) (100000 * v))) ∧
        w = putBit (per * 65536 + oneToByte ki.1 * 256 + oneToByte st.1) 31 (c.byte 20 == 1) ∧ e1 = st.2) →
      c.byte 20 ≤ 1 → imageOk (FC_SHARE.reg f) w = true →
      e2 = forAll (fun f' d => if ms.contains f' then d.setField (FC_CTRL.reg f') 18 2 (f + 1)
        else if FC_CTRL.share_set d f' = f + 1 then d.setField (FC_CTRL.reg f') 18 2 0 else d) (indices 4)
          (e1.setImage (FC_SHARE.reg f) w) →
      g = e2.orFree (if ms.isEmpty then none
        else some (roundDivN (bitsOf w 8 8 * v * 100000000) (bitsOf w 16 8 * i * 4096))) →
      r = g.2.orFree (if ms.isEmpty then none else some (roundDivN (bitsOf w 0 8 * v * 100000) (bitsOf w 16 8 * 65536))) →
      exec (.feedShare c) s = ends (r.2.commitAll k stDone [g.1, r.1]))

/-- R241 to R247, R256, R260, R265, R399 (Table 9-1): STRING_CONFIGURE on an open string, STRING_CONNECT on and off,
ESTIMATOR_SET with the charge and the full charge it leaves, and ENTER_DEPOT, which turns branches and feeds off and
opens the strings. The model's choices: a command off in OPEN completes DONE and one in OPENING joins (log entry 91,
DEDUCED), and an ESTIMATOR_SET before step 8 of a start restores the string first (log entry 154, DEDUCED). -/
def Obligations.StringAndDepotCommands : Prop :=
  ∀ (s : State) (c : Desc),
    let d := s.dev.silent
    let k := (d.takeOff c.ring.val).hqi.fetches
    let n := c.idx
    let ends := fun (e : Dev) => Host.Outcome.next (s.put e.settle)
    (∀ e ims all ofs, d.accepts specStringConfigure c → e = d.started specStringConfigure c →
      (e.str n).state.stopped = true →
      (c.expert = true → ims = c.images (stringRegs n) ∧ ofs = bitsOf (c.bufWord 9) 8 8) →
      (c.expert = false →
        standardImages (stringConvert n) (fun off => if off = 0x20000 + n then (e.str n).ofs else e.reg off) 0 c.given
          (stringFields n) [] = some all ∧
        ofs = ((all.find? (fun p => p.1 == 0x20000 + n)).map (·.2)).getD (e.str n).ofs ∧
        ims = all.filter (fun p => p.1 < 0x20000)) →
      4 * (if c.expert then 13 else (stringFields 0).length) ≤ c.length.toNat →
      (c.expert = true → imagesOk ims = true) →
      (e.setImages ims).stringRegsOk n (c.gives (stringFields n)) = true →
      (∀ e1 e2, e1 = (e.setImages ims).modStr n (fun x => { x with ofs := ofs }) →
        e2 = (e1.refreshAux (BSM_STR_CFG.aux_grp e n)).refreshAux (BSM_STR_CFG.aux_grp e1 n) →
        exec (.stringConfigure c) s = ends (e2.commitAll k stDone []))) ∧
    (∀ e, d.accepts specStringConnect c → e = d.started specStringConnect c → c.byte 20 = 1 →
      ((e.str n).state = .connected → exec (.stringConnectOn c) s = ends (e.commitAll k stDone [])) ∧
      ((e.str n).state.stopped = true → e.strReady n = true → e.slotBusy (slotString n) = false → e.noStarts = false →
        exec (.stringConnectOn c) s = ends ((e.modStr n (fun x => { x with ons := [k] })).strStart n))) ∧
    (∀ e e1, d.accepts specStringConnect c → e = d.started specStringConnect c → c.byte 20 = 0 →
      e1 = e.modStr n (fun x => { x with offs := x.offs ++ [k] }) →
      exec (.stringConnectOff c) s = ends (if (e.str n).state.stopped then e.commitAll k stDone []
        else if (e.str n).state = .opening then e1.commit k 1 else e1.strOff n)) ∧
    (∀ e0 e x x1 x2 x3 e1 y, d.accepts specEstimatorSet c → e0 = d.started specEstimatorSet c →
      e = (if (e0.str n).est.live then e0 else e0.strResume n (e0.str n).est.ckpt false) → x = (e.str n).est →
      x1 = (if c.num 20 4 = 0xFFFFFFFF then x else { x with c := (c.num 20 4 : Int) * chargeUnit }) →
      x2 = (if c.num 24 2 = 0xFFFF then x1 else { x1 with q := x1.cap * (c.num 24 2 : Int) / 10000 }) →
      x3 = (if c.num 26 2 = 0xFFFF then x2 else { x2 with u := x2.part (c.num 26 2) }) →
      e1 = (((e.modEst n (fun _ => Estimator.redisplay { x3 with span := false, stale := false }
        (x.shown (BSM_STR_EST.floor e n)))).strExhaust n x).strStale n).strCheckpoint n false →
      y = (e1.str n).est →
      exec (.estimatorSet c) s =
        ends (e1.commitAll k stDone [word32 (inMah y.q), word32 (y.shown (BSM_STR_EST.floor e n))])) ∧
    (∀ e, d.accepts specEnterDepot c → e = d.started specEnterDepot c → e.mayDepart = true →
      exec (.enterDepot c) s =
        ends ((Dev.setLeaving (forAll (fun q x => x.strOff q) (indices 4) (forAll (fun q x => x.feedOff q) (indices 4)
          (forAll (fun q x => x.branchOff q) (indices 24) e))) (some ⟨some k, c.byte 20 == 1, 1, 0, 0⟩)).departStep))

/-- R274, R280, R281, R292, R294: TIMETABLE_LOAD with the Timetable down; TIMETABLE_RUN up from DOWN begins the first
step and from FALLING waits for the run down; run down from UP or RISING begins the fall; POL_TRANSACTION and
AVS_TRANSACTION take their place in the queue of an enabled master. -/
def Obligations.TimetableAndBusCommands : Prop :=
  ∀ (s : State) (c : Desc),
    let d := s.dev.silent
    let k := (d.takeOff c.ring.val).hqi.fetches
    let ends := fun (e : Dev) => Host.Outcome.next (s.put e.settle)
    (∀ e ims, d.accepts specTimetableLoad c → e = d.started specTimetableLoad c → e.tt.state = .down →
      (c.expert = true → ims = c.images timetableRegs) →
      (c.expert = false →
        standardImages (e.timetableConv c) e.reg 0 c.given (fieldList timetableRegs) [] = some ims) →
      4 * (if c.expert then timetableRegs.length else (fieldList timetableRegs).length) ≤ c.length.toNat →
      (c.expert = true → imagesOk ims = true) →
      (indices 16).all ((e.setImages ims).railRegsOk (c.gives (fieldList timetableRegs))) = true →
      exec (.timetableLoad c) s = ends ((e.setImages ims).commitAll k stDone [])) ∧
    (∀ e q, d.accepts specTimetableRun c → e = d.started specTimetableRun c → c.byte 20 = 1 → e.leadsBell = true →
      e.noStarts = false → q = ⟨some k, ringRank c.ring.val, 0⟩ →
      (e.tt.state = .down → e.tt.level = true → e.tt.queued = none →
        exec (.timetableRunUp c) s = ends (Dev.ttUp e q)) ∧
      (e.tt.state = .falling → e.tt.queued = none →
        exec (.timetableRunUp c) s = ends (e.modTt (fun t => { t with queued := some q }))) ∧
      (e.tt.state = .up → exec (.timetableRunUp c) s = ends (e.finish k stDone []))) ∧
    (∀ e e1, d.accepts specTimetableRun c → e = d.started specTimetableRun c → c.byte 20 = 0 → e.leadsBell = true →
      e1 = e.ttUnqueue stSuperseded →
      (e1.tt.state = .up → exec (.timetableRunDown c) s = ends (e1.ttFall (some k) (TT_CTRL.last_step e))) ∧
      (e1.tt.state = .rising → exec (.timetableRunDown c) s = ends (e1.ttFall (some k) e1.tt.step)) ∧
      ((e1.tt.state = .down ∨ e1.tt.state = .halted) → exec (.timetableRunDown c) s = ends (e1.finish k stDone []))) ∧
    (∀ e, d.accepts specPolTransaction c → e = d.started specPolTransaction c → PB_CFG.en e c.idx ≠ 0 →
      exec (.polTransaction c) s = ends (e.pbPut c.idx
        [⟨.user k, 3, c.byte 21, none, c.byte 22, polWrite c, polRead c, false, 0⟩])) ∧
    (∀ e, d.accepts specAvsTransaction c → e = d.started specAvsTransaction c → AV_CFG.en e c.idx ≠ 0 →
      exec (.avsTransaction c) s = ends (e.avPut c.idx [⟨.user k, c.byte 20, c.byte 21, c.byte 22, c.num 24 2, false⟩]))

/-- R53, R86, R87, R354, R411, R430, R436, R437: the commands that ask for leave before their second stage ask with
their ring's rank and Table 11-2's amounts, each on a slot of its own: RULEBOOK_COMMIT with the generation it names,
SET_PATTERN and COMPARATOR_MODE that add Express channels, RECORDER_CLEAR with the right tag, FUSE_PROGRAM and
LIFECYCLE_ADVANCE within VPP and temperature, and the calibration sweep of BGE_CONFIGURE. A mode command that adds no
Express channel moves its channels at once. That slot 78 holds a second request beside a held token is the model's
choice (log entry 24, DEDUCED). -/
def Obligations.CommandsThatAskForLeave : Prop :=
  ∀ (s : State) (c : Desc),
    let d := s.dev.silent
    let k := (d.takeOff c.ring.val).hqi.fetches
    let rank := ringRank c.ring.val
    let asks := fun (e : Dev) => ({ e with
      fuse := { e.fuse with asked := e.fuse.asked.filter (fun j => !e.gone (some j)) ++ [k] } } : Dev)
    let ends := fun (e : Dev) => Host.Outcome.next (s.put e.settle)
    (∀ e, d.accepts specRulebookCommit c → e = d.started specRulebookCommit c →
      (c.num 20 4 = 0xFFFFFFFF ∨ c.num 20 4 = e.bookGeneration) → e.slotBusy slotCommit = false →
      exec (.rulebookCommit c) s =
        ends (Dev.request e slotCommit { rank := rank, mram := 4, span := 4000000, tagged := true })) ∧
    (∀ e, d.accepts specSetPattern c → e = d.started specSetPattern c →
      let n := e.addedExpress ((indices 128).map (fun i => (i, e.patternMode (c.byte 20) i)))
      (n = 0 → exec (.setPattern c) s = ends (e.modeMoves (d.opened specSetPattern c))) ∧
      (n ≠ 0 → e.slotBusy slotMode = false → exec (.setPattern c) s =
        ends (Dev.request { e with trip := { e.trip with asking := some k } } slotMode
          { rank := rank, core := 11 * n, tagged := true }))) ∧
    (∀ e, d.accepts specComparatorMode c → e = d.started specComparatorMode c →
      let n := e.addedExpress ((bitsIn 128 (c.num 20 16)).map (fun i => (i, c.byte 36)))
      (n = 0 → exec (.comparatorMode c) s = ends (e.modeMoves (d.opened specComparatorMode c))) ∧
      (n ≠ 0 → e.slotBusy slotMode = false → exec (.comparatorMode c) s =
        ends (Dev.request { e with trip := { e.trip with asking := some k } } slotMode
          { rank := rank, core := 11 * n, tagged := true }))) ∧
    (∀ e e1 n, d.accepts specRecorderClear c → e = d.started specRecorderClear c → e.tr.log.length < 64 →
      e1 = { e with tr := { e.tr with nonce := none } } → e1.keyBlank = false → e.tr.nonce = some n →
      e1.clearTag n = slice c.params 0 16 → e1.slotBusy slotClear = false → e1.tr.clearing = none →
      exec (.recorderClear c) s = ends (Dev.request
        (Dev.commit { e1 with tr := { e1.tr with clearing := some ⟨false, 0, c.tag.toNat, k, 0, none⟩ } } k 1) slotClear
          { rank := rank, mram := 4, span := 40000000, tagged := true })) ∧
    (∀ e v, d.accepts specFuseProgram c → e = d.started specFuseProgram c → v = BitVec.ofNat 64 (c.num 20 8) → v ≠ 0 →
      reservedRow c.idx v = false → (e.fuse.row c.idx).copyA.strays v = false → (e.fuse.row c.idx).copyB.strays v = false →
      e.progOk = true → e.slotBusy slotFuse = false → e.slotBusy slotSecond = false →
      exec (.fuseProgram c) s = ends (Dev.request (asks e) (if (e.slot slotFuse).state = .empty then slotFuse else slotSecond)
        { rank := rank, prog := 1, span := 4000000, tagged := true })) ∧
    (∀ e, d.accepts specAdvance c → e = d.started specAdvance c → c.num 24 4 = e.serial % 2 ^ 32 → e.progOk = true →
      e.slotBusy slotFuse = false → e.slotBusy slotSecond = false →
      exec (.lifecycleAdvance c) s = ends (Dev.request (asks e) (if (e.slot slotFuse).state = .empty then slotFuse else slotSecond)
        { rank := rank, prog := 1, span := 4000000, tagged := true })) ∧
    (∀ e, d.accepts specBgeConfigure c → e = d.started specBgeConfigure c → c.byte 20 = 1 →
      (e.slot slotSweep).state = .empty → e.bge.sweeping = false →
      exec (.bgeConfigureSweep c) s = ends (Dev.request { e with bge := { e.bge with sweepCmd := some k } } slotSweep
        { rank := rank, core := TO_DECL.sweep e, span := 400000, tagged := true }))

/-- R79, R329, R335 to R337: INJECT_ARM, at the Expert level alone, opens its window; INJECT disarms, counts and
injects, and is observed until its observation ends; FAULT_RESUME with every condition of R329 commits its first
stage, restarts the engines and tests the lanes, those that lane health called for too; THRESHOLD_SET sets the code it
carries at the Expert level, that of its value at the Standard level. -/
def Obligations.MaintenanceCommands : Prop :=
  ∀ (s : State) (c : Desc),
    let d := s.dev.silent
    let k := (d.takeOff c.ring.val).hqi.fetches
    let ends := fun (e : Dev) => Host.Outcome.next (s.put e.settle)
    (∀ e, d.accepts specInjectArm c → e = d.started specInjectArm c →
      exec (.injectArm c) s = ends (({ e with il :=
        { e.il with armedUntil := some (e.core.uptime + c.num 20 4 * 40000) } } : Dev).commitAll k stDone [])) ∧
    (∀ e t x, d.accepts specInject c → e = d.started specInject c → e.il.armedUntil = some t →
      e.injectOk (c.byte 20) (c.num 24 4) (c.num 28 4) = true →
      x = ⟨c.byte 20, c.num 24 4, c.num 28 4, e.core.uptime + 10 * 40000, false, 0, c.tag.toNat, k⟩ →
      exec (.inject c) s = ends (Dev.injectNow { e with il := { e.il with
        armedUntil := none, watched := e.il.watched ++ [x], lastKind := c.byte 20, injections := held 255 (e.il.injections + 1) } }
          (c.byte 20) (c.num 24 4) (c.num 28 4))) ∧
    (∀ e e1 lanes left, d.accepts specFaultResume c → e = d.started specFaultResume c → e.mayResume = true →
      e.sup.resuming.bind (·.fetch) = none → left = (e.sup.resuming.map (·.named)).getD [] → e.core.phase = .running →
      lanes = (bitsIn 6 (c.byte 20)).filter (fun l => (e.lane l).state == .retired) →
      e1 = e.commit k 1 →
      (∀ x, x = forAll (fun l d => d.testLane l) lanes (Dev.setResuming { e1 with bge := { e1.bge with stopped := 0 } }
          (some ⟨some k, 2, left ++ lanes, indices 6, false, false, []⟩)) →
        exec (.faultResume c) s = ends (if lanes.isEmpty then x.resumeTested else x))) ∧
    (∀ e e1 (code : Nat), d.accepts specThresholdSet c → e = d.started specThresholdSet c → ¬ (96 ≤ c.idx ∧ c.idx ≤ 123) →
      (c.expert = true → code = c.num 20 2) → (c.expert = false → (code : Int) = e.thresholdCode c.idx (c.int 20 4)) →
      code ≤ 1023 → (c.byte 24 = 0xFF ∨ c.byte 24 = FTA_CP_CFG.hyst e c.idx ∨ FTA_CP_CFG.en e c.idx ≠ 1) →
      e1 = (if c.byte 24 = 0xFF then e else e.setField (0x1000 + 4 * c.idx) 26 3 (c.byte 24)) →
      exec (.thresholdSet c) s = ends ((e1.setThreshold c.idx code).commitAll k stDone
        [code, unsignedOf 32 (e.thresholdValue c.idx code)]))

/-- A step takes the command at the front of the queue and is exec of it with the rest of the queue, and exec leaves
the queue alone; on an empty queue one tick of 25 ns passes and nothing else happens (the tick is the model's choice,
log entry 9). -/
def Obligations.StepRunsTheFrontCommand : Prop :=
  (∀ (s : State) (c : Instr) (rest : List Instr),
    step { s with pending := c :: rest } = exec c { s with pending := rest }) ∧
  (∀ (s t : State) (c : Instr), exec c s = .next t → t.pending = s.pending) ∧
  (∀ s : State, s.pending = [] → step s = .next (s.put ({ s.dev with out := [] }.pass 1)))

/-- Values that the spec gives the device before its first start: R38 to R41 (calendar invalid, epoch 0, PWR_EN high),
R382 (ledger empty), R389 (first response PREVIOUS missing), R417, Tables 4-3, 7-1, 8-1, 9-1 and 10-1 (OFF, OPEN,
DOWN), R375, Table 14-26 (vectors), Table 3-18 (catch points), R461 (IDCODE), R12 (no Expert commands), and an empty
queue. State.reset is the state with VBAK newly applied (the model's choice, log entry 1). At reset nothing is owed,
no row of the trip matrix names a column, and so every driven column is latched. -/
def Obligations.ResetValuesOfTheSpec : Prop :=
  (let d := State.reset.dev
  State.reset.pending = [] ∧ d.core.uptime = 0 ∧ d.ka.valid = false ∧ d.ka.epoch = 0 ∧ d.ka.pwrEn = true ∧
  d.ledger = [] ∧ d.hqi.expertEn = false ∧ d.hqi.staged = [] ∧ d.sp.response = spResponse 6 0 0 ∧
  d.office.recovering = [] ∧ (∀ i : Fin 80, (d.slot i.val).state = .empty) ∧ d.trip.latches = 0 ∧
  (∀ r : Fin 11, (d.hqi.rings.get r).vec = if 4 ≤ r.val ∧ r.val < 8 then r.val - 4 else if 9 ≤ r.val then r.val - 5 else 0) ∧
  (∀ n : Fin 128, (d.cp n.val).neverGood = true) ∧ (∀ g : Fin 16, (d.group g.val).state = .off) ∧
  (∀ k : Fin 24, (d.leg k.val).state = .idle) ∧ (∀ f : Fin 4, (d.feed f.val).state = .off) ∧
  (∀ n : Fin 24, (d.branch n.val).state = .off) ∧ (∀ n : Fin 4, (d.str n.val).state = .opened) ∧
  d.tt.state = .down ∧ d.tap.ir = 0x2 ∧ d.tap.ident = 0x248247CF) ∧
  (State.reset.settled ∧ State.reset.dev.columnsHeld ∧ ∀ r, r < 152 → State.reset.dev.rowMask r = 0)

/-- R88, R91: each column that a driving row of the trip matrix latches (all it names, less the leg columns of a
cycle-by-cycle row) is latched in every state that a step leaves, where it was so before; every command and every tick
has a next state. -/
def Obligations.EveryStepHoldsDrivenColumns : Prop :=
  ∀ s : State, (∀ r, r < 152 → s.dev.rowDrives r = true → ∀ col, (s.dev.rowLatches r).testBit col = true →
      s.dev.trip.latches.testBit col = true) →
    ∃ t : State, step s = .next t ∧ ∀ r, r < 152 → t.dev.rowDrives r = true → ∀ col,
      (t.dev.rowLatches r).testBit col = true → t.dev.trip.latches.testBit col = true

/-- R360, R377: a descriptor that is not on the ring the HQI fetches from next stays there and changes nothing; the
HQI fetches from no ring while the core does not run, while the link is down and in D3hot. -/
def Obligations.OnlyTheTurnsRingIsFetched : Prop :=
  ∀ (s : State) (i : Instr) (sp : OpSpec) (c : Desc), hostCommand i = some (sp, c) → s.dev.still →
    let d := s.dev.silent
    (d.fetchTurn ≠ some c.ring.val → exec i s = .next (s.put d)) ∧
    ((d.coreRuns = false ∨ d.hqi.speed = 0 ∨ d.hqi.d3hot = true) → d.fetchTurn = none)

/-- R370 (Table 14-6), R378, R379, R381: the first check that a fetched descriptor fails completes it with that
check's status, no stage done, and nothing else changed but its ledger entry. One that passes takes its staging slot
and its ledger entry, an Expert one its EXPERT record, and begins when every earlier command with the same target has
committed a stage (but for the exempt ones) and no FENCE of its ring stands between; else it waits, and the first
waiting command in fetch order that may begin does. -/
def Obligations.FetchChecksInOrder : Prop :=
  let may := fun (preempt : Bool) (earlier : List OpenCmd) (c : Desc) =>
    (preempt = true ∨ ∀ x ∈ earlier, x.desc.target = c.target → 1 ≤ x.done) ∧
    ∀ x ∈ earlier, x.desc.ring = c.ring → x.desc.fence = false ∧ c.fence = false
  (∀ (s : State) (i : Instr) (sp : OpSpec) (c : Desc), hostCommand i = some (sp, c) →
    let d := s.dev.silent
    let e := d.takeOff c.ring.val
    let away := fun (status : Nat) => Host.Outcome.next (s.put (d.turnedAway sp c status).settle)
    d.fetchTurn = some c.ring.val →
      (sp.wrongTarget c → exec i s = away stBadParam) ∧
      (¬ sp.wrongTarget c → sp.wrongLevel c e → exec i s = away stRejected) ∧
      (¬ sp.wrongTarget c → ¬ sp.wrongLevel c e → (c.resume = false ∨ e.entryOf c.tag.toNat = none) →
        let denied := (if e.withdrawn then sp.inWithdrawn else sp.life c e) = false
        let closed := e.il.slw = true ∧ sp.inSlw c = false
        let bad := (c.expert = true ∧ sp.expOk = false) ∨ c.buffer.toNat % 8 ≠ 0 ∨ sp.params c e = false
        (denied → exec i s = away stDenied) ∧
        (¬ denied → closed → exec i s = away stRejected) ∧
        (¬ denied → ¬ closed → bad → exec i s = away stBadParam) ∧
        (¬ denied → ¬ closed → ¬ bad →
          let f := if c.expert then e.recordNow recExpert (expertPayload sp.code c) else e
          let k := f.hqi.fetches
          let o : OpenCmd := ⟨k, if sp.ledger then some k else none, sp.code, c, false, sp.total c e, 0, false, []⟩
          let g := if sp.ledger then f.addEntry (newEntry f sp.code c true 0xFF (sp.total c e)) else f
          let waits := ({ g with hqi := { g.hqi with staged := g.hqi.staged ++ [o] } } : Dev)
          (∀ x ∈ f.hqi.staged, x.fetch ≠ k) →
          (may (sp.preempt c) f.hqi.staged c → exec i s = .next (s.put (waits.beginCmd sp o).settle)) ∧
          (¬ may (sp.preempt c) f.hqi.staged c → exec i s = .next (s.put waits.settle))))) ∧
  (∀ (d : Dev) (o : OpenCmd) (sp : OpSpec) (pre post : List OpenCmd),
    let before := fun (x : OpenCmd) => d.hqi.staged.takeWhile (fun y => y.fetch != x.fetch)
    d.hqi.staged.filter (fun x => !x.begun) = pre ++ o :: post → opcodeOf o.op = some sp →
    (∀ x ∈ pre, ∀ q, opcodeOf x.op = some q → ¬ may (q.preempt x.desc) (before x) x.desc) →
    may (sp.preempt o.desc) (before o) o.desc → d.doWork .begin = (d.beginCmd sp o).owe .begin)

/-- R386 (Table 14-11), R387: a RESUME descriptor whose newest ledger entry is another command's, is open, or has
ended with a final status completes at once, with no entry of its own and the matched one unchanged. One whose entry a
link event, a fault, a leave given up or a rejection has closed, and which passes the checks that follow, reopens the
entry and goes on after the stages it records: on the path of its target it joins the work, off it it completes
REJECTED_STATE; a GROUP_ENABLE on whose group is in RUN commits its last stages at once. -/
def Obligations.ResumeOutcomes : Prop :=
  ∀ (s : State) (i : Instr) (sp : OpSpec) (c : Desc) (l : LedgerEntry), hostCommand i = some (sp, c) →
    let d := s.dev.silent
    let e := d.takeOff c.ring.val
    let ends := fun (status done total : Nat) =>
      Host.Outcome.next (s.put (e.postCompletion sp.code c false status done total []).settle)
    let same := l.op = sp.code ∧ l.target = c.target ∧ l.pcrc = c.pcrc
    d.fetchTurn = some c.ring.val → ¬ sp.wrongTarget c → ¬ sp.wrongLevel c e → c.resume = true →
      e.entryOf c.tag.toNat = some l →
      (¬ same → exec i s = ends stBadParam 0 (sp.total c e)) ∧
      (same → l.opened = true → exec i s = ends stRejected 0 (sp.total c e)) ∧
      (same → l.opened = false → l.status ∈ [stDone, stPartial, stSuperseded, stBadParam, stDenied, stAuthFailed] →
        exec i s = ends l.status l.done l.total) ∧
      (same → l.opened = false → l.status ∈ [stLinkReset, stAborted, stTokenTimeout, stRejected] →
        (if e.withdrawn then sp.inWithdrawn else sp.life c e) = true → (e.il.slw = true → sp.inSlw c = true) →
        (c.expert = true → sp.expOk = true) → c.buffer.toNat % 8 = 0 → sp.params c e = true →
        let f := if c.expert then e.recordNow recExpert (expertPayload sp.code c) else e
        let k := f.hqi.fetches
        let o : OpenCmd := ⟨k, some l.fetch, sp.code, c, true, l.total, l.done, true, []⟩
        let g := f.modEntry l.fetch (fun l => { l with opened := true, resumed := true, status := 0xFF })
        let x := ({ g with hqi := { g.hqi with staged := [o] } } : Dev)
        f.hqi.staged = [] → 1 ≤ l.done →
        (∀ y, sp.resume o x = some y → exec i s = .next (s.put y.settle)) ∧
        (sp.resume o x = none → exec i s = .next (s.put (x.finish k stRejected []).settle)) ∧
        (i = .groupEnableOn c → c.byte 20 = 1 → (x.group c.idx).state = .run →
          exec i s = .next (s.put (x.commitAll k stDone []).settle)))

/-- R398: in Withdrawn only NOP, STATE_SNAPSHOT, LEDGER_QUERY, RECORDER_READ, FUSE_READ and TELEMETRY_STREAM pass
check 5; every other opcode that reaches it completes with LIFECYCLE_DENIED. In the other states every opcode passes
but FUSE_PROGRAM and LIFECYCLE_ADVANCE. -/
def Obligations.WithdrawnAdmitsSixOpcodes : Prop :=
  ∀ (s : State) (i : Instr) (sp : OpSpec) (c : Desc), hostCommand i = some (sp, c) →
    let d := s.dev.silent
    let e := d.takeOff c.ring.val
    let admitted := sp.code ∈ [0x00, 0x01, 0x02, 0x70, 0x90, 0xA1]
    (sp.inWithdrawn = true ↔ admitted) ∧
    (sp.code ≠ 0x91 → sp.code ≠ 0x92 → ∀ x, sp.life c x = true) ∧
    (d.withdrawn = true → ¬ admitted → d.fetchTurn = some c.ring.val → ¬ sp.wrongTarget c → ¬ sp.wrongLevel c e →
      (c.resume = false ∨ e.entryOf c.tag.toNat = none) →
      exec i s = .next (s.put (d.turnedAway sp c stDenied).settle))

/-- R328: in Single-Line Working check 6 admits the opcodes of R328's list alone; every other that reaches it
completes with REJECTED_STATE. -/
def Obligations.SingleLineWorkingAdmits : Prop :=
  ∀ (s : State) (i : Instr) (sp : OpSpec) (c : Desc), hostCommand i = some (sp, c) →
    let d := s.dev.silent
    let e := d.takeOff c.ring.val
    let admitted := sp.code ∈ [0x00, 0x01, 0x02, 0x70, 0x90, 0xA1, 0x60, 0x61, 0x73, 0x43, 0xF2]
      ∨ (sp.code ∈ [0x13, 0x31, 0x21, 0x41, 0x51] ∧ c.byte 20 = 0) ∨ (sp.code = 0x18 ∧ c.byte 20 = 1)
    (sp.inSlw c = true ↔ admitted) ∧
    (d.il.slw = true → ¬ admitted → d.fetchTurn = some c.ring.val → ¬ sp.wrongTarget c → ¬ sp.wrongLevel c e →
      (c.resume = false ∨ e.entryOf c.tag.toNat = none) →
      (if e.withdrawn then sp.inWithdrawn else sp.life c e) = true →
      exec i s = .next (s.put (d.turnedAway sp c stRejected).settle))

/-- R102, R103, R104: the proposal of a regulator is the sum of its rounded and saturated products in the order of
R102, and lies in the Q20.20 range; where no addition saturates it is the exact sum of the products. -/
def Obligations.CompensatorSumsItsTerms : Prop :=
  ∀ (third : Bool) (b0 b1 b2 b3 a1 a2 a3 e e1 e2 e3 y1 y2 y3 : Int),
    let r := compensate third [b0, b1, b2, b3, a1, a2, a3] e e1 e2 e3 y1 y2 y3
    let p := fun (x y : Int) => max (-(2 ^ 39)) (min (2 ^ 39 - 1) ((x * y + 2 ^ 19) / 2 ^ 20))
    r.1 ≤ 2 ^ 39 - 1 ∧ -(2 ^ 39) ≤ r.1 ∧
    (r.2 = 0 → r.1 = p b0 e + p b1 e1 + p b2 e2 + (if third then p b3 e3 else 0) + p a1 y1 + p a2 y2
      + (if third then p a3 y3 else 0))

/-- R407, R383, R396, R400, R57, R447: frames. A command that only reads, where it is admitted, changes the HQI, the
ledger, the host heartbeat and what is sent outward, and nothing else; TELEMETRY_STREAM besides these its stream of
the table and that stream's time, and BGE_CONFIGURE with intervals the registers alone, of which those outside the
interval words keep their values. -/
def Obligations.ReadingAndSettingFrames : Prop :=
  ∀ (s t : State) (c : Desc), s.dev.still →
    let d := s.dev.silent
    let beat := { d.il with hostBeat := d.core.uptime, hostSilent := false }
    let rest := fun (x : Dev) => t.pending = s.pending ∧
      t.dev = { x with hqi := t.dev.hqi, ledger := t.dev.ledger, il := beat, out := t.dev.out }
    (d.admits specNop c → exec (.nop c) s = .next t → rest s.dev) ∧
    (d.admits specStateSnapshot c → exec (.stateSnapshot c) s = .next t → rest s.dev) ∧
    (d.admits specLedgerQuery c → exec (.ledgerQuery c) s = .next t → rest s.dev) ∧
    (d.admits specRecorderRead c → exec (.recorderRead c) s = .next t → rest s.dev) ∧
    (d.admits specFuseRead c → exec (.fuseRead c) s = .next t → rest s.dev) ∧
    (d.admits specTelemetryStream c → exec (.telemetryStream c) s = .next t →
      rest { s.dev with bge := { s.dev.bge with streams := t.dev.bge.streams, works := t.dev.bge.works } } ∧
      (∀ j, j ≠ c.idx → fileGet t.dev.bge.streams j default = fileGet s.dev.bge.streams j default) ∧
      ∀ j, j ≠ 8 + c.idx → t.dev.work j = s.dev.work j) ∧
    (d.admits specBgeConfigure c → c.byte 20 = 0 → exec (.bgeConfigureIntervals c) s = .next t →
      rest { s.dev with cfg := t.dev.cfg } ∧ ∀ off, (∀ w, w < 8 → off ≠ 0x6000 + 4 * w) → t.dev.reg off = s.dev.reg off)

/-- R411, R412: leave granted to a RULEBOOK_COMMIT runs its second stage: the copy that is not newer takes the image
of that moment with a generation one above, the other copy and the configuration stay, and the slot is released. Read
back as written, it is valid, the newer copy and the image last committed; read back otherwise, it is not valid and
the other copy is the newer one if it is valid. That copy A is written where no copy is valid is the model's choice
(log entry 36, DEDUCED), and what the readback finds is a free value (log entry 150). -/
def Obligations.GrantedCommitWritesTheOtherCopy : Prop :=
  ∀ (d : Dev) (k : Nat), (d.slot slotCommit).tagged = true → (d.slot slotCommit).state = .holding →
    d.committing = some k →
    let into := if d.newerCopy = some 0 then 1 else 0
    let gen := (d.bookGeneration + 1) % 2 ^ 32
    let e := d.doWork (.granted slotCommit)
    e.book.copy into = ⟨Config.readsBack d.fresh, gen, d.cfg⟩ ∧ e.book.copy (1 - into) = d.book.copy (1 - into) ∧
    e.cfg = d.cfg ∧ (e.slot slotCommit).state = .empty ∧
    (Config.readsBack d.fresh = true → e.book.loaded = d.cfg ∧ e.book.counter = gen ∧
      (d.bookGeneration + 1 < 2 ^ 32 → e.newerCopy = some into)) ∧
    (Config.readsBack d.fresh = false → e.book.loaded = d.book.loaded ∧
      e.newerCopy = if d.copyValid (1 - into) then some (1 - into) else none)
end

