-- ==== Sys2Proof/Laws/State.lean ====
section
/-! SUPPORT. What each named update of the state leaves in each field: one lemma per field per update, so that no proof
unfolds a record update. -/
namespace Sys2Proof.Machine

/-! ### State.put -/

@[simp] theorem State.put_dev (s : State) (d : Dev) : (s.put d).dev = d := rfl
@[simp] theorem State.put_pending (s : State) (d : Dev) : (s.put d).pending = s.pending := rfl
@[simp] theorem State.put_put (s : State) (d e : Dev) : (s.put d).put e = s.put e := rfl
@[simp] theorem State.put_self (s : State) : s.put s.dev = s := rfl

/-! ### Dev.emit -/

@[simp] theorem Dev.emit_core (d : Dev) (o : Out) : (d.emit o).core = d.core := rfl
@[simp] theorem Dev.emit_ka (d : Dev) (o : Out) : (d.emit o).ka = d.ka := rfl
@[simp] theorem Dev.emit_cfg (d : Dev) (o : Out) : (d.emit o).cfg = d.cfg := rfl
@[simp] theorem Dev.emit_book (d : Dev) (o : Out) : (d.emit o).book = d.book := rfl
@[simp] theorem Dev.emit_hqi (d : Dev) (o : Out) : (d.emit o).hqi = d.hqi := rfl
@[simp] theorem Dev.emit_ledger (d : Dev) (o : Out) : (d.emit o).ledger = d.ledger := rfl
@[simp] theorem Dev.emit_sp (d : Dev) (o : Out) : (d.emit o).sp = d.sp := rfl
@[simp] theorem Dev.emit_office (d : Dev) (o : Out) : (d.emit o).office = d.office := rfl
@[simp] theorem Dev.emit_il (d : Dev) (o : Out) : (d.emit o).il = d.il := rfl
@[simp] theorem Dev.emit_tr (d : Dev) (o : Out) : (d.emit o).tr = d.tr := rfl
@[simp] theorem Dev.emit_sars (d : Dev) (o : Out) : (d.emit o).sars = d.sars := rfl
@[simp] theorem Dev.emit_ccs (d : Dev) (o : Out) : (d.emit o).ccs = d.ccs := rfl
@[simp] theorem Dev.emit_house (d : Dev) (o : Out) : (d.emit o).house = d.house := rfl
@[simp] theorem Dev.emit_cps (d : Dev) (o : Out) : (d.emit o).cps = d.cps := rfl
@[simp] theorem Dev.emit_drv (d : Dev) (o : Out) : (d.emit o).drv = d.drv := rfl
@[simp] theorem Dev.emit_trip (d : Dev) (o : Out) : (d.emit o).trip = d.trip := rfl
@[simp] theorem Dev.emit_fuse (d : Dev) (o : Out) : (d.emit o).fuse = d.fuse := rfl
@[simp] theorem Dev.emit_bge (d : Dev) (o : Out) : (d.emit o).bge = d.bge := rfl
@[simp] theorem Dev.emit_groups (d : Dev) (o : Out) : (d.emit o).groups = d.groups := rfl
@[simp] theorem Dev.emit_legs (d : Dev) (o : Out) : (d.emit o).legs = d.legs := rfl
@[simp] theorem Dev.emit_sup (d : Dev) (o : Out) : (d.emit o).sup = d.sup := rfl
@[simp] theorem Dev.emit_feeds (d : Dev) (o : Out) : (d.emit o).feeds = d.feeds := rfl
@[simp] theorem Dev.emit_branches (d : Dev) (o : Out) : (d.emit o).branches = d.branches := rfl
@[simp] theorem Dev.emit_banks (d : Dev) (o : Out) : (d.emit o).banks = d.banks := rfl
@[simp] theorem Dev.emit_strings (d : Dev) (o : Out) : (d.emit o).strings = d.strings := rfl
@[simp] theorem Dev.emit_shelf (d : Dev) (o : Out) : (d.emit o).shelf = d.shelf := rfl
@[simp] theorem Dev.emit_tt (d : Dev) (o : Out) : (d.emit o).tt = d.tt := rfl
@[simp] theorem Dev.emit_pmbus (d : Dev) (o : Out) : (d.emit o).pmbus = d.pmbus := rfl
@[simp] theorem Dev.emit_avs (d : Dev) (o : Out) : (d.emit o).avs = d.avs := rfl
@[simp] theorem Dev.emit_tap (d : Dev) (o : Out) : (d.emit o).tap = d.tap := rfl
@[simp] theorem Dev.emit_startCount (d : Dev) (o : Out) : (d.emit o).startCount = d.startCount := rfl
@[simp] theorem Dev.emit_due (d : Dev) (o : Out) : (d.emit o).due = d.due := rfl
@[simp] theorem Dev.emit_out (d : Dev) (o : Out) : (d.emit o).out = d.out ++ [o] := rfl
@[simp] theorem Dev.emit_fresh (d : Dev) (o : Out) : (d.emit o).fresh = d.fresh := rfl

/-! ### Dev.owe -/

@[simp] theorem Dev.owe_core (d : Dev) (w : Work) : (d.owe w).core = d.core := rfl
@[simp] theorem Dev.owe_ka (d : Dev) (w : Work) : (d.owe w).ka = d.ka := rfl
@[simp] theorem Dev.owe_cfg (d : Dev) (w : Work) : (d.owe w).cfg = d.cfg := rfl
@[simp] theorem Dev.owe_book (d : Dev) (w : Work) : (d.owe w).book = d.book := rfl
@[simp] theorem Dev.owe_hqi (d : Dev) (w : Work) : (d.owe w).hqi = d.hqi := rfl
@[simp] theorem Dev.owe_ledger (d : Dev) (w : Work) : (d.owe w).ledger = d.ledger := rfl
@[simp] theorem Dev.owe_sp (d : Dev) (w : Work) : (d.owe w).sp = d.sp := rfl
@[simp] theorem Dev.owe_office (d : Dev) (w : Work) : (d.owe w).office = d.office := rfl
@[simp] theorem Dev.owe_il (d : Dev) (w : Work) : (d.owe w).il = d.il := rfl
@[simp] theorem Dev.owe_tr (d : Dev) (w : Work) : (d.owe w).tr = d.tr := rfl
@[simp] theorem Dev.owe_sars (d : Dev) (w : Work) : (d.owe w).sars = d.sars := rfl
@[simp] theorem Dev.owe_ccs (d : Dev) (w : Work) : (d.owe w).ccs = d.ccs := rfl
@[simp] theorem Dev.owe_house (d : Dev) (w : Work) : (d.owe w).house = d.house := rfl
@[simp] theorem Dev.owe_cps (d : Dev) (w : Work) : (d.owe w).cps = d.cps := rfl
@[simp] theorem Dev.owe_drv (d : Dev) (w : Work) : (d.owe w).drv = d.drv := rfl
@[simp] theorem Dev.owe_trip (d : Dev) (w : Work) : (d.owe w).trip = d.trip := rfl
@[simp] theorem Dev.owe_fuse (d : Dev) (w : Work) : (d.owe w).fuse = d.fuse := rfl
@[simp] theorem Dev.owe_bge (d : Dev) (w : Work) : (d.owe w).bge = d.bge := rfl
@[simp] theorem Dev.owe_groups (d : Dev) (w : Work) : (d.owe w).groups = d.groups := rfl
@[simp] theorem Dev.owe_legs (d : Dev) (w : Work) : (d.owe w).legs = d.legs := rfl
@[simp] theorem Dev.owe_sup (d : Dev) (w : Work) : (d.owe w).sup = d.sup := rfl
@[simp] theorem Dev.owe_feeds (d : Dev) (w : Work) : (d.owe w).feeds = d.feeds := rfl
@[simp] theorem Dev.owe_branches (d : Dev) (w : Work) : (d.owe w).branches = d.branches := rfl
@[simp] theorem Dev.owe_banks (d : Dev) (w : Work) : (d.owe w).banks = d.banks := rfl
@[simp] theorem Dev.owe_strings (d : Dev) (w : Work) : (d.owe w).strings = d.strings := rfl
@[simp] theorem Dev.owe_shelf (d : Dev) (w : Work) : (d.owe w).shelf = d.shelf := rfl
@[simp] theorem Dev.owe_tt (d : Dev) (w : Work) : (d.owe w).tt = d.tt := rfl
@[simp] theorem Dev.owe_pmbus (d : Dev) (w : Work) : (d.owe w).pmbus = d.pmbus := rfl
@[simp] theorem Dev.owe_avs (d : Dev) (w : Work) : (d.owe w).avs = d.avs := rfl
@[simp] theorem Dev.owe_tap (d : Dev) (w : Work) : (d.owe w).tap = d.tap := rfl
@[simp] theorem Dev.owe_startCount (d : Dev) (w : Work) : (d.owe w).startCount = d.startCount := rfl
@[simp] theorem Dev.owe_due (d : Dev) (w : Work) : (d.owe w).due = d.due ++ [w] := rfl
@[simp] theorem Dev.owe_out (d : Dev) (w : Work) : (d.owe w).out = d.out := rfl
@[simp] theorem Dev.owe_fresh (d : Dev) (w : Work) : (d.owe w).fresh = d.fresh := rfl

/-! ### Dev.oweAll -/

@[simp] theorem Dev.oweAll_core (d : Dev) (ws : List Work) : (d.oweAll ws).core = d.core := rfl
@[simp] theorem Dev.oweAll_ka (d : Dev) (ws : List Work) : (d.oweAll ws).ka = d.ka := rfl
@[simp] theorem Dev.oweAll_cfg (d : Dev) (ws : List Work) : (d.oweAll ws).cfg = d.cfg := rfl
@[simp] theorem Dev.oweAll_book (d : Dev) (ws : List Work) : (d.oweAll ws).book = d.book := rfl
@[simp] theorem Dev.oweAll_hqi (d : Dev) (ws : List Work) : (d.oweAll ws).hqi = d.hqi := rfl
@[simp] theorem Dev.oweAll_ledger (d : Dev) (ws : List Work) : (d.oweAll ws).ledger = d.ledger := rfl
@[simp] theorem Dev.oweAll_sp (d : Dev) (ws : List Work) : (d.oweAll ws).sp = d.sp := rfl
@[simp] theorem Dev.oweAll_office (d : Dev) (ws : List Work) : (d.oweAll ws).office = d.office := rfl
@[simp] theorem Dev.oweAll_il (d : Dev) (ws : List Work) : (d.oweAll ws).il = d.il := rfl
@[simp] theorem Dev.oweAll_tr (d : Dev) (ws : List Work) : (d.oweAll ws).tr = d.tr := rfl
@[simp] theorem Dev.oweAll_sars (d : Dev) (ws : List Work) : (d.oweAll ws).sars = d.sars := rfl
@[simp] theorem Dev.oweAll_ccs (d : Dev) (ws : List Work) : (d.oweAll ws).ccs = d.ccs := rfl
@[simp] theorem Dev.oweAll_house (d : Dev) (ws : List Work) : (d.oweAll ws).house = d.house := rfl
@[simp] theorem Dev.oweAll_cps (d : Dev) (ws : List Work) : (d.oweAll ws).cps = d.cps := rfl
@[simp] theorem Dev.oweAll_drv (d : Dev) (ws : List Work) : (d.oweAll ws).drv = d.drv := rfl
@[simp] theorem Dev.oweAll_trip (d : Dev) (ws : List Work) : (d.oweAll ws).trip = d.trip := rfl
@[simp] theorem Dev.oweAll_fuse (d : Dev) (ws : List Work) : (d.oweAll ws).fuse = d.fuse := rfl
@[simp] theorem Dev.oweAll_bge (d : Dev) (ws : List Work) : (d.oweAll ws).bge = d.bge := rfl
@[simp] theorem Dev.oweAll_groups (d : Dev) (ws : List Work) : (d.oweAll ws).groups = d.groups := rfl
@[simp] theorem Dev.oweAll_legs (d : Dev) (ws : List Work) : (d.oweAll ws).legs = d.legs := rfl
@[simp] theorem Dev.oweAll_sup (d : Dev) (ws : List Work) : (d.oweAll ws).sup = d.sup := rfl
@[simp] theorem Dev.oweAll_feeds (d : Dev) (ws : List Work) : (d.oweAll ws).feeds = d.feeds := rfl
@[simp] theorem Dev.oweAll_branches (d : Dev) (ws : List Work) : (d.oweAll ws).branches = d.branches := rfl
@[simp] theorem Dev.oweAll_banks (d : Dev) (ws : List Work) : (d.oweAll ws).banks = d.banks := rfl
@[simp] theorem Dev.oweAll_strings (d : Dev) (ws : List Work) : (d.oweAll ws).strings = d.strings := rfl
@[simp] theorem Dev.oweAll_shelf (d : Dev) (ws : List Work) : (d.oweAll ws).shelf = d.shelf := rfl
@[simp] theorem Dev.oweAll_tt (d : Dev) (ws : List Work) : (d.oweAll ws).tt = d.tt := rfl
@[simp] theorem Dev.oweAll_pmbus (d : Dev) (ws : List Work) : (d.oweAll ws).pmbus = d.pmbus := rfl
@[simp] theorem Dev.oweAll_avs (d : Dev) (ws : List Work) : (d.oweAll ws).avs = d.avs := rfl
@[simp] theorem Dev.oweAll_tap (d : Dev) (ws : List Work) : (d.oweAll ws).tap = d.tap := rfl
@[simp] theorem Dev.oweAll_startCount (d : Dev) (ws : List Work) : (d.oweAll ws).startCount = d.startCount := rfl
@[simp] theorem Dev.oweAll_due (d : Dev) (ws : List Work) : (d.oweAll ws).due = d.due ++ ws := rfl
@[simp] theorem Dev.oweAll_out (d : Dev) (ws : List Work) : (d.oweAll ws).out = d.out := rfl
@[simp] theorem Dev.oweAll_fresh (d : Dev) (ws : List Work) : (d.oweAll ws).fresh = d.fresh := rfl

/-! ### Dev.setReg -/

@[simp] theorem Dev.setReg_core (d : Dev) (a v : Nat) : (d.setReg a v).core = d.core := rfl
@[simp] theorem Dev.setReg_ka (d : Dev) (a v : Nat) : (d.setReg a v).ka = d.ka := rfl
@[simp] theorem Dev.setReg_cfg (d : Dev) (a v : Nat) : (d.setReg a v).cfg = d.cfg.set a (BitVec.ofNat 32 v) := rfl
@[simp] theorem Dev.setReg_book (d : Dev) (a v : Nat) : (d.setReg a v).book = d.book := rfl
@[simp] theorem Dev.setReg_hqi (d : Dev) (a v : Nat) : (d.setReg a v).hqi = d.hqi := rfl
@[simp] theorem Dev.setReg_ledger (d : Dev) (a v : Nat) : (d.setReg a v).ledger = d.ledger := rfl
@[simp] theorem Dev.setReg_sp (d : Dev) (a v : Nat) : (d.setReg a v).sp = d.sp := rfl
@[simp] theorem Dev.setReg_office (d : Dev) (a v : Nat) : (d.setReg a v).office = d.office := rfl
@[simp] theorem Dev.setReg_il (d : Dev) (a v : Nat) : (d.setReg a v).il = d.il := rfl
@[simp] theorem Dev.setReg_tr (d : Dev) (a v : Nat) : (d.setReg a v).tr = d.tr := rfl
@[simp] theorem Dev.setReg_sars (d : Dev) (a v : Nat) : (d.setReg a v).sars = d.sars := rfl
@[simp] theorem Dev.setReg_ccs (d : Dev) (a v : Nat) : (d.setReg a v).ccs = d.ccs := rfl
@[simp] theorem Dev.setReg_house (d : Dev) (a v : Nat) : (d.setReg a v).house = d.house := rfl
@[simp] theorem Dev.setReg_cps (d : Dev) (a v : Nat) : (d.setReg a v).cps = d.cps := rfl
@[simp] theorem Dev.setReg_drv (d : Dev) (a v : Nat) : (d.setReg a v).drv = d.drv := rfl
@[simp] theorem Dev.setReg_trip (d : Dev) (a v : Nat) : (d.setReg a v).trip = d.trip := rfl
@[simp] theorem Dev.setReg_fuse (d : Dev) (a v : Nat) : (d.setReg a v).fuse = d.fuse := rfl
@[simp] theorem Dev.setReg_bge (d : Dev) (a v : Nat) : (d.setReg a v).bge = d.bge := rfl
@[simp] theorem Dev.setReg_groups (d : Dev) (a v : Nat) : (d.setReg a v).groups = d.groups := rfl
@[simp] theorem Dev.setReg_legs (d : Dev) (a v : Nat) : (d.setReg a v).legs = d.legs := rfl
@[simp] theorem Dev.setReg_sup (d : Dev) (a v : Nat) : (d.setReg a v).sup = d.sup := rfl
@[simp] theorem Dev.setReg_feeds (d : Dev) (a v : Nat) : (d.setReg a v).feeds = d.feeds := rfl
@[simp] theorem Dev.setReg_branches (d : Dev) (a v : Nat) : (d.setReg a v).branches = d.branches := rfl
@[simp] theorem Dev.setReg_banks (d : Dev) (a v : Nat) : (d.setReg a v).banks = d.banks := rfl
@[simp] theorem Dev.setReg_strings (d : Dev) (a v : Nat) : (d.setReg a v).strings = d.strings := rfl
@[simp] theorem Dev.setReg_shelf (d : Dev) (a v : Nat) : (d.setReg a v).shelf = d.shelf := rfl
@[simp] theorem Dev.setReg_tt (d : Dev) (a v : Nat) : (d.setReg a v).tt = d.tt := rfl
@[simp] theorem Dev.setReg_pmbus (d : Dev) (a v : Nat) : (d.setReg a v).pmbus = d.pmbus := rfl
@[simp] theorem Dev.setReg_avs (d : Dev) (a v : Nat) : (d.setReg a v).avs = d.avs := rfl
@[simp] theorem Dev.setReg_tap (d : Dev) (a v : Nat) : (d.setReg a v).tap = d.tap := rfl
@[simp] theorem Dev.setReg_startCount (d : Dev) (a v : Nat) : (d.setReg a v).startCount = d.startCount := rfl
@[simp] theorem Dev.setReg_due (d : Dev) (a v : Nat) : (d.setReg a v).due = d.due := rfl
@[simp] theorem Dev.setReg_out (d : Dev) (a v : Nat) : (d.setReg a v).out = d.out := rfl
@[simp] theorem Dev.setReg_fresh (d : Dev) (a v : Nat) : (d.setReg a v).fresh = d.fresh := rfl

/-! ### Dev.modRing -/

@[simp] theorem Dev.modRing_core (d : Dev) (r : Nat) (f : Ring → Ring) : (d.modRing r f).core = d.core := rfl
@[simp] theorem Dev.modRing_ka (d : Dev) (r : Nat) (f : Ring → Ring) : (d.modRing r f).ka = d.ka := rfl
@[simp] theorem Dev.modRing_cfg (d : Dev) (r : Nat) (f : Ring → Ring) : (d.modRing r f).cfg = d.cfg := rfl
@[simp] theorem Dev.modRing_book (d : Dev) (r : Nat) (f : Ring → Ring) : (d.modRing r f).book = d.book := rfl
@[simp] theorem Dev.modRing_hqi (d : Dev) (r : Nat) (f : Ring → Ring) : (d.modRing r f).hqi = { d.hqi with rings := fileMod d.hqi.rings r f } := rfl
@[simp] theorem Dev.modRing_ledger (d : Dev) (r : Nat) (f : Ring → Ring) : (d.modRing r f).ledger = d.ledger := rfl
@[simp] theorem Dev.modRing_sp (d : Dev) (r : Nat) (f : Ring → Ring) : (d.modRing r f).sp = d.sp := rfl
@[simp] theorem Dev.modRing_office (d : Dev) (r : Nat) (f : Ring → Ring) : (d.modRing r f).office = d.office := rfl
@[simp] theorem Dev.modRing_il (d : Dev) (r : Nat) (f : Ring → Ring) : (d.modRing r f).il = d.il := rfl
@[simp] theorem Dev.modRing_tr (d : Dev) (r : Nat) (f : Ring → Ring) : (d.modRing r f).tr = d.tr := rfl
@[simp] theorem Dev.modRing_sars (d : Dev) (r : Nat) (f : Ring → Ring) : (d.modRing r f).sars = d.sars := rfl
@[simp] theorem Dev.modRing_ccs (d : Dev) (r : Nat) (f : Ring → Ring) : (d.modRing r f).ccs = d.ccs := rfl
@[simp] theorem Dev.modRing_house (d : Dev) (r : Nat) (f : Ring → Ring) : (d.modRing r f).house = d.house := rfl
@[simp] theorem Dev.modRing_cps (d : Dev) (r : Nat) (f : Ring → Ring) : (d.modRing r f).cps = d.cps := rfl
@[simp] theorem Dev.modRing_drv (d : Dev) (r : Nat) (f : Ring → Ring) : (d.modRing r f).drv = d.drv := rfl
@[simp] theorem Dev.modRing_trip (d : Dev) (r : Nat) (f : Ring → Ring) : (d.modRing r f).trip = d.trip := rfl
@[simp] theorem Dev.modRing_fuse (d : Dev) (r : Nat) (f : Ring → Ring) : (d.modRing r f).fuse = d.fuse := rfl
@[simp] theorem Dev.modRing_bge (d : Dev) (r : Nat) (f : Ring → Ring) : (d.modRing r f).bge = d.bge := rfl
@[simp] theorem Dev.modRing_groups (d : Dev) (r : Nat) (f : Ring → Ring) : (d.modRing r f).groups = d.groups := rfl
@[simp] theorem Dev.modRing_legs (d : Dev) (r : Nat) (f : Ring → Ring) : (d.modRing r f).legs = d.legs := rfl
@[simp] theorem Dev.modRing_sup (d : Dev) (r : Nat) (f : Ring → Ring) : (d.modRing r f).sup = d.sup := rfl
@[simp] theorem Dev.modRing_feeds (d : Dev) (r : Nat) (f : Ring → Ring) : (d.modRing r f).feeds = d.feeds := rfl
@[simp] theorem Dev.modRing_branches (d : Dev) (r : Nat) (f : Ring → Ring) : (d.modRing r f).branches = d.branches := rfl
@[simp] theorem Dev.modRing_banks (d : Dev) (r : Nat) (f : Ring → Ring) : (d.modRing r f).banks = d.banks := rfl
@[simp] theorem Dev.modRing_strings (d : Dev) (r : Nat) (f : Ring → Ring) : (d.modRing r f).strings = d.strings := rfl
@[simp] theorem Dev.modRing_shelf (d : Dev) (r : Nat) (f : Ring → Ring) : (d.modRing r f).shelf = d.shelf := rfl
@[simp] theorem Dev.modRing_tt (d : Dev) (r : Nat) (f : Ring → Ring) : (d.modRing r f).tt = d.tt := rfl
@[simp] theorem Dev.modRing_pmbus (d : Dev) (r : Nat) (f : Ring → Ring) : (d.modRing r f).pmbus = d.pmbus := rfl
@[simp] theorem Dev.modRing_avs (d : Dev) (r : Nat) (f : Ring → Ring) : (d.modRing r f).avs = d.avs := rfl
@[simp] theorem Dev.modRing_tap (d : Dev) (r : Nat) (f : Ring → Ring) : (d.modRing r f).tap = d.tap := rfl
@[simp] theorem Dev.modRing_startCount (d : Dev) (r : Nat) (f : Ring → Ring) : (d.modRing r f).startCount = d.startCount := rfl
@[simp] theorem Dev.modRing_due (d : Dev) (r : Nat) (f : Ring → Ring) : (d.modRing r f).due = d.due := rfl
@[simp] theorem Dev.modRing_out (d : Dev) (r : Nat) (f : Ring → Ring) : (d.modRing r f).out = d.out := rfl
@[simp] theorem Dev.modRing_fresh (d : Dev) (r : Nat) (f : Ring → Ring) : (d.modRing r f).fresh = d.fresh := rfl

/-! ### Dev.modCmd -/

@[simp] theorem Dev.modCmd_core (d : Dev) (k : Nat) (f : OpenCmd → OpenCmd) : (d.modCmd k f).core = d.core := rfl
@[simp] theorem Dev.modCmd_ka (d : Dev) (k : Nat) (f : OpenCmd → OpenCmd) : (d.modCmd k f).ka = d.ka := rfl
@[simp] theorem Dev.modCmd_cfg (d : Dev) (k : Nat) (f : OpenCmd → OpenCmd) : (d.modCmd k f).cfg = d.cfg := rfl
@[simp] theorem Dev.modCmd_book (d : Dev) (k : Nat) (f : OpenCmd → OpenCmd) : (d.modCmd k f).book = d.book := rfl
@[simp] theorem Dev.modCmd_hqi (d : Dev) (k : Nat) (f : OpenCmd → OpenCmd) : (d.modCmd k f).hqi = { d.hqi with staged := d.hqi.staged.map (fun c => if c.fetch = k then f c else c) } := rfl
@[simp] theorem Dev.modCmd_ledger (d : Dev) (k : Nat) (f : OpenCmd → OpenCmd) : (d.modCmd k f).ledger = d.ledger := rfl
@[simp] theorem Dev.modCmd_sp (d : Dev) (k : Nat) (f : OpenCmd → OpenCmd) : (d.modCmd k f).sp = d.sp := rfl
@[simp] theorem Dev.modCmd_office (d : Dev) (k : Nat) (f : OpenCmd → OpenCmd) : (d.modCmd k f).office = d.office := rfl
@[simp] theorem Dev.modCmd_il (d : Dev) (k : Nat) (f : OpenCmd → OpenCmd) : (d.modCmd k f).il = d.il := rfl
@[simp] theorem Dev.modCmd_tr (d : Dev) (k : Nat) (f : OpenCmd → OpenCmd) : (d.modCmd k f).tr = d.tr := rfl
@[simp] theorem Dev.modCmd_sars (d : Dev) (k : Nat) (f : OpenCmd → OpenCmd) : (d.modCmd k f).sars = d.sars := rfl
@[simp] theorem Dev.modCmd_ccs (d : Dev) (k : Nat) (f : OpenCmd → OpenCmd) : (d.modCmd k f).ccs = d.ccs := rfl
@[simp] theorem Dev.modCmd_house (d : Dev) (k : Nat) (f : OpenCmd → OpenCmd) : (d.modCmd k f).house = d.house := rfl
@[simp] theorem Dev.modCmd_cps (d : Dev) (k : Nat) (f : OpenCmd → OpenCmd) : (d.modCmd k f).cps = d.cps := rfl
@[simp] theorem Dev.modCmd_drv (d : Dev) (k : Nat) (f : OpenCmd → OpenCmd) : (d.modCmd k f).drv = d.drv := rfl
@[simp] theorem Dev.modCmd_trip (d : Dev) (k : Nat) (f : OpenCmd → OpenCmd) : (d.modCmd k f).trip = d.trip := rfl
@[simp] theorem Dev.modCmd_fuse (d : Dev) (k : Nat) (f : OpenCmd → OpenCmd) : (d.modCmd k f).fuse = d.fuse := rfl
@[simp] theorem Dev.modCmd_bge (d : Dev) (k : Nat) (f : OpenCmd → OpenCmd) : (d.modCmd k f).bge = d.bge := rfl
@[simp] theorem Dev.modCmd_groups (d : Dev) (k : Nat) (f : OpenCmd → OpenCmd) : (d.modCmd k f).groups = d.groups := rfl
@[simp] theorem Dev.modCmd_legs (d : Dev) (k : Nat) (f : OpenCmd → OpenCmd) : (d.modCmd k f).legs = d.legs := rfl
@[simp] theorem Dev.modCmd_sup (d : Dev) (k : Nat) (f : OpenCmd → OpenCmd) : (d.modCmd k f).sup = d.sup := rfl
@[simp] theorem Dev.modCmd_feeds (d : Dev) (k : Nat) (f : OpenCmd → OpenCmd) : (d.modCmd k f).feeds = d.feeds := rfl
@[simp] theorem Dev.modCmd_branches (d : Dev) (k : Nat) (f : OpenCmd → OpenCmd) : (d.modCmd k f).branches = d.branches := rfl
@[simp] theorem Dev.modCmd_banks (d : Dev) (k : Nat) (f : OpenCmd → OpenCmd) : (d.modCmd k f).banks = d.banks := rfl
@[simp] theorem Dev.modCmd_strings (d : Dev) (k : Nat) (f : OpenCmd → OpenCmd) : (d.modCmd k f).strings = d.strings := rfl
@[simp] theorem Dev.modCmd_shelf (d : Dev) (k : Nat) (f : OpenCmd → OpenCmd) : (d.modCmd k f).shelf = d.shelf := rfl
@[simp] theorem Dev.modCmd_tt (d : Dev) (k : Nat) (f : OpenCmd → OpenCmd) : (d.modCmd k f).tt = d.tt := rfl
@[simp] theorem Dev.modCmd_pmbus (d : Dev) (k : Nat) (f : OpenCmd → OpenCmd) : (d.modCmd k f).pmbus = d.pmbus := rfl
@[simp] theorem Dev.modCmd_avs (d : Dev) (k : Nat) (f : OpenCmd → OpenCmd) : (d.modCmd k f).avs = d.avs := rfl
@[simp] theorem Dev.modCmd_tap (d : Dev) (k : Nat) (f : OpenCmd → OpenCmd) : (d.modCmd k f).tap = d.tap := rfl
@[simp] theorem Dev.modCmd_startCount (d : Dev) (k : Nat) (f : OpenCmd → OpenCmd) : (d.modCmd k f).startCount = d.startCount := rfl
@[simp] theorem Dev.modCmd_due (d : Dev) (k : Nat) (f : OpenCmd → OpenCmd) : (d.modCmd k f).due = d.due := rfl
@[simp] theorem Dev.modCmd_out (d : Dev) (k : Nat) (f : OpenCmd → OpenCmd) : (d.modCmd k f).out = d.out := rfl
@[simp] theorem Dev.modCmd_fresh (d : Dev) (k : Nat) (f : OpenCmd → OpenCmd) : (d.modCmd k f).fresh = d.fresh := rfl

/-! ### Dev.addEntry -/

@[simp] theorem Dev.addEntry_core (d : Dev) (e : LedgerEntry) : (d.addEntry e).core = d.core := by simp only [Dev.addEntry]
@[simp] theorem Dev.addEntry_ka (d : Dev) (e : LedgerEntry) : (d.addEntry e).ka = d.ka := by simp only [Dev.addEntry]
@[simp] theorem Dev.addEntry_cfg (d : Dev) (e : LedgerEntry) : (d.addEntry e).cfg = d.cfg := by simp only [Dev.addEntry]
@[simp] theorem Dev.addEntry_book (d : Dev) (e : LedgerEntry) : (d.addEntry e).book = d.book := by simp only [Dev.addEntry]
@[simp] theorem Dev.addEntry_hqi (d : Dev) (e : LedgerEntry) : (d.addEntry e).hqi = d.hqi := by simp only [Dev.addEntry]
@[simp] theorem Dev.addEntry_ledger (d : Dev) (e : LedgerEntry) : (d.addEntry e).ledger = (d.ledger ++ [e]).drop (d.ledger.length + 1 - 256) := by simp only [Dev.addEntry]
@[simp] theorem Dev.addEntry_sp (d : Dev) (e : LedgerEntry) : (d.addEntry e).sp = d.sp := by simp only [Dev.addEntry]
@[simp] theorem Dev.addEntry_office (d : Dev) (e : LedgerEntry) : (d.addEntry e).office = d.office := by simp only [Dev.addEntry]
@[simp] theorem Dev.addEntry_il (d : Dev) (e : LedgerEntry) : (d.addEntry e).il = d.il := by simp only [Dev.addEntry]
@[simp] theorem Dev.addEntry_tr (d : Dev) (e : LedgerEntry) : (d.addEntry e).tr = d.tr := by simp only [Dev.addEntry]
@[simp] theorem Dev.addEntry_sars (d : Dev) (e : LedgerEntry) : (d.addEntry e).sars = d.sars := by simp only [Dev.addEntry]
@[simp] theorem Dev.addEntry_ccs (d : Dev) (e : LedgerEntry) : (d.addEntry e).ccs = d.ccs := by simp only [Dev.addEntry]
@[simp] theorem Dev.addEntry_house (d : Dev) (e : LedgerEntry) : (d.addEntry e).house = d.house := by simp only [Dev.addEntry]
@[simp] theorem Dev.addEntry_cps (d : Dev) (e : LedgerEntry) : (d.addEntry e).cps = d.cps := by simp only [Dev.addEntry]
@[simp] theorem Dev.addEntry_drv (d : Dev) (e : LedgerEntry) : (d.addEntry e).drv = d.drv := by simp only [Dev.addEntry]
@[simp] theorem Dev.addEntry_trip (d : Dev) (e : LedgerEntry) : (d.addEntry e).trip = d.trip := by simp only [Dev.addEntry]
@[simp] theorem Dev.addEntry_fuse (d : Dev) (e : LedgerEntry) : (d.addEntry e).fuse = d.fuse := by simp only [Dev.addEntry]
@[simp] theorem Dev.addEntry_bge (d : Dev) (e : LedgerEntry) : (d.addEntry e).bge = d.bge := by simp only [Dev.addEntry]
@[simp] theorem Dev.addEntry_groups (d : Dev) (e : LedgerEntry) : (d.addEntry e).groups = d.groups := by simp only [Dev.addEntry]
@[simp] theorem Dev.addEntry_legs (d : Dev) (e : LedgerEntry) : (d.addEntry e).legs = d.legs := by simp only [Dev.addEntry]
@[simp] theorem Dev.addEntry_sup (d : Dev) (e : LedgerEntry) : (d.addEntry e).sup = d.sup := by simp only [Dev.addEntry]
@[simp] theorem Dev.addEntry_feeds (d : Dev) (e : LedgerEntry) : (d.addEntry e).feeds = d.feeds := by simp only [Dev.addEntry]
@[simp] theorem Dev.addEntry_branches (d : Dev) (e : LedgerEntry) : (d.addEntry e).branches = d.branches := by simp only [Dev.addEntry]
@[simp] theorem Dev.addEntry_banks (d : Dev) (e : LedgerEntry) : (d.addEntry e).banks = d.banks := by simp only [Dev.addEntry]
@[simp] theorem Dev.addEntry_strings (d : Dev) (e : LedgerEntry) : (d.addEntry e).strings = d.strings := by simp only [Dev.addEntry]
@[simp] theorem Dev.addEntry_shelf (d : Dev) (e : LedgerEntry) : (d.addEntry e).shelf = d.shelf := by simp only [Dev.addEntry]
@[simp] theorem Dev.addEntry_tt (d : Dev) (e : LedgerEntry) : (d.addEntry e).tt = d.tt := by simp only [Dev.addEntry]
@[simp] theorem Dev.addEntry_pmbus (d : Dev) (e : LedgerEntry) : (d.addEntry e).pmbus = d.pmbus := by simp only [Dev.addEntry]
@[simp] theorem Dev.addEntry_avs (d : Dev) (e : LedgerEntry) : (d.addEntry e).avs = d.avs := by simp only [Dev.addEntry]
@[simp] theorem Dev.addEntry_tap (d : Dev) (e : LedgerEntry) : (d.addEntry e).tap = d.tap := by simp only [Dev.addEntry]
@[simp] theorem Dev.addEntry_startCount (d : Dev) (e : LedgerEntry) : (d.addEntry e).startCount = d.startCount := by simp only [Dev.addEntry]
@[simp] theorem Dev.addEntry_due (d : Dev) (e : LedgerEntry) : (d.addEntry e).due = d.due := by simp only [Dev.addEntry]
@[simp] theorem Dev.addEntry_out (d : Dev) (e : LedgerEntry) : (d.addEntry e).out = d.out := by simp only [Dev.addEntry]
@[simp] theorem Dev.addEntry_fresh (d : Dev) (e : LedgerEntry) : (d.addEntry e).fresh = d.fresh := by simp only [Dev.addEntry]

/-! ### Dev.modEntry -/

@[simp] theorem Dev.modEntry_core (d : Dev) (k : Nat) (f : LedgerEntry → LedgerEntry) : (d.modEntry k f).core = d.core := rfl
@[simp] theorem Dev.modEntry_ka (d : Dev) (k : Nat) (f : LedgerEntry → LedgerEntry) : (d.modEntry k f).ka = d.ka := rfl
@[simp] theorem Dev.modEntry_cfg (d : Dev) (k : Nat) (f : LedgerEntry → LedgerEntry) : (d.modEntry k f).cfg = d.cfg := rfl
@[simp] theorem Dev.modEntry_book (d : Dev) (k : Nat) (f : LedgerEntry → LedgerEntry) : (d.modEntry k f).book = d.book := rfl
@[simp] theorem Dev.modEntry_hqi (d : Dev) (k : Nat) (f : LedgerEntry → LedgerEntry) : (d.modEntry k f).hqi = d.hqi := rfl
@[simp] theorem Dev.modEntry_ledger (d : Dev) (k : Nat) (f : LedgerEntry → LedgerEntry) : (d.modEntry k f).ledger = d.ledger.map (fun e => if e.fetch = k then { f e with uptime := d.now } else e) := rfl
@[simp] theorem Dev.modEntry_sp (d : Dev) (k : Nat) (f : LedgerEntry → LedgerEntry) : (d.modEntry k f).sp = d.sp := rfl
@[simp] theorem Dev.modEntry_office (d : Dev) (k : Nat) (f : LedgerEntry → LedgerEntry) : (d.modEntry k f).office = d.office := rfl
@[simp] theorem Dev.modEntry_il (d : Dev) (k : Nat) (f : LedgerEntry → LedgerEntry) : (d.modEntry k f).il = d.il := rfl
@[simp] theorem Dev.modEntry_tr (d : Dev) (k : Nat) (f : LedgerEntry → LedgerEntry) : (d.modEntry k f).tr = d.tr := rfl
@[simp] theorem Dev.modEntry_sars (d : Dev) (k : Nat) (f : LedgerEntry → LedgerEntry) : (d.modEntry k f).sars = d.sars := rfl
@[simp] theorem Dev.modEntry_ccs (d : Dev) (k : Nat) (f : LedgerEntry → LedgerEntry) : (d.modEntry k f).ccs = d.ccs := rfl
@[simp] theorem Dev.modEntry_house (d : Dev) (k : Nat) (f : LedgerEntry → LedgerEntry) : (d.modEntry k f).house = d.house := rfl
@[simp] theorem Dev.modEntry_cps (d : Dev) (k : Nat) (f : LedgerEntry → LedgerEntry) : (d.modEntry k f).cps = d.cps := rfl
@[simp] theorem Dev.modEntry_drv (d : Dev) (k : Nat) (f : LedgerEntry → LedgerEntry) : (d.modEntry k f).drv = d.drv := rfl
@[simp] theorem Dev.modEntry_trip (d : Dev) (k : Nat) (f : LedgerEntry → LedgerEntry) : (d.modEntry k f).trip = d.trip := rfl
@[simp] theorem Dev.modEntry_fuse (d : Dev) (k : Nat) (f : LedgerEntry → LedgerEntry) : (d.modEntry k f).fuse = d.fuse := rfl
@[simp] theorem Dev.modEntry_bge (d : Dev) (k : Nat) (f : LedgerEntry → LedgerEntry) : (d.modEntry k f).bge = d.bge := rfl
@[simp] theorem Dev.modEntry_groups (d : Dev) (k : Nat) (f : LedgerEntry → LedgerEntry) : (d.modEntry k f).groups = d.groups := rfl
@[simp] theorem Dev.modEntry_legs (d : Dev) (k : Nat) (f : LedgerEntry → LedgerEntry) : (d.modEntry k f).legs = d.legs := rfl
@[simp] theorem Dev.modEntry_sup (d : Dev) (k : Nat) (f : LedgerEntry → LedgerEntry) : (d.modEntry k f).sup = d.sup := rfl
@[simp] theorem Dev.modEntry_feeds (d : Dev) (k : Nat) (f : LedgerEntry → LedgerEntry) : (d.modEntry k f).feeds = d.feeds := rfl
@[simp] theorem Dev.modEntry_branches (d : Dev) (k : Nat) (f : LedgerEntry → LedgerEntry) : (d.modEntry k f).branches = d.branches := rfl
@[simp] theorem Dev.modEntry_banks (d : Dev) (k : Nat) (f : LedgerEntry → LedgerEntry) : (d.modEntry k f).banks = d.banks := rfl
@[simp] theorem Dev.modEntry_strings (d : Dev) (k : Nat) (f : LedgerEntry → LedgerEntry) : (d.modEntry k f).strings = d.strings := rfl
@[simp] theorem Dev.modEntry_shelf (d : Dev) (k : Nat) (f : LedgerEntry → LedgerEntry) : (d.modEntry k f).shelf = d.shelf := rfl
@[simp] theorem Dev.modEntry_tt (d : Dev) (k : Nat) (f : LedgerEntry → LedgerEntry) : (d.modEntry k f).tt = d.tt := rfl
@[simp] theorem Dev.modEntry_pmbus (d : Dev) (k : Nat) (f : LedgerEntry → LedgerEntry) : (d.modEntry k f).pmbus = d.pmbus := rfl
@[simp] theorem Dev.modEntry_avs (d : Dev) (k : Nat) (f : LedgerEntry → LedgerEntry) : (d.modEntry k f).avs = d.avs := rfl
@[simp] theorem Dev.modEntry_tap (d : Dev) (k : Nat) (f : LedgerEntry → LedgerEntry) : (d.modEntry k f).tap = d.tap := rfl
@[simp] theorem Dev.modEntry_startCount (d : Dev) (k : Nat) (f : LedgerEntry → LedgerEntry) : (d.modEntry k f).startCount = d.startCount := rfl
@[simp] theorem Dev.modEntry_due (d : Dev) (k : Nat) (f : LedgerEntry → LedgerEntry) : (d.modEntry k f).due = d.due := rfl
@[simp] theorem Dev.modEntry_out (d : Dev) (k : Nat) (f : LedgerEntry → LedgerEntry) : (d.modEntry k f).out = d.out := rfl
@[simp] theorem Dev.modEntry_fresh (d : Dev) (k : Nat) (f : LedgerEntry → LedgerEntry) : (d.modEntry k f).fresh = d.fresh := rfl

/-! ### Dev.tell -/

@[simp] theorem Dev.tell_core (d : Dev) (k : Nat) : (d.tell k).core = d.core := rfl
@[simp] theorem Dev.tell_ka (d : Dev) (k : Nat) : (d.tell k).ka = d.ka := rfl
@[simp] theorem Dev.tell_cfg (d : Dev) (k : Nat) : (d.tell k).cfg = d.cfg := rfl
@[simp] theorem Dev.tell_book (d : Dev) (k : Nat) : (d.tell k).book = d.book := rfl
@[simp] theorem Dev.tell_hqi (d : Dev) (k : Nat) : (d.tell k).hqi = d.hqi := rfl
@[simp] theorem Dev.tell_ledger (d : Dev) (k : Nat) : (d.tell k).ledger = d.ledger := rfl
@[simp] theorem Dev.tell_sp (d : Dev) (k : Nat) : (d.tell k).sp = d.sp := rfl
@[simp] theorem Dev.tell_office (d : Dev) (k : Nat) : (d.tell k).office = d.office := rfl
@[simp] theorem Dev.tell_il (d : Dev) (k : Nat) : (d.tell k).il = { d.il with reported := (k, d.now) :: d.il.reported.filter (fun p => p.1 != k) } := rfl
@[simp] theorem Dev.tell_tr (d : Dev) (k : Nat) : (d.tell k).tr = d.tr := rfl
@[simp] theorem Dev.tell_sars (d : Dev) (k : Nat) : (d.tell k).sars = d.sars := rfl
@[simp] theorem Dev.tell_ccs (d : Dev) (k : Nat) : (d.tell k).ccs = d.ccs := rfl
@[simp] theorem Dev.tell_house (d : Dev) (k : Nat) : (d.tell k).house = d.house := rfl
@[simp] theorem Dev.tell_cps (d : Dev) (k : Nat) : (d.tell k).cps = d.cps := rfl
@[simp] theorem Dev.tell_drv (d : Dev) (k : Nat) : (d.tell k).drv = d.drv := rfl
@[simp] theorem Dev.tell_trip (d : Dev) (k : Nat) : (d.tell k).trip = d.trip := rfl
@[simp] theorem Dev.tell_fuse (d : Dev) (k : Nat) : (d.tell k).fuse = d.fuse := rfl
@[simp] theorem Dev.tell_bge (d : Dev) (k : Nat) : (d.tell k).bge = d.bge := rfl
@[simp] theorem Dev.tell_groups (d : Dev) (k : Nat) : (d.tell k).groups = d.groups := rfl
@[simp] theorem Dev.tell_legs (d : Dev) (k : Nat) : (d.tell k).legs = d.legs := rfl
@[simp] theorem Dev.tell_sup (d : Dev) (k : Nat) : (d.tell k).sup = d.sup := rfl
@[simp] theorem Dev.tell_feeds (d : Dev) (k : Nat) : (d.tell k).feeds = d.feeds := rfl
@[simp] theorem Dev.tell_branches (d : Dev) (k : Nat) : (d.tell k).branches = d.branches := rfl
@[simp] theorem Dev.tell_banks (d : Dev) (k : Nat) : (d.tell k).banks = d.banks := rfl
@[simp] theorem Dev.tell_strings (d : Dev) (k : Nat) : (d.tell k).strings = d.strings := rfl
@[simp] theorem Dev.tell_shelf (d : Dev) (k : Nat) : (d.tell k).shelf = d.shelf := rfl
@[simp] theorem Dev.tell_tt (d : Dev) (k : Nat) : (d.tell k).tt = d.tt := rfl
@[simp] theorem Dev.tell_pmbus (d : Dev) (k : Nat) : (d.tell k).pmbus = d.pmbus := rfl
@[simp] theorem Dev.tell_avs (d : Dev) (k : Nat) : (d.tell k).avs = d.avs := rfl
@[simp] theorem Dev.tell_tap (d : Dev) (k : Nat) : (d.tell k).tap = d.tap := rfl
@[simp] theorem Dev.tell_startCount (d : Dev) (k : Nat) : (d.tell k).startCount = d.startCount := rfl
@[simp] theorem Dev.tell_due (d : Dev) (k : Nat) : (d.tell k).due = d.due := rfl
@[simp] theorem Dev.tell_out (d : Dev) (k : Nat) : (d.tell k).out = d.out := rfl
@[simp] theorem Dev.tell_fresh (d : Dev) (k : Nat) : (d.tell k).fresh = d.fresh := rfl

/-! ### Dev.modSlot -/

@[simp] theorem Dev.modSlot_core (d : Dev) (i : Nat) (f : Slot → Slot) : (d.modSlot i f).core = d.core := rfl
@[simp] theorem Dev.modSlot_ka (d : Dev) (i : Nat) (f : Slot → Slot) : (d.modSlot i f).ka = d.ka := rfl
@[simp] theorem Dev.modSlot_cfg (d : Dev) (i : Nat) (f : Slot → Slot) : (d.modSlot i f).cfg = d.cfg := rfl
@[simp] theorem Dev.modSlot_book (d : Dev) (i : Nat) (f : Slot → Slot) : (d.modSlot i f).book = d.book := rfl
@[simp] theorem Dev.modSlot_hqi (d : Dev) (i : Nat) (f : Slot → Slot) : (d.modSlot i f).hqi = d.hqi := rfl
@[simp] theorem Dev.modSlot_ledger (d : Dev) (i : Nat) (f : Slot → Slot) : (d.modSlot i f).ledger = d.ledger := rfl
@[simp] theorem Dev.modSlot_sp (d : Dev) (i : Nat) (f : Slot → Slot) : (d.modSlot i f).sp = d.sp := rfl
@[simp] theorem Dev.modSlot_office (d : Dev) (i : Nat) (f : Slot → Slot) : (d.modSlot i f).office =
    if i = slotSecond then { d.office with second := f d.office.second }
    else { d.office with slots := fileMod d.office.slots i f } := rfl
@[simp] theorem Dev.modSlot_il (d : Dev) (i : Nat) (f : Slot → Slot) : (d.modSlot i f).il = d.il := rfl
@[simp] theorem Dev.modSlot_tr (d : Dev) (i : Nat) (f : Slot → Slot) : (d.modSlot i f).tr = d.tr := rfl
@[simp] theorem Dev.modSlot_sars (d : Dev) (i : Nat) (f : Slot → Slot) : (d.modSlot i f).sars = d.sars := rfl
@[simp] theorem Dev.modSlot_ccs (d : Dev) (i : Nat) (f : Slot → Slot) : (d.modSlot i f).ccs = d.ccs := rfl
@[simp] theorem Dev.modSlot_house (d : Dev) (i : Nat) (f : Slot → Slot) : (d.modSlot i f).house = d.house := rfl
@[simp] theorem Dev.modSlot_cps (d : Dev) (i : Nat) (f : Slot → Slot) : (d.modSlot i f).cps = d.cps := rfl
@[simp] theorem Dev.modSlot_drv (d : Dev) (i : Nat) (f : Slot → Slot) : (d.modSlot i f).drv = d.drv := rfl
@[simp] theorem Dev.modSlot_trip (d : Dev) (i : Nat) (f : Slot → Slot) : (d.modSlot i f).trip = d.trip := rfl
@[simp] theorem Dev.modSlot_fuse (d : Dev) (i : Nat) (f : Slot → Slot) : (d.modSlot i f).fuse = d.fuse := rfl
@[simp] theorem Dev.modSlot_bge (d : Dev) (i : Nat) (f : Slot → Slot) : (d.modSlot i f).bge = d.bge := rfl
@[simp] theorem Dev.modSlot_groups (d : Dev) (i : Nat) (f : Slot → Slot) : (d.modSlot i f).groups = d.groups := rfl
@[simp] theorem Dev.modSlot_legs (d : Dev) (i : Nat) (f : Slot → Slot) : (d.modSlot i f).legs = d.legs := rfl
@[simp] theorem Dev.modSlot_sup (d : Dev) (i : Nat) (f : Slot → Slot) : (d.modSlot i f).sup = d.sup := rfl
@[simp] theorem Dev.modSlot_feeds (d : Dev) (i : Nat) (f : Slot → Slot) : (d.modSlot i f).feeds = d.feeds := rfl
@[simp] theorem Dev.modSlot_branches (d : Dev) (i : Nat) (f : Slot → Slot) : (d.modSlot i f).branches = d.branches := rfl
@[simp] theorem Dev.modSlot_banks (d : Dev) (i : Nat) (f : Slot → Slot) : (d.modSlot i f).banks = d.banks := rfl
@[simp] theorem Dev.modSlot_strings (d : Dev) (i : Nat) (f : Slot → Slot) : (d.modSlot i f).strings = d.strings := rfl
@[simp] theorem Dev.modSlot_shelf (d : Dev) (i : Nat) (f : Slot → Slot) : (d.modSlot i f).shelf = d.shelf := rfl
@[simp] theorem Dev.modSlot_tt (d : Dev) (i : Nat) (f : Slot → Slot) : (d.modSlot i f).tt = d.tt := rfl
@[simp] theorem Dev.modSlot_pmbus (d : Dev) (i : Nat) (f : Slot → Slot) : (d.modSlot i f).pmbus = d.pmbus := rfl
@[simp] theorem Dev.modSlot_avs (d : Dev) (i : Nat) (f : Slot → Slot) : (d.modSlot i f).avs = d.avs := rfl
@[simp] theorem Dev.modSlot_tap (d : Dev) (i : Nat) (f : Slot → Slot) : (d.modSlot i f).tap = d.tap := rfl
@[simp] theorem Dev.modSlot_startCount (d : Dev) (i : Nat) (f : Slot → Slot) : (d.modSlot i f).startCount = d.startCount := rfl
@[simp] theorem Dev.modSlot_due (d : Dev) (i : Nat) (f : Slot → Slot) : (d.modSlot i f).due = d.due := rfl
@[simp] theorem Dev.modSlot_out (d : Dev) (i : Nat) (f : Slot → Slot) : (d.modSlot i f).out = d.out := rfl
@[simp] theorem Dev.modSlot_fresh (d : Dev) (i : Nat) (f : Slot → Slot) : (d.modSlot i f).fresh = d.fresh := rfl

/-! ### Dev.modCp -/

@[simp] theorem Dev.modCp_core (d : Dev) (n : Nat) (f : CatchPoint → CatchPoint) : (d.modCp n f).core = d.core := rfl
@[simp] theorem Dev.modCp_ka (d : Dev) (n : Nat) (f : CatchPoint → CatchPoint) : (d.modCp n f).ka = d.ka := rfl
@[simp] theorem Dev.modCp_cfg (d : Dev) (n : Nat) (f : CatchPoint → CatchPoint) : (d.modCp n f).cfg = d.cfg := rfl
@[simp] theorem Dev.modCp_book (d : Dev) (n : Nat) (f : CatchPoint → CatchPoint) : (d.modCp n f).book = d.book := rfl
@[simp] theorem Dev.modCp_hqi (d : Dev) (n : Nat) (f : CatchPoint → CatchPoint) : (d.modCp n f).hqi = d.hqi := rfl
@[simp] theorem Dev.modCp_ledger (d : Dev) (n : Nat) (f : CatchPoint → CatchPoint) : (d.modCp n f).ledger = d.ledger := rfl
@[simp] theorem Dev.modCp_sp (d : Dev) (n : Nat) (f : CatchPoint → CatchPoint) : (d.modCp n f).sp = d.sp := rfl
@[simp] theorem Dev.modCp_office (d : Dev) (n : Nat) (f : CatchPoint → CatchPoint) : (d.modCp n f).office = d.office := rfl
@[simp] theorem Dev.modCp_il (d : Dev) (n : Nat) (f : CatchPoint → CatchPoint) : (d.modCp n f).il = d.il := rfl
@[simp] theorem Dev.modCp_tr (d : Dev) (n : Nat) (f : CatchPoint → CatchPoint) : (d.modCp n f).tr = d.tr := rfl
@[simp] theorem Dev.modCp_sars (d : Dev) (n : Nat) (f : CatchPoint → CatchPoint) : (d.modCp n f).sars = d.sars := rfl
@[simp] theorem Dev.modCp_ccs (d : Dev) (n : Nat) (f : CatchPoint → CatchPoint) : (d.modCp n f).ccs = d.ccs := rfl
@[simp] theorem Dev.modCp_house (d : Dev) (n : Nat) (f : CatchPoint → CatchPoint) : (d.modCp n f).house = d.house := rfl
@[simp] theorem Dev.modCp_cps (d : Dev) (n : Nat) (f : CatchPoint → CatchPoint) : (d.modCp n f).cps = fileMod d.cps n f := rfl
@[simp] theorem Dev.modCp_drv (d : Dev) (n : Nat) (f : CatchPoint → CatchPoint) : (d.modCp n f).drv = d.drv := rfl
@[simp] theorem Dev.modCp_trip (d : Dev) (n : Nat) (f : CatchPoint → CatchPoint) : (d.modCp n f).trip = d.trip := rfl
@[simp] theorem Dev.modCp_fuse (d : Dev) (n : Nat) (f : CatchPoint → CatchPoint) : (d.modCp n f).fuse = d.fuse := rfl
@[simp] theorem Dev.modCp_bge (d : Dev) (n : Nat) (f : CatchPoint → CatchPoint) : (d.modCp n f).bge = d.bge := rfl
@[simp] theorem Dev.modCp_groups (d : Dev) (n : Nat) (f : CatchPoint → CatchPoint) : (d.modCp n f).groups = d.groups := rfl
@[simp] theorem Dev.modCp_legs (d : Dev) (n : Nat) (f : CatchPoint → CatchPoint) : (d.modCp n f).legs = d.legs := rfl
@[simp] theorem Dev.modCp_sup (d : Dev) (n : Nat) (f : CatchPoint → CatchPoint) : (d.modCp n f).sup = d.sup := rfl
@[simp] theorem Dev.modCp_feeds (d : Dev) (n : Nat) (f : CatchPoint → CatchPoint) : (d.modCp n f).feeds = d.feeds := rfl
@[simp] theorem Dev.modCp_branches (d : Dev) (n : Nat) (f : CatchPoint → CatchPoint) : (d.modCp n f).branches = d.branches := rfl
@[simp] theorem Dev.modCp_banks (d : Dev) (n : Nat) (f : CatchPoint → CatchPoint) : (d.modCp n f).banks = d.banks := rfl
@[simp] theorem Dev.modCp_strings (d : Dev) (n : Nat) (f : CatchPoint → CatchPoint) : (d.modCp n f).strings = d.strings := rfl
@[simp] theorem Dev.modCp_shelf (d : Dev) (n : Nat) (f : CatchPoint → CatchPoint) : (d.modCp n f).shelf = d.shelf := rfl
@[simp] theorem Dev.modCp_tt (d : Dev) (n : Nat) (f : CatchPoint → CatchPoint) : (d.modCp n f).tt = d.tt := rfl
@[simp] theorem Dev.modCp_pmbus (d : Dev) (n : Nat) (f : CatchPoint → CatchPoint) : (d.modCp n f).pmbus = d.pmbus := rfl
@[simp] theorem Dev.modCp_avs (d : Dev) (n : Nat) (f : CatchPoint → CatchPoint) : (d.modCp n f).avs = d.avs := rfl
@[simp] theorem Dev.modCp_tap (d : Dev) (n : Nat) (f : CatchPoint → CatchPoint) : (d.modCp n f).tap = d.tap := rfl
@[simp] theorem Dev.modCp_startCount (d : Dev) (n : Nat) (f : CatchPoint → CatchPoint) : (d.modCp n f).startCount = d.startCount := rfl
@[simp] theorem Dev.modCp_due (d : Dev) (n : Nat) (f : CatchPoint → CatchPoint) : (d.modCp n f).due = d.due := rfl
@[simp] theorem Dev.modCp_out (d : Dev) (n : Nat) (f : CatchPoint → CatchPoint) : (d.modCp n f).out = d.out := rfl
@[simp] theorem Dev.modCp_fresh (d : Dev) (n : Nat) (f : CatchPoint → CatchPoint) : (d.modCp n f).fresh = d.fresh := rfl

/-! ### Dev.latchStep -/

@[simp] theorem Dev.latchStep_core (d : Dev) : d.latchStep.core = d.core := rfl
@[simp] theorem Dev.latchStep_ka (d : Dev) : d.latchStep.ka = d.ka := rfl
@[simp] theorem Dev.latchStep_cfg (d : Dev) : d.latchStep.cfg = d.cfg := rfl
@[simp] theorem Dev.latchStep_book (d : Dev) : d.latchStep.book = d.book := rfl
@[simp] theorem Dev.latchStep_hqi (d : Dev) : d.latchStep.hqi = d.hqi := rfl
@[simp] theorem Dev.latchStep_ledger (d : Dev) : d.latchStep.ledger = d.ledger := rfl
@[simp] theorem Dev.latchStep_sp (d : Dev) : d.latchStep.sp = d.sp := rfl
@[simp] theorem Dev.latchStep_office (d : Dev) : d.latchStep.office = d.office := rfl
@[simp] theorem Dev.latchStep_il (d : Dev) : d.latchStep.il = d.il := rfl
@[simp] theorem Dev.latchStep_tr (d : Dev) : d.latchStep.tr = d.tr := rfl
@[simp] theorem Dev.latchStep_sars (d : Dev) : d.latchStep.sars = d.sars := rfl
@[simp] theorem Dev.latchStep_ccs (d : Dev) : d.latchStep.ccs = d.ccs := rfl
@[simp] theorem Dev.latchStep_house (d : Dev) : d.latchStep.house = d.house := rfl
@[simp] theorem Dev.latchStep_cps (d : Dev) : d.latchStep.cps = d.cps := rfl
@[simp] theorem Dev.latchStep_drv (d : Dev) : d.latchStep.drv = d.drv := rfl
@[simp] theorem Dev.latchStep_trip (d : Dev) : d.latchStep.trip = { d.trip with latches := Nat.lor d.trip.latches d.drivenCols } := rfl
@[simp] theorem Dev.latchStep_fuse (d : Dev) : d.latchStep.fuse = d.fuse := rfl
@[simp] theorem Dev.latchStep_bge (d : Dev) : d.latchStep.bge = d.bge := rfl
@[simp] theorem Dev.latchStep_groups (d : Dev) : d.latchStep.groups = d.groups := rfl
@[simp] theorem Dev.latchStep_legs (d : Dev) : d.latchStep.legs = d.legs := rfl
@[simp] theorem Dev.latchStep_sup (d : Dev) : d.latchStep.sup = d.sup := rfl
@[simp] theorem Dev.latchStep_feeds (d : Dev) : d.latchStep.feeds = d.feeds := rfl
@[simp] theorem Dev.latchStep_branches (d : Dev) : d.latchStep.branches = d.branches := rfl
@[simp] theorem Dev.latchStep_banks (d : Dev) : d.latchStep.banks = d.banks := rfl
@[simp] theorem Dev.latchStep_strings (d : Dev) : d.latchStep.strings = d.strings := rfl
@[simp] theorem Dev.latchStep_shelf (d : Dev) : d.latchStep.shelf = d.shelf := rfl
@[simp] theorem Dev.latchStep_tt (d : Dev) : d.latchStep.tt = d.tt := rfl
@[simp] theorem Dev.latchStep_pmbus (d : Dev) : d.latchStep.pmbus = d.pmbus := rfl
@[simp] theorem Dev.latchStep_avs (d : Dev) : d.latchStep.avs = d.avs := rfl
@[simp] theorem Dev.latchStep_tap (d : Dev) : d.latchStep.tap = d.tap := rfl
@[simp] theorem Dev.latchStep_startCount (d : Dev) : d.latchStep.startCount = d.startCount := rfl
@[simp] theorem Dev.latchStep_due (d : Dev) : d.latchStep.due = d.due := rfl
@[simp] theorem Dev.latchStep_out (d : Dev) : d.latchStep.out = d.out := rfl
@[simp] theorem Dev.latchStep_fresh (d : Dev) : d.latchStep.fresh = d.fresh := rfl

/-! ### Dev.modSar -/

@[simp] theorem Dev.modSar_core (d : Dev) (n : Nat) (f : Sar → Sar) : (d.modSar n f).core = d.core := rfl
@[simp] theorem Dev.modSar_ka (d : Dev) (n : Nat) (f : Sar → Sar) : (d.modSar n f).ka = d.ka := rfl
@[simp] theorem Dev.modSar_cfg (d : Dev) (n : Nat) (f : Sar → Sar) : (d.modSar n f).cfg = d.cfg := rfl
@[simp] theorem Dev.modSar_book (d : Dev) (n : Nat) (f : Sar → Sar) : (d.modSar n f).book = d.book := rfl
@[simp] theorem Dev.modSar_hqi (d : Dev) (n : Nat) (f : Sar → Sar) : (d.modSar n f).hqi = d.hqi := rfl
@[simp] theorem Dev.modSar_ledger (d : Dev) (n : Nat) (f : Sar → Sar) : (d.modSar n f).ledger = d.ledger := rfl
@[simp] theorem Dev.modSar_sp (d : Dev) (n : Nat) (f : Sar → Sar) : (d.modSar n f).sp = d.sp := rfl
@[simp] theorem Dev.modSar_office (d : Dev) (n : Nat) (f : Sar → Sar) : (d.modSar n f).office = d.office := rfl
@[simp] theorem Dev.modSar_il (d : Dev) (n : Nat) (f : Sar → Sar) : (d.modSar n f).il = d.il := rfl
@[simp] theorem Dev.modSar_tr (d : Dev) (n : Nat) (f : Sar → Sar) : (d.modSar n f).tr = d.tr := rfl
@[simp] theorem Dev.modSar_sars (d : Dev) (n : Nat) (f : Sar → Sar) : (d.modSar n f).sars = fileMod d.sars n f := rfl
@[simp] theorem Dev.modSar_ccs (d : Dev) (n : Nat) (f : Sar → Sar) : (d.modSar n f).ccs = d.ccs := rfl
@[simp] theorem Dev.modSar_house (d : Dev) (n : Nat) (f : Sar → Sar) : (d.modSar n f).house = d.house := rfl
@[simp] theorem Dev.modSar_cps (d : Dev) (n : Nat) (f : Sar → Sar) : (d.modSar n f).cps = d.cps := rfl
@[simp] theorem Dev.modSar_drv (d : Dev) (n : Nat) (f : Sar → Sar) : (d.modSar n f).drv = d.drv := rfl
@[simp] theorem Dev.modSar_trip (d : Dev) (n : Nat) (f : Sar → Sar) : (d.modSar n f).trip = d.trip := rfl
@[simp] theorem Dev.modSar_fuse (d : Dev) (n : Nat) (f : Sar → Sar) : (d.modSar n f).fuse = d.fuse := rfl
@[simp] theorem Dev.modSar_bge (d : Dev) (n : Nat) (f : Sar → Sar) : (d.modSar n f).bge = d.bge := rfl
@[simp] theorem Dev.modSar_groups (d : Dev) (n : Nat) (f : Sar → Sar) : (d.modSar n f).groups = d.groups := rfl
@[simp] theorem Dev.modSar_legs (d : Dev) (n : Nat) (f : Sar → Sar) : (d.modSar n f).legs = d.legs := rfl
@[simp] theorem Dev.modSar_sup (d : Dev) (n : Nat) (f : Sar → Sar) : (d.modSar n f).sup = d.sup := rfl
@[simp] theorem Dev.modSar_feeds (d : Dev) (n : Nat) (f : Sar → Sar) : (d.modSar n f).feeds = d.feeds := rfl
@[simp] theorem Dev.modSar_branches (d : Dev) (n : Nat) (f : Sar → Sar) : (d.modSar n f).branches = d.branches := rfl
@[simp] theorem Dev.modSar_banks (d : Dev) (n : Nat) (f : Sar → Sar) : (d.modSar n f).banks = d.banks := rfl
@[simp] theorem Dev.modSar_strings (d : Dev) (n : Nat) (f : Sar → Sar) : (d.modSar n f).strings = d.strings := rfl
@[simp] theorem Dev.modSar_shelf (d : Dev) (n : Nat) (f : Sar → Sar) : (d.modSar n f).shelf = d.shelf := rfl
@[simp] theorem Dev.modSar_tt (d : Dev) (n : Nat) (f : Sar → Sar) : (d.modSar n f).tt = d.tt := rfl
@[simp] theorem Dev.modSar_pmbus (d : Dev) (n : Nat) (f : Sar → Sar) : (d.modSar n f).pmbus = d.pmbus := rfl
@[simp] theorem Dev.modSar_avs (d : Dev) (n : Nat) (f : Sar → Sar) : (d.modSar n f).avs = d.avs := rfl
@[simp] theorem Dev.modSar_tap (d : Dev) (n : Nat) (f : Sar → Sar) : (d.modSar n f).tap = d.tap := rfl
@[simp] theorem Dev.modSar_startCount (d : Dev) (n : Nat) (f : Sar → Sar) : (d.modSar n f).startCount = d.startCount := rfl
@[simp] theorem Dev.modSar_due (d : Dev) (n : Nat) (f : Sar → Sar) : (d.modSar n f).due = d.due := rfl
@[simp] theorem Dev.modSar_out (d : Dev) (n : Nat) (f : Sar → Sar) : (d.modSar n f).out = d.out := rfl
@[simp] theorem Dev.modSar_fresh (d : Dev) (n : Nat) (f : Sar → Sar) : (d.modSar n f).fresh = d.fresh := rfl

/-! ### Dev.modGroup -/

@[simp] theorem Dev.modGroup_core (d : Dev) (g : Nat) (f : Group → Group) : (d.modGroup g f).core = d.core := rfl
@[simp] theorem Dev.modGroup_ka (d : Dev) (g : Nat) (f : Group → Group) : (d.modGroup g f).ka = d.ka := rfl
@[simp] theorem Dev.modGroup_cfg (d : Dev) (g : Nat) (f : Group → Group) : (d.modGroup g f).cfg = d.cfg := rfl
@[simp] theorem Dev.modGroup_book (d : Dev) (g : Nat) (f : Group → Group) : (d.modGroup g f).book = d.book := rfl
@[simp] theorem Dev.modGroup_hqi (d : Dev) (g : Nat) (f : Group → Group) : (d.modGroup g f).hqi = d.hqi := rfl
@[simp] theorem Dev.modGroup_ledger (d : Dev) (g : Nat) (f : Group → Group) : (d.modGroup g f).ledger = d.ledger := rfl
@[simp] theorem Dev.modGroup_sp (d : Dev) (g : Nat) (f : Group → Group) : (d.modGroup g f).sp = d.sp := rfl
@[simp] theorem Dev.modGroup_office (d : Dev) (g : Nat) (f : Group → Group) : (d.modGroup g f).office = d.office := rfl
@[simp] theorem Dev.modGroup_il (d : Dev) (g : Nat) (f : Group → Group) : (d.modGroup g f).il = d.il := rfl
@[simp] theorem Dev.modGroup_tr (d : Dev) (g : Nat) (f : Group → Group) : (d.modGroup g f).tr = d.tr := rfl
@[simp] theorem Dev.modGroup_sars (d : Dev) (g : Nat) (f : Group → Group) : (d.modGroup g f).sars = d.sars := rfl
@[simp] theorem Dev.modGroup_ccs (d : Dev) (g : Nat) (f : Group → Group) : (d.modGroup g f).ccs = d.ccs := rfl
@[simp] theorem Dev.modGroup_house (d : Dev) (g : Nat) (f : Group → Group) : (d.modGroup g f).house = d.house := rfl
@[simp] theorem Dev.modGroup_cps (d : Dev) (g : Nat) (f : Group → Group) : (d.modGroup g f).cps = d.cps := rfl
@[simp] theorem Dev.modGroup_drv (d : Dev) (g : Nat) (f : Group → Group) : (d.modGroup g f).drv = d.drv := rfl
@[simp] theorem Dev.modGroup_trip (d : Dev) (g : Nat) (f : Group → Group) : (d.modGroup g f).trip = d.trip := rfl
@[simp] theorem Dev.modGroup_fuse (d : Dev) (g : Nat) (f : Group → Group) : (d.modGroup g f).fuse = d.fuse := rfl
@[simp] theorem Dev.modGroup_bge (d : Dev) (g : Nat) (f : Group → Group) : (d.modGroup g f).bge = d.bge := rfl
@[simp] theorem Dev.modGroup_groups (d : Dev) (g : Nat) (f : Group → Group) : (d.modGroup g f).groups = fileMod d.groups g f := rfl
@[simp] theorem Dev.modGroup_legs (d : Dev) (g : Nat) (f : Group → Group) : (d.modGroup g f).legs = d.legs := rfl
@[simp] theorem Dev.modGroup_sup (d : Dev) (g : Nat) (f : Group → Group) : (d.modGroup g f).sup = d.sup := rfl
@[simp] theorem Dev.modGroup_feeds (d : Dev) (g : Nat) (f : Group → Group) : (d.modGroup g f).feeds = d.feeds := rfl
@[simp] theorem Dev.modGroup_branches (d : Dev) (g : Nat) (f : Group → Group) : (d.modGroup g f).branches = d.branches := rfl
@[simp] theorem Dev.modGroup_banks (d : Dev) (g : Nat) (f : Group → Group) : (d.modGroup g f).banks = d.banks := rfl
@[simp] theorem Dev.modGroup_strings (d : Dev) (g : Nat) (f : Group → Group) : (d.modGroup g f).strings = d.strings := rfl
@[simp] theorem Dev.modGroup_shelf (d : Dev) (g : Nat) (f : Group → Group) : (d.modGroup g f).shelf = d.shelf := rfl
@[simp] theorem Dev.modGroup_tt (d : Dev) (g : Nat) (f : Group → Group) : (d.modGroup g f).tt = d.tt := rfl
@[simp] theorem Dev.modGroup_pmbus (d : Dev) (g : Nat) (f : Group → Group) : (d.modGroup g f).pmbus = d.pmbus := rfl
@[simp] theorem Dev.modGroup_avs (d : Dev) (g : Nat) (f : Group → Group) : (d.modGroup g f).avs = d.avs := rfl
@[simp] theorem Dev.modGroup_tap (d : Dev) (g : Nat) (f : Group → Group) : (d.modGroup g f).tap = d.tap := rfl
@[simp] theorem Dev.modGroup_startCount (d : Dev) (g : Nat) (f : Group → Group) : (d.modGroup g f).startCount = d.startCount := rfl
@[simp] theorem Dev.modGroup_due (d : Dev) (g : Nat) (f : Group → Group) : (d.modGroup g f).due = d.due := rfl
@[simp] theorem Dev.modGroup_out (d : Dev) (g : Nat) (f : Group → Group) : (d.modGroup g f).out = d.out := rfl
@[simp] theorem Dev.modGroup_fresh (d : Dev) (g : Nat) (f : Group → Group) : (d.modGroup g f).fresh = d.fresh := rfl

/-! ### Dev.modLeg -/

@[simp] theorem Dev.modLeg_core (d : Dev) (k : Nat) (f : Leg → Leg) : (d.modLeg k f).core = d.core := rfl
@[simp] theorem Dev.modLeg_ka (d : Dev) (k : Nat) (f : Leg → Leg) : (d.modLeg k f).ka = d.ka := rfl
@[simp] theorem Dev.modLeg_cfg (d : Dev) (k : Nat) (f : Leg → Leg) : (d.modLeg k f).cfg = d.cfg := rfl
@[simp] theorem Dev.modLeg_book (d : Dev) (k : Nat) (f : Leg → Leg) : (d.modLeg k f).book = d.book := rfl
@[simp] theorem Dev.modLeg_hqi (d : Dev) (k : Nat) (f : Leg → Leg) : (d.modLeg k f).hqi = d.hqi := rfl
@[simp] theorem Dev.modLeg_ledger (d : Dev) (k : Nat) (f : Leg → Leg) : (d.modLeg k f).ledger = d.ledger := rfl
@[simp] theorem Dev.modLeg_sp (d : Dev) (k : Nat) (f : Leg → Leg) : (d.modLeg k f).sp = d.sp := rfl
@[simp] theorem Dev.modLeg_office (d : Dev) (k : Nat) (f : Leg → Leg) : (d.modLeg k f).office = d.office := rfl
@[simp] theorem Dev.modLeg_il (d : Dev) (k : Nat) (f : Leg → Leg) : (d.modLeg k f).il = d.il := rfl
@[simp] theorem Dev.modLeg_tr (d : Dev) (k : Nat) (f : Leg → Leg) : (d.modLeg k f).tr = d.tr := rfl
@[simp] theorem Dev.modLeg_sars (d : Dev) (k : Nat) (f : Leg → Leg) : (d.modLeg k f).sars = d.sars := rfl
@[simp] theorem Dev.modLeg_ccs (d : Dev) (k : Nat) (f : Leg → Leg) : (d.modLeg k f).ccs = d.ccs := rfl
@[simp] theorem Dev.modLeg_house (d : Dev) (k : Nat) (f : Leg → Leg) : (d.modLeg k f).house = d.house := rfl
@[simp] theorem Dev.modLeg_cps (d : Dev) (k : Nat) (f : Leg → Leg) : (d.modLeg k f).cps = d.cps := rfl
@[simp] theorem Dev.modLeg_drv (d : Dev) (k : Nat) (f : Leg → Leg) : (d.modLeg k f).drv = d.drv := rfl
@[simp] theorem Dev.modLeg_trip (d : Dev) (k : Nat) (f : Leg → Leg) : (d.modLeg k f).trip = d.trip := rfl
@[simp] theorem Dev.modLeg_fuse (d : Dev) (k : Nat) (f : Leg → Leg) : (d.modLeg k f).fuse = d.fuse := rfl
@[simp] theorem Dev.modLeg_bge (d : Dev) (k : Nat) (f : Leg → Leg) : (d.modLeg k f).bge = d.bge := rfl
@[simp] theorem Dev.modLeg_groups (d : Dev) (k : Nat) (f : Leg → Leg) : (d.modLeg k f).groups = d.groups := rfl
@[simp] theorem Dev.modLeg_legs (d : Dev) (k : Nat) (f : Leg → Leg) : (d.modLeg k f).legs = fileMod d.legs k f := rfl
@[simp] theorem Dev.modLeg_sup (d : Dev) (k : Nat) (f : Leg → Leg) : (d.modLeg k f).sup = d.sup := rfl
@[simp] theorem Dev.modLeg_feeds (d : Dev) (k : Nat) (f : Leg → Leg) : (d.modLeg k f).feeds = d.feeds := rfl
@[simp] theorem Dev.modLeg_branches (d : Dev) (k : Nat) (f : Leg → Leg) : (d.modLeg k f).branches = d.branches := rfl
@[simp] theorem Dev.modLeg_banks (d : Dev) (k : Nat) (f : Leg → Leg) : (d.modLeg k f).banks = d.banks := rfl
@[simp] theorem Dev.modLeg_strings (d : Dev) (k : Nat) (f : Leg → Leg) : (d.modLeg k f).strings = d.strings := rfl
@[simp] theorem Dev.modLeg_shelf (d : Dev) (k : Nat) (f : Leg → Leg) : (d.modLeg k f).shelf = d.shelf := rfl
@[simp] theorem Dev.modLeg_tt (d : Dev) (k : Nat) (f : Leg → Leg) : (d.modLeg k f).tt = d.tt := rfl
@[simp] theorem Dev.modLeg_pmbus (d : Dev) (k : Nat) (f : Leg → Leg) : (d.modLeg k f).pmbus = d.pmbus := rfl
@[simp] theorem Dev.modLeg_avs (d : Dev) (k : Nat) (f : Leg → Leg) : (d.modLeg k f).avs = d.avs := rfl
@[simp] theorem Dev.modLeg_tap (d : Dev) (k : Nat) (f : Leg → Leg) : (d.modLeg k f).tap = d.tap := rfl
@[simp] theorem Dev.modLeg_startCount (d : Dev) (k : Nat) (f : Leg → Leg) : (d.modLeg k f).startCount = d.startCount := rfl
@[simp] theorem Dev.modLeg_due (d : Dev) (k : Nat) (f : Leg → Leg) : (d.modLeg k f).due = d.due := rfl
@[simp] theorem Dev.modLeg_out (d : Dev) (k : Nat) (f : Leg → Leg) : (d.modLeg k f).out = d.out := rfl
@[simp] theorem Dev.modLeg_fresh (d : Dev) (k : Nat) (f : Leg → Leg) : (d.modLeg k f).fresh = d.fresh := rfl

/-! ### Dev.modLane -/

@[simp] theorem Dev.modLane_core (d : Dev) (l : Nat) (f : Lane → Lane) : (d.modLane l f).core = d.core := rfl
@[simp] theorem Dev.modLane_ka (d : Dev) (l : Nat) (f : Lane → Lane) : (d.modLane l f).ka = d.ka := rfl
@[simp] theorem Dev.modLane_cfg (d : Dev) (l : Nat) (f : Lane → Lane) : (d.modLane l f).cfg = d.cfg := rfl
@[simp] theorem Dev.modLane_book (d : Dev) (l : Nat) (f : Lane → Lane) : (d.modLane l f).book = d.book := rfl
@[simp] theorem Dev.modLane_hqi (d : Dev) (l : Nat) (f : Lane → Lane) : (d.modLane l f).hqi = d.hqi := rfl
@[simp] theorem Dev.modLane_ledger (d : Dev) (l : Nat) (f : Lane → Lane) : (d.modLane l f).ledger = d.ledger := rfl
@[simp] theorem Dev.modLane_sp (d : Dev) (l : Nat) (f : Lane → Lane) : (d.modLane l f).sp = d.sp := rfl
@[simp] theorem Dev.modLane_office (d : Dev) (l : Nat) (f : Lane → Lane) : (d.modLane l f).office = d.office := rfl
@[simp] theorem Dev.modLane_il (d : Dev) (l : Nat) (f : Lane → Lane) : (d.modLane l f).il = d.il := rfl
@[simp] theorem Dev.modLane_tr (d : Dev) (l : Nat) (f : Lane → Lane) : (d.modLane l f).tr = d.tr := rfl
@[simp] theorem Dev.modLane_sars (d : Dev) (l : Nat) (f : Lane → Lane) : (d.modLane l f).sars = d.sars := rfl
@[simp] theorem Dev.modLane_ccs (d : Dev) (l : Nat) (f : Lane → Lane) : (d.modLane l f).ccs = d.ccs := rfl
@[simp] theorem Dev.modLane_house (d : Dev) (l : Nat) (f : Lane → Lane) : (d.modLane l f).house = d.house := rfl
@[simp] theorem Dev.modLane_cps (d : Dev) (l : Nat) (f : Lane → Lane) : (d.modLane l f).cps = d.cps := rfl
@[simp] theorem Dev.modLane_drv (d : Dev) (l : Nat) (f : Lane → Lane) : (d.modLane l f).drv = d.drv := rfl
@[simp] theorem Dev.modLane_trip (d : Dev) (l : Nat) (f : Lane → Lane) : (d.modLane l f).trip = d.trip := rfl
@[simp] theorem Dev.modLane_fuse (d : Dev) (l : Nat) (f : Lane → Lane) : (d.modLane l f).fuse = d.fuse := rfl
@[simp] theorem Dev.modLane_bge (d : Dev) (l : Nat) (f : Lane → Lane) : (d.modLane l f).bge = d.bge := rfl
@[simp] theorem Dev.modLane_groups (d : Dev) (l : Nat) (f : Lane → Lane) : (d.modLane l f).groups = d.groups := rfl
@[simp] theorem Dev.modLane_legs (d : Dev) (l : Nat) (f : Lane → Lane) : (d.modLane l f).legs = d.legs := rfl
@[simp] theorem Dev.modLane_sup (d : Dev) (l : Nat) (f : Lane → Lane) : (d.modLane l f).sup = { d.sup with lanes := fileMod d.sup.lanes l f } := rfl
@[simp] theorem Dev.modLane_feeds (d : Dev) (l : Nat) (f : Lane → Lane) : (d.modLane l f).feeds = d.feeds := rfl
@[simp] theorem Dev.modLane_branches (d : Dev) (l : Nat) (f : Lane → Lane) : (d.modLane l f).branches = d.branches := rfl
@[simp] theorem Dev.modLane_banks (d : Dev) (l : Nat) (f : Lane → Lane) : (d.modLane l f).banks = d.banks := rfl
@[simp] theorem Dev.modLane_strings (d : Dev) (l : Nat) (f : Lane → Lane) : (d.modLane l f).strings = d.strings := rfl
@[simp] theorem Dev.modLane_shelf (d : Dev) (l : Nat) (f : Lane → Lane) : (d.modLane l f).shelf = d.shelf := rfl
@[simp] theorem Dev.modLane_tt (d : Dev) (l : Nat) (f : Lane → Lane) : (d.modLane l f).tt = d.tt := rfl
@[simp] theorem Dev.modLane_pmbus (d : Dev) (l : Nat) (f : Lane → Lane) : (d.modLane l f).pmbus = d.pmbus := rfl
@[simp] theorem Dev.modLane_avs (d : Dev) (l : Nat) (f : Lane → Lane) : (d.modLane l f).avs = d.avs := rfl
@[simp] theorem Dev.modLane_tap (d : Dev) (l : Nat) (f : Lane → Lane) : (d.modLane l f).tap = d.tap := rfl
@[simp] theorem Dev.modLane_startCount (d : Dev) (l : Nat) (f : Lane → Lane) : (d.modLane l f).startCount = d.startCount := rfl
@[simp] theorem Dev.modLane_due (d : Dev) (l : Nat) (f : Lane → Lane) : (d.modLane l f).due = d.due := rfl
@[simp] theorem Dev.modLane_out (d : Dev) (l : Nat) (f : Lane → Lane) : (d.modLane l f).out = d.out := rfl
@[simp] theorem Dev.modLane_fresh (d : Dev) (l : Nat) (f : Lane → Lane) : (d.modLane l f).fresh = d.fresh := rfl

/-! ### Dev.modFeed -/

@[simp] theorem Dev.modFeed_core (d : Dev) (n : Nat) (f : Feed → Feed) : (d.modFeed n f).core = d.core := rfl
@[simp] theorem Dev.modFeed_ka (d : Dev) (n : Nat) (f : Feed → Feed) : (d.modFeed n f).ka = d.ka := rfl
@[simp] theorem Dev.modFeed_cfg (d : Dev) (n : Nat) (f : Feed → Feed) : (d.modFeed n f).cfg = d.cfg := rfl
@[simp] theorem Dev.modFeed_book (d : Dev) (n : Nat) (f : Feed → Feed) : (d.modFeed n f).book = d.book := rfl
@[simp] theorem Dev.modFeed_hqi (d : Dev) (n : Nat) (f : Feed → Feed) : (d.modFeed n f).hqi = d.hqi := rfl
@[simp] theorem Dev.modFeed_ledger (d : Dev) (n : Nat) (f : Feed → Feed) : (d.modFeed n f).ledger = d.ledger := rfl
@[simp] theorem Dev.modFeed_sp (d : Dev) (n : Nat) (f : Feed → Feed) : (d.modFeed n f).sp = d.sp := rfl
@[simp] theorem Dev.modFeed_office (d : Dev) (n : Nat) (f : Feed → Feed) : (d.modFeed n f).office = d.office := rfl
@[simp] theorem Dev.modFeed_il (d : Dev) (n : Nat) (f : Feed → Feed) : (d.modFeed n f).il = d.il := rfl
@[simp] theorem Dev.modFeed_tr (d : Dev) (n : Nat) (f : Feed → Feed) : (d.modFeed n f).tr = d.tr := rfl
@[simp] theorem Dev.modFeed_sars (d : Dev) (n : Nat) (f : Feed → Feed) : (d.modFeed n f).sars = d.sars := rfl
@[simp] theorem Dev.modFeed_ccs (d : Dev) (n : Nat) (f : Feed → Feed) : (d.modFeed n f).ccs = d.ccs := rfl
@[simp] theorem Dev.modFeed_house (d : Dev) (n : Nat) (f : Feed → Feed) : (d.modFeed n f).house = d.house := rfl
@[simp] theorem Dev.modFeed_cps (d : Dev) (n : Nat) (f : Feed → Feed) : (d.modFeed n f).cps = d.cps := rfl
@[simp] theorem Dev.modFeed_drv (d : Dev) (n : Nat) (f : Feed → Feed) : (d.modFeed n f).drv = d.drv := rfl
@[simp] theorem Dev.modFeed_trip (d : Dev) (n : Nat) (f : Feed → Feed) : (d.modFeed n f).trip = d.trip := rfl
@[simp] theorem Dev.modFeed_fuse (d : Dev) (n : Nat) (f : Feed → Feed) : (d.modFeed n f).fuse = d.fuse := rfl
@[simp] theorem Dev.modFeed_bge (d : Dev) (n : Nat) (f : Feed → Feed) : (d.modFeed n f).bge = d.bge := rfl
@[simp] theorem Dev.modFeed_groups (d : Dev) (n : Nat) (f : Feed → Feed) : (d.modFeed n f).groups = d.groups := rfl
@[simp] theorem Dev.modFeed_legs (d : Dev) (n : Nat) (f : Feed → Feed) : (d.modFeed n f).legs = d.legs := rfl
@[simp] theorem Dev.modFeed_sup (d : Dev) (n : Nat) (f : Feed → Feed) : (d.modFeed n f).sup = d.sup := rfl
@[simp] theorem Dev.modFeed_feeds (d : Dev) (n : Nat) (f : Feed → Feed) : (d.modFeed n f).feeds = fileMod d.feeds n f := rfl
@[simp] theorem Dev.modFeed_branches (d : Dev) (n : Nat) (f : Feed → Feed) : (d.modFeed n f).branches = d.branches := rfl
@[simp] theorem Dev.modFeed_banks (d : Dev) (n : Nat) (f : Feed → Feed) : (d.modFeed n f).banks = d.banks := rfl
@[simp] theorem Dev.modFeed_strings (d : Dev) (n : Nat) (f : Feed → Feed) : (d.modFeed n f).strings = d.strings := rfl
@[simp] theorem Dev.modFeed_shelf (d : Dev) (n : Nat) (f : Feed → Feed) : (d.modFeed n f).shelf = d.shelf := rfl
@[simp] theorem Dev.modFeed_tt (d : Dev) (n : Nat) (f : Feed → Feed) : (d.modFeed n f).tt = d.tt := rfl
@[simp] theorem Dev.modFeed_pmbus (d : Dev) (n : Nat) (f : Feed → Feed) : (d.modFeed n f).pmbus = d.pmbus := rfl
@[simp] theorem Dev.modFeed_avs (d : Dev) (n : Nat) (f : Feed → Feed) : (d.modFeed n f).avs = d.avs := rfl
@[simp] theorem Dev.modFeed_tap (d : Dev) (n : Nat) (f : Feed → Feed) : (d.modFeed n f).tap = d.tap := rfl
@[simp] theorem Dev.modFeed_startCount (d : Dev) (n : Nat) (f : Feed → Feed) : (d.modFeed n f).startCount = d.startCount := rfl
@[simp] theorem Dev.modFeed_due (d : Dev) (n : Nat) (f : Feed → Feed) : (d.modFeed n f).due = d.due := rfl
@[simp] theorem Dev.modFeed_out (d : Dev) (n : Nat) (f : Feed → Feed) : (d.modFeed n f).out = d.out := rfl
@[simp] theorem Dev.modFeed_fresh (d : Dev) (n : Nat) (f : Feed → Feed) : (d.modFeed n f).fresh = d.fresh := rfl

/-! ### Dev.modBranch -/

@[simp] theorem Dev.modBranch_core (d : Dev) (n : Nat) (f : Branch → Branch) : (d.modBranch n f).core = d.core := rfl
@[simp] theorem Dev.modBranch_ka (d : Dev) (n : Nat) (f : Branch → Branch) : (d.modBranch n f).ka = d.ka := rfl
@[simp] theorem Dev.modBranch_cfg (d : Dev) (n : Nat) (f : Branch → Branch) : (d.modBranch n f).cfg = d.cfg := rfl
@[simp] theorem Dev.modBranch_book (d : Dev) (n : Nat) (f : Branch → Branch) : (d.modBranch n f).book = d.book := rfl
@[simp] theorem Dev.modBranch_hqi (d : Dev) (n : Nat) (f : Branch → Branch) : (d.modBranch n f).hqi = d.hqi := rfl
@[simp] theorem Dev.modBranch_ledger (d : Dev) (n : Nat) (f : Branch → Branch) : (d.modBranch n f).ledger = d.ledger := rfl
@[simp] theorem Dev.modBranch_sp (d : Dev) (n : Nat) (f : Branch → Branch) : (d.modBranch n f).sp = d.sp := rfl
@[simp] theorem Dev.modBranch_office (d : Dev) (n : Nat) (f : Branch → Branch) : (d.modBranch n f).office = d.office := rfl
@[simp] theorem Dev.modBranch_il (d : Dev) (n : Nat) (f : Branch → Branch) : (d.modBranch n f).il = d.il := rfl
@[simp] theorem Dev.modBranch_tr (d : Dev) (n : Nat) (f : Branch → Branch) : (d.modBranch n f).tr = d.tr := rfl
@[simp] theorem Dev.modBranch_sars (d : Dev) (n : Nat) (f : Branch → Branch) : (d.modBranch n f).sars = d.sars := rfl
@[simp] theorem Dev.modBranch_ccs (d : Dev) (n : Nat) (f : Branch → Branch) : (d.modBranch n f).ccs = d.ccs := rfl
@[simp] theorem Dev.modBranch_house (d : Dev) (n : Nat) (f : Branch → Branch) : (d.modBranch n f).house = d.house := rfl
@[simp] theorem Dev.modBranch_cps (d : Dev) (n : Nat) (f : Branch → Branch) : (d.modBranch n f).cps = d.cps := rfl
@[simp] theorem Dev.modBranch_drv (d : Dev) (n : Nat) (f : Branch → Branch) : (d.modBranch n f).drv = d.drv := rfl
@[simp] theorem Dev.modBranch_trip (d : Dev) (n : Nat) (f : Branch → Branch) : (d.modBranch n f).trip = d.trip := rfl
@[simp] theorem Dev.modBranch_fuse (d : Dev) (n : Nat) (f : Branch → Branch) : (d.modBranch n f).fuse = d.fuse := rfl
@[simp] theorem Dev.modBranch_bge (d : Dev) (n : Nat) (f : Branch → Branch) : (d.modBranch n f).bge = d.bge := rfl
@[simp] theorem Dev.modBranch_groups (d : Dev) (n : Nat) (f : Branch → Branch) : (d.modBranch n f).groups = d.groups := rfl
@[simp] theorem Dev.modBranch_legs (d : Dev) (n : Nat) (f : Branch → Branch) : (d.modBranch n f).legs = d.legs := rfl
@[simp] theorem Dev.modBranch_sup (d : Dev) (n : Nat) (f : Branch → Branch) : (d.modBranch n f).sup = d.sup := rfl
@[simp] theorem Dev.modBranch_feeds (d : Dev) (n : Nat) (f : Branch → Branch) : (d.modBranch n f).feeds = d.feeds := rfl
@[simp] theorem Dev.modBranch_branches (d : Dev) (n : Nat) (f : Branch → Branch) : (d.modBranch n f).branches = fileMod d.branches n f := rfl
@[simp] theorem Dev.modBranch_banks (d : Dev) (n : Nat) (f : Branch → Branch) : (d.modBranch n f).banks = d.banks := rfl
@[simp] theorem Dev.modBranch_strings (d : Dev) (n : Nat) (f : Branch → Branch) : (d.modBranch n f).strings = d.strings := rfl
@[simp] theorem Dev.modBranch_shelf (d : Dev) (n : Nat) (f : Branch → Branch) : (d.modBranch n f).shelf = d.shelf := rfl
@[simp] theorem Dev.modBranch_tt (d : Dev) (n : Nat) (f : Branch → Branch) : (d.modBranch n f).tt = d.tt := rfl
@[simp] theorem Dev.modBranch_pmbus (d : Dev) (n : Nat) (f : Branch → Branch) : (d.modBranch n f).pmbus = d.pmbus := rfl
@[simp] theorem Dev.modBranch_avs (d : Dev) (n : Nat) (f : Branch → Branch) : (d.modBranch n f).avs = d.avs := rfl
@[simp] theorem Dev.modBranch_tap (d : Dev) (n : Nat) (f : Branch → Branch) : (d.modBranch n f).tap = d.tap := rfl
@[simp] theorem Dev.modBranch_startCount (d : Dev) (n : Nat) (f : Branch → Branch) : (d.modBranch n f).startCount = d.startCount := rfl
@[simp] theorem Dev.modBranch_due (d : Dev) (n : Nat) (f : Branch → Branch) : (d.modBranch n f).due = d.due := rfl
@[simp] theorem Dev.modBranch_out (d : Dev) (n : Nat) (f : Branch → Branch) : (d.modBranch n f).out = d.out := rfl
@[simp] theorem Dev.modBranch_fresh (d : Dev) (n : Nat) (f : Branch → Branch) : (d.modBranch n f).fresh = d.fresh := rfl

/-! ### Dev.modBank -/

@[simp] theorem Dev.modBank_core (d : Dev) (b : Nat) (f : Bank → Bank) : (d.modBank b f).core = d.core := rfl
@[simp] theorem Dev.modBank_ka (d : Dev) (b : Nat) (f : Bank → Bank) : (d.modBank b f).ka = d.ka := rfl
@[simp] theorem Dev.modBank_cfg (d : Dev) (b : Nat) (f : Bank → Bank) : (d.modBank b f).cfg = d.cfg := rfl
@[simp] theorem Dev.modBank_book (d : Dev) (b : Nat) (f : Bank → Bank) : (d.modBank b f).book = d.book := rfl
@[simp] theorem Dev.modBank_hqi (d : Dev) (b : Nat) (f : Bank → Bank) : (d.modBank b f).hqi = d.hqi := rfl
@[simp] theorem Dev.modBank_ledger (d : Dev) (b : Nat) (f : Bank → Bank) : (d.modBank b f).ledger = d.ledger := rfl
@[simp] theorem Dev.modBank_sp (d : Dev) (b : Nat) (f : Bank → Bank) : (d.modBank b f).sp = d.sp := rfl
@[simp] theorem Dev.modBank_office (d : Dev) (b : Nat) (f : Bank → Bank) : (d.modBank b f).office = d.office := rfl
@[simp] theorem Dev.modBank_il (d : Dev) (b : Nat) (f : Bank → Bank) : (d.modBank b f).il = d.il := rfl
@[simp] theorem Dev.modBank_tr (d : Dev) (b : Nat) (f : Bank → Bank) : (d.modBank b f).tr = d.tr := rfl
@[simp] theorem Dev.modBank_sars (d : Dev) (b : Nat) (f : Bank → Bank) : (d.modBank b f).sars = d.sars := rfl
@[simp] theorem Dev.modBank_ccs (d : Dev) (b : Nat) (f : Bank → Bank) : (d.modBank b f).ccs = d.ccs := rfl
@[simp] theorem Dev.modBank_house (d : Dev) (b : Nat) (f : Bank → Bank) : (d.modBank b f).house = d.house := rfl
@[simp] theorem Dev.modBank_cps (d : Dev) (b : Nat) (f : Bank → Bank) : (d.modBank b f).cps = d.cps := rfl
@[simp] theorem Dev.modBank_drv (d : Dev) (b : Nat) (f : Bank → Bank) : (d.modBank b f).drv = d.drv := rfl
@[simp] theorem Dev.modBank_trip (d : Dev) (b : Nat) (f : Bank → Bank) : (d.modBank b f).trip = d.trip := rfl
@[simp] theorem Dev.modBank_fuse (d : Dev) (b : Nat) (f : Bank → Bank) : (d.modBank b f).fuse = d.fuse := rfl
@[simp] theorem Dev.modBank_bge (d : Dev) (b : Nat) (f : Bank → Bank) : (d.modBank b f).bge = d.bge := rfl
@[simp] theorem Dev.modBank_groups (d : Dev) (b : Nat) (f : Bank → Bank) : (d.modBank b f).groups = d.groups := rfl
@[simp] theorem Dev.modBank_legs (d : Dev) (b : Nat) (f : Bank → Bank) : (d.modBank b f).legs = d.legs := rfl
@[simp] theorem Dev.modBank_sup (d : Dev) (b : Nat) (f : Bank → Bank) : (d.modBank b f).sup = d.sup := rfl
@[simp] theorem Dev.modBank_feeds (d : Dev) (b : Nat) (f : Bank → Bank) : (d.modBank b f).feeds = d.feeds := rfl
@[simp] theorem Dev.modBank_branches (d : Dev) (b : Nat) (f : Bank → Bank) : (d.modBank b f).branches = d.branches := rfl
@[simp] theorem Dev.modBank_banks (d : Dev) (b : Nat) (f : Bank → Bank) : (d.modBank b f).banks = fileMod d.banks b f := rfl
@[simp] theorem Dev.modBank_strings (d : Dev) (b : Nat) (f : Bank → Bank) : (d.modBank b f).strings = d.strings := rfl
@[simp] theorem Dev.modBank_shelf (d : Dev) (b : Nat) (f : Bank → Bank) : (d.modBank b f).shelf = d.shelf := rfl
@[simp] theorem Dev.modBank_tt (d : Dev) (b : Nat) (f : Bank → Bank) : (d.modBank b f).tt = d.tt := rfl
@[simp] theorem Dev.modBank_pmbus (d : Dev) (b : Nat) (f : Bank → Bank) : (d.modBank b f).pmbus = d.pmbus := rfl
@[simp] theorem Dev.modBank_avs (d : Dev) (b : Nat) (f : Bank → Bank) : (d.modBank b f).avs = d.avs := rfl
@[simp] theorem Dev.modBank_tap (d : Dev) (b : Nat) (f : Bank → Bank) : (d.modBank b f).tap = d.tap := rfl
@[simp] theorem Dev.modBank_startCount (d : Dev) (b : Nat) (f : Bank → Bank) : (d.modBank b f).startCount = d.startCount := rfl
@[simp] theorem Dev.modBank_due (d : Dev) (b : Nat) (f : Bank → Bank) : (d.modBank b f).due = d.due := rfl
@[simp] theorem Dev.modBank_out (d : Dev) (b : Nat) (f : Bank → Bank) : (d.modBank b f).out = d.out := rfl
@[simp] theorem Dev.modBank_fresh (d : Dev) (b : Nat) (f : Bank → Bank) : (d.modBank b f).fresh = d.fresh := rfl

/-! ### Dev.modStr -/

@[simp] theorem Dev.modStr_core (d : Dev) (n : Nat) (f : BString → BString) : (d.modStr n f).core = d.core := rfl
@[simp] theorem Dev.modStr_ka (d : Dev) (n : Nat) (f : BString → BString) : (d.modStr n f).ka = d.ka := rfl
@[simp] theorem Dev.modStr_cfg (d : Dev) (n : Nat) (f : BString → BString) : (d.modStr n f).cfg = d.cfg := rfl
@[simp] theorem Dev.modStr_book (d : Dev) (n : Nat) (f : BString → BString) : (d.modStr n f).book = d.book := rfl
@[simp] theorem Dev.modStr_hqi (d : Dev) (n : Nat) (f : BString → BString) : (d.modStr n f).hqi = d.hqi := rfl
@[simp] theorem Dev.modStr_ledger (d : Dev) (n : Nat) (f : BString → BString) : (d.modStr n f).ledger = d.ledger := rfl
@[simp] theorem Dev.modStr_sp (d : Dev) (n : Nat) (f : BString → BString) : (d.modStr n f).sp = d.sp := rfl
@[simp] theorem Dev.modStr_office (d : Dev) (n : Nat) (f : BString → BString) : (d.modStr n f).office = d.office := rfl
@[simp] theorem Dev.modStr_il (d : Dev) (n : Nat) (f : BString → BString) : (d.modStr n f).il = d.il := rfl
@[simp] theorem Dev.modStr_tr (d : Dev) (n : Nat) (f : BString → BString) : (d.modStr n f).tr = d.tr := rfl
@[simp] theorem Dev.modStr_sars (d : Dev) (n : Nat) (f : BString → BString) : (d.modStr n f).sars = d.sars := rfl
@[simp] theorem Dev.modStr_ccs (d : Dev) (n : Nat) (f : BString → BString) : (d.modStr n f).ccs = d.ccs := rfl
@[simp] theorem Dev.modStr_house (d : Dev) (n : Nat) (f : BString → BString) : (d.modStr n f).house = d.house := rfl
@[simp] theorem Dev.modStr_cps (d : Dev) (n : Nat) (f : BString → BString) : (d.modStr n f).cps = d.cps := rfl
@[simp] theorem Dev.modStr_drv (d : Dev) (n : Nat) (f : BString → BString) : (d.modStr n f).drv = d.drv := rfl
@[simp] theorem Dev.modStr_trip (d : Dev) (n : Nat) (f : BString → BString) : (d.modStr n f).trip = d.trip := rfl
@[simp] theorem Dev.modStr_fuse (d : Dev) (n : Nat) (f : BString → BString) : (d.modStr n f).fuse = d.fuse := rfl
@[simp] theorem Dev.modStr_bge (d : Dev) (n : Nat) (f : BString → BString) : (d.modStr n f).bge = d.bge := rfl
@[simp] theorem Dev.modStr_groups (d : Dev) (n : Nat) (f : BString → BString) : (d.modStr n f).groups = d.groups := rfl
@[simp] theorem Dev.modStr_legs (d : Dev) (n : Nat) (f : BString → BString) : (d.modStr n f).legs = d.legs := rfl
@[simp] theorem Dev.modStr_sup (d : Dev) (n : Nat) (f : BString → BString) : (d.modStr n f).sup = d.sup := rfl
@[simp] theorem Dev.modStr_feeds (d : Dev) (n : Nat) (f : BString → BString) : (d.modStr n f).feeds = d.feeds := rfl
@[simp] theorem Dev.modStr_branches (d : Dev) (n : Nat) (f : BString → BString) : (d.modStr n f).branches = d.branches := rfl
@[simp] theorem Dev.modStr_banks (d : Dev) (n : Nat) (f : BString → BString) : (d.modStr n f).banks = d.banks := rfl
@[simp] theorem Dev.modStr_strings (d : Dev) (n : Nat) (f : BString → BString) : (d.modStr n f).strings = fileMod d.strings n f := rfl
@[simp] theorem Dev.modStr_shelf (d : Dev) (n : Nat) (f : BString → BString) : (d.modStr n f).shelf = d.shelf := rfl
@[simp] theorem Dev.modStr_tt (d : Dev) (n : Nat) (f : BString → BString) : (d.modStr n f).tt = d.tt := rfl
@[simp] theorem Dev.modStr_pmbus (d : Dev) (n : Nat) (f : BString → BString) : (d.modStr n f).pmbus = d.pmbus := rfl
@[simp] theorem Dev.modStr_avs (d : Dev) (n : Nat) (f : BString → BString) : (d.modStr n f).avs = d.avs := rfl
@[simp] theorem Dev.modStr_tap (d : Dev) (n : Nat) (f : BString → BString) : (d.modStr n f).tap = d.tap := rfl
@[simp] theorem Dev.modStr_startCount (d : Dev) (n : Nat) (f : BString → BString) : (d.modStr n f).startCount = d.startCount := rfl
@[simp] theorem Dev.modStr_due (d : Dev) (n : Nat) (f : BString → BString) : (d.modStr n f).due = d.due := rfl
@[simp] theorem Dev.modStr_out (d : Dev) (n : Nat) (f : BString → BString) : (d.modStr n f).out = d.out := rfl
@[simp] theorem Dev.modStr_fresh (d : Dev) (n : Nat) (f : BString → BString) : (d.modStr n f).fresh = d.fresh := rfl

/-! ### Dev.modTt -/

@[simp] theorem Dev.modTt_core (d : Dev) (f : Timetable → Timetable) : (d.modTt f).core = d.core := rfl
@[simp] theorem Dev.modTt_ka (d : Dev) (f : Timetable → Timetable) : (d.modTt f).ka = d.ka := rfl
@[simp] theorem Dev.modTt_cfg (d : Dev) (f : Timetable → Timetable) : (d.modTt f).cfg = d.cfg := rfl
@[simp] theorem Dev.modTt_book (d : Dev) (f : Timetable → Timetable) : (d.modTt f).book = d.book := rfl
@[simp] theorem Dev.modTt_hqi (d : Dev) (f : Timetable → Timetable) : (d.modTt f).hqi = d.hqi := rfl
@[simp] theorem Dev.modTt_ledger (d : Dev) (f : Timetable → Timetable) : (d.modTt f).ledger = d.ledger := rfl
@[simp] theorem Dev.modTt_sp (d : Dev) (f : Timetable → Timetable) : (d.modTt f).sp = d.sp := rfl
@[simp] theorem Dev.modTt_office (d : Dev) (f : Timetable → Timetable) : (d.modTt f).office = d.office := rfl
@[simp] theorem Dev.modTt_il (d : Dev) (f : Timetable → Timetable) : (d.modTt f).il = d.il := rfl
@[simp] theorem Dev.modTt_tr (d : Dev) (f : Timetable → Timetable) : (d.modTt f).tr = d.tr := rfl
@[simp] theorem Dev.modTt_sars (d : Dev) (f : Timetable → Timetable) : (d.modTt f).sars = d.sars := rfl
@[simp] theorem Dev.modTt_ccs (d : Dev) (f : Timetable → Timetable) : (d.modTt f).ccs = d.ccs := rfl
@[simp] theorem Dev.modTt_house (d : Dev) (f : Timetable → Timetable) : (d.modTt f).house = d.house := rfl
@[simp] theorem Dev.modTt_cps (d : Dev) (f : Timetable → Timetable) : (d.modTt f).cps = d.cps := rfl
@[simp] theorem Dev.modTt_drv (d : Dev) (f : Timetable → Timetable) : (d.modTt f).drv = d.drv := rfl
@[simp] theorem Dev.modTt_trip (d : Dev) (f : Timetable → Timetable) : (d.modTt f).trip = d.trip := rfl
@[simp] theorem Dev.modTt_fuse (d : Dev) (f : Timetable → Timetable) : (d.modTt f).fuse = d.fuse := rfl
@[simp] theorem Dev.modTt_bge (d : Dev) (f : Timetable → Timetable) : (d.modTt f).bge = d.bge := rfl
@[simp] theorem Dev.modTt_groups (d : Dev) (f : Timetable → Timetable) : (d.modTt f).groups = d.groups := rfl
@[simp] theorem Dev.modTt_legs (d : Dev) (f : Timetable → Timetable) : (d.modTt f).legs = d.legs := rfl
@[simp] theorem Dev.modTt_sup (d : Dev) (f : Timetable → Timetable) : (d.modTt f).sup = d.sup := rfl
@[simp] theorem Dev.modTt_feeds (d : Dev) (f : Timetable → Timetable) : (d.modTt f).feeds = d.feeds := rfl
@[simp] theorem Dev.modTt_branches (d : Dev) (f : Timetable → Timetable) : (d.modTt f).branches = d.branches := rfl
@[simp] theorem Dev.modTt_banks (d : Dev) (f : Timetable → Timetable) : (d.modTt f).banks = d.banks := rfl
@[simp] theorem Dev.modTt_strings (d : Dev) (f : Timetable → Timetable) : (d.modTt f).strings = d.strings := rfl
@[simp] theorem Dev.modTt_shelf (d : Dev) (f : Timetable → Timetable) : (d.modTt f).shelf = d.shelf := rfl
@[simp] theorem Dev.modTt_tt (d : Dev) (f : Timetable → Timetable) : (d.modTt f).tt = f d.tt := rfl
@[simp] theorem Dev.modTt_pmbus (d : Dev) (f : Timetable → Timetable) : (d.modTt f).pmbus = d.pmbus := rfl
@[simp] theorem Dev.modTt_avs (d : Dev) (f : Timetable → Timetable) : (d.modTt f).avs = d.avs := rfl
@[simp] theorem Dev.modTt_tap (d : Dev) (f : Timetable → Timetable) : (d.modTt f).tap = d.tap := rfl
@[simp] theorem Dev.modTt_startCount (d : Dev) (f : Timetable → Timetable) : (d.modTt f).startCount = d.startCount := rfl
@[simp] theorem Dev.modTt_due (d : Dev) (f : Timetable → Timetable) : (d.modTt f).due = d.due := rfl
@[simp] theorem Dev.modTt_out (d : Dev) (f : Timetable → Timetable) : (d.modTt f).out = d.out := rfl
@[simp] theorem Dev.modTt_fresh (d : Dev) (f : Timetable → Timetable) : (d.modTt f).fresh = d.fresh := rfl

/-! ### Dev.modPb -/

@[simp] theorem Dev.modPb_core (d : Dev) (b : Nat) (f : PmbusMaster → PmbusMaster) : (d.modPb b f).core = d.core := rfl
@[simp] theorem Dev.modPb_ka (d : Dev) (b : Nat) (f : PmbusMaster → PmbusMaster) : (d.modPb b f).ka = d.ka := rfl
@[simp] theorem Dev.modPb_cfg (d : Dev) (b : Nat) (f : PmbusMaster → PmbusMaster) : (d.modPb b f).cfg = d.cfg := rfl
@[simp] theorem Dev.modPb_book (d : Dev) (b : Nat) (f : PmbusMaster → PmbusMaster) : (d.modPb b f).book = d.book := rfl
@[simp] theorem Dev.modPb_hqi (d : Dev) (b : Nat) (f : PmbusMaster → PmbusMaster) : (d.modPb b f).hqi = d.hqi := rfl
@[simp] theorem Dev.modPb_ledger (d : Dev) (b : Nat) (f : PmbusMaster → PmbusMaster) : (d.modPb b f).ledger = d.ledger := rfl
@[simp] theorem Dev.modPb_sp (d : Dev) (b : Nat) (f : PmbusMaster → PmbusMaster) : (d.modPb b f).sp = d.sp := rfl
@[simp] theorem Dev.modPb_office (d : Dev) (b : Nat) (f : PmbusMaster → PmbusMaster) : (d.modPb b f).office = d.office := rfl
@[simp] theorem Dev.modPb_il (d : Dev) (b : Nat) (f : PmbusMaster → PmbusMaster) : (d.modPb b f).il = d.il := rfl
@[simp] theorem Dev.modPb_tr (d : Dev) (b : Nat) (f : PmbusMaster → PmbusMaster) : (d.modPb b f).tr = d.tr := rfl
@[simp] theorem Dev.modPb_sars (d : Dev) (b : Nat) (f : PmbusMaster → PmbusMaster) : (d.modPb b f).sars = d.sars := rfl
@[simp] theorem Dev.modPb_ccs (d : Dev) (b : Nat) (f : PmbusMaster → PmbusMaster) : (d.modPb b f).ccs = d.ccs := rfl
@[simp] theorem Dev.modPb_house (d : Dev) (b : Nat) (f : PmbusMaster → PmbusMaster) : (d.modPb b f).house = d.house := rfl
@[simp] theorem Dev.modPb_cps (d : Dev) (b : Nat) (f : PmbusMaster → PmbusMaster) : (d.modPb b f).cps = d.cps := rfl
@[simp] theorem Dev.modPb_drv (d : Dev) (b : Nat) (f : PmbusMaster → PmbusMaster) : (d.modPb b f).drv = d.drv := rfl
@[simp] theorem Dev.modPb_trip (d : Dev) (b : Nat) (f : PmbusMaster → PmbusMaster) : (d.modPb b f).trip = d.trip := rfl
@[simp] theorem Dev.modPb_fuse (d : Dev) (b : Nat) (f : PmbusMaster → PmbusMaster) : (d.modPb b f).fuse = d.fuse := rfl
@[simp] theorem Dev.modPb_bge (d : Dev) (b : Nat) (f : PmbusMaster → PmbusMaster) : (d.modPb b f).bge = d.bge := rfl
@[simp] theorem Dev.modPb_groups (d : Dev) (b : Nat) (f : PmbusMaster → PmbusMaster) : (d.modPb b f).groups = d.groups := rfl
@[simp] theorem Dev.modPb_legs (d : Dev) (b : Nat) (f : PmbusMaster → PmbusMaster) : (d.modPb b f).legs = d.legs := rfl
@[simp] theorem Dev.modPb_sup (d : Dev) (b : Nat) (f : PmbusMaster → PmbusMaster) : (d.modPb b f).sup = d.sup := rfl
@[simp] theorem Dev.modPb_feeds (d : Dev) (b : Nat) (f : PmbusMaster → PmbusMaster) : (d.modPb b f).feeds = d.feeds := rfl
@[simp] theorem Dev.modPb_branches (d : Dev) (b : Nat) (f : PmbusMaster → PmbusMaster) : (d.modPb b f).branches = d.branches := rfl
@[simp] theorem Dev.modPb_banks (d : Dev) (b : Nat) (f : PmbusMaster → PmbusMaster) : (d.modPb b f).banks = d.banks := rfl
@[simp] theorem Dev.modPb_strings (d : Dev) (b : Nat) (f : PmbusMaster → PmbusMaster) : (d.modPb b f).strings = d.strings := rfl
@[simp] theorem Dev.modPb_shelf (d : Dev) (b : Nat) (f : PmbusMaster → PmbusMaster) : (d.modPb b f).shelf = d.shelf := rfl
@[simp] theorem Dev.modPb_tt (d : Dev) (b : Nat) (f : PmbusMaster → PmbusMaster) : (d.modPb b f).tt = d.tt := rfl
@[simp] theorem Dev.modPb_pmbus (d : Dev) (b : Nat) (f : PmbusMaster → PmbusMaster) : (d.modPb b f).pmbus = fileMod d.pmbus b f := rfl
@[simp] theorem Dev.modPb_avs (d : Dev) (b : Nat) (f : PmbusMaster → PmbusMaster) : (d.modPb b f).avs = d.avs := rfl
@[simp] theorem Dev.modPb_tap (d : Dev) (b : Nat) (f : PmbusMaster → PmbusMaster) : (d.modPb b f).tap = d.tap := rfl
@[simp] theorem Dev.modPb_startCount (d : Dev) (b : Nat) (f : PmbusMaster → PmbusMaster) : (d.modPb b f).startCount = d.startCount := rfl
@[simp] theorem Dev.modPb_due (d : Dev) (b : Nat) (f : PmbusMaster → PmbusMaster) : (d.modPb b f).due = d.due := rfl
@[simp] theorem Dev.modPb_out (d : Dev) (b : Nat) (f : PmbusMaster → PmbusMaster) : (d.modPb b f).out = d.out := rfl
@[simp] theorem Dev.modPb_fresh (d : Dev) (b : Nat) (f : PmbusMaster → PmbusMaster) : (d.modPb b f).fresh = d.fresh := rfl

/-! ### Dev.modAv -/

@[simp] theorem Dev.modAv_core (d : Dev) (a : Nat) (f : AvsMaster → AvsMaster) : (d.modAv a f).core = d.core := rfl
@[simp] theorem Dev.modAv_ka (d : Dev) (a : Nat) (f : AvsMaster → AvsMaster) : (d.modAv a f).ka = d.ka := rfl
@[simp] theorem Dev.modAv_cfg (d : Dev) (a : Nat) (f : AvsMaster → AvsMaster) : (d.modAv a f).cfg = d.cfg := rfl
@[simp] theorem Dev.modAv_book (d : Dev) (a : Nat) (f : AvsMaster → AvsMaster) : (d.modAv a f).book = d.book := rfl
@[simp] theorem Dev.modAv_hqi (d : Dev) (a : Nat) (f : AvsMaster → AvsMaster) : (d.modAv a f).hqi = d.hqi := rfl
@[simp] theorem Dev.modAv_ledger (d : Dev) (a : Nat) (f : AvsMaster → AvsMaster) : (d.modAv a f).ledger = d.ledger := rfl
@[simp] theorem Dev.modAv_sp (d : Dev) (a : Nat) (f : AvsMaster → AvsMaster) : (d.modAv a f).sp = d.sp := rfl
@[simp] theorem Dev.modAv_office (d : Dev) (a : Nat) (f : AvsMaster → AvsMaster) : (d.modAv a f).office = d.office := rfl
@[simp] theorem Dev.modAv_il (d : Dev) (a : Nat) (f : AvsMaster → AvsMaster) : (d.modAv a f).il = d.il := rfl
@[simp] theorem Dev.modAv_tr (d : Dev) (a : Nat) (f : AvsMaster → AvsMaster) : (d.modAv a f).tr = d.tr := rfl
@[simp] theorem Dev.modAv_sars (d : Dev) (a : Nat) (f : AvsMaster → AvsMaster) : (d.modAv a f).sars = d.sars := rfl
@[simp] theorem Dev.modAv_ccs (d : Dev) (a : Nat) (f : AvsMaster → AvsMaster) : (d.modAv a f).ccs = d.ccs := rfl
@[simp] theorem Dev.modAv_house (d : Dev) (a : Nat) (f : AvsMaster → AvsMaster) : (d.modAv a f).house = d.house := rfl
@[simp] theorem Dev.modAv_cps (d : Dev) (a : Nat) (f : AvsMaster → AvsMaster) : (d.modAv a f).cps = d.cps := rfl
@[simp] theorem Dev.modAv_drv (d : Dev) (a : Nat) (f : AvsMaster → AvsMaster) : (d.modAv a f).drv = d.drv := rfl
@[simp] theorem Dev.modAv_trip (d : Dev) (a : Nat) (f : AvsMaster → AvsMaster) : (d.modAv a f).trip = d.trip := rfl
@[simp] theorem Dev.modAv_fuse (d : Dev) (a : Nat) (f : AvsMaster → AvsMaster) : (d.modAv a f).fuse = d.fuse := rfl
@[simp] theorem Dev.modAv_bge (d : Dev) (a : Nat) (f : AvsMaster → AvsMaster) : (d.modAv a f).bge = d.bge := rfl
@[simp] theorem Dev.modAv_groups (d : Dev) (a : Nat) (f : AvsMaster → AvsMaster) : (d.modAv a f).groups = d.groups := rfl
@[simp] theorem Dev.modAv_legs (d : Dev) (a : Nat) (f : AvsMaster → AvsMaster) : (d.modAv a f).legs = d.legs := rfl
@[simp] theorem Dev.modAv_sup (d : Dev) (a : Nat) (f : AvsMaster → AvsMaster) : (d.modAv a f).sup = d.sup := rfl
@[simp] theorem Dev.modAv_feeds (d : Dev) (a : Nat) (f : AvsMaster → AvsMaster) : (d.modAv a f).feeds = d.feeds := rfl
@[simp] theorem Dev.modAv_branches (d : Dev) (a : Nat) (f : AvsMaster → AvsMaster) : (d.modAv a f).branches = d.branches := rfl
@[simp] theorem Dev.modAv_banks (d : Dev) (a : Nat) (f : AvsMaster → AvsMaster) : (d.modAv a f).banks = d.banks := rfl
@[simp] theorem Dev.modAv_strings (d : Dev) (a : Nat) (f : AvsMaster → AvsMaster) : (d.modAv a f).strings = d.strings := rfl
@[simp] theorem Dev.modAv_shelf (d : Dev) (a : Nat) (f : AvsMaster → AvsMaster) : (d.modAv a f).shelf = d.shelf := rfl
@[simp] theorem Dev.modAv_tt (d : Dev) (a : Nat) (f : AvsMaster → AvsMaster) : (d.modAv a f).tt = d.tt := rfl
@[simp] theorem Dev.modAv_pmbus (d : Dev) (a : Nat) (f : AvsMaster → AvsMaster) : (d.modAv a f).pmbus = d.pmbus := rfl
@[simp] theorem Dev.modAv_avs (d : Dev) (a : Nat) (f : AvsMaster → AvsMaster) : (d.modAv a f).avs = fileMod d.avs a f := rfl
@[simp] theorem Dev.modAv_tap (d : Dev) (a : Nat) (f : AvsMaster → AvsMaster) : (d.modAv a f).tap = d.tap := rfl
@[simp] theorem Dev.modAv_startCount (d : Dev) (a : Nat) (f : AvsMaster → AvsMaster) : (d.modAv a f).startCount = d.startCount := rfl
@[simp] theorem Dev.modAv_due (d : Dev) (a : Nat) (f : AvsMaster → AvsMaster) : (d.modAv a f).due = d.due := rfl
@[simp] theorem Dev.modAv_out (d : Dev) (a : Nat) (f : AvsMaster → AvsMaster) : (d.modAv a f).out = d.out := rfl
@[simp] theorem Dev.modAv_fresh (d : Dev) (a : Nat) (f : AvsMaster → AvsMaster) : (d.modAv a f).fresh = d.fresh := rfl

/-! ### Dev.modIl -/

@[simp] theorem Dev.modIl_core (d : Dev) (f : Interlocking → Interlocking) : (d.modIl f).core = d.core := rfl
@[simp] theorem Dev.modIl_ka (d : Dev) (f : Interlocking → Interlocking) : (d.modIl f).ka = d.ka := rfl
@[simp] theorem Dev.modIl_cfg (d : Dev) (f : Interlocking → Interlocking) : (d.modIl f).cfg = d.cfg := rfl
@[simp] theorem Dev.modIl_book (d : Dev) (f : Interlocking → Interlocking) : (d.modIl f).book = d.book := rfl
@[simp] theorem Dev.modIl_hqi (d : Dev) (f : Interlocking → Interlocking) : (d.modIl f).hqi = d.hqi := rfl
@[simp] theorem Dev.modIl_ledger (d : Dev) (f : Interlocking → Interlocking) : (d.modIl f).ledger = d.ledger := rfl
@[simp] theorem Dev.modIl_sp (d : Dev) (f : Interlocking → Interlocking) : (d.modIl f).sp = d.sp := rfl
@[simp] theorem Dev.modIl_office (d : Dev) (f : Interlocking → Interlocking) : (d.modIl f).office = d.office := rfl
@[simp] theorem Dev.modIl_il (d : Dev) (f : Interlocking → Interlocking) : (d.modIl f).il = f d.il := rfl
@[simp] theorem Dev.modIl_tr (d : Dev) (f : Interlocking → Interlocking) : (d.modIl f).tr = d.tr := rfl
@[simp] theorem Dev.modIl_sars (d : Dev) (f : Interlocking → Interlocking) : (d.modIl f).sars = d.sars := rfl
@[simp] theorem Dev.modIl_ccs (d : Dev) (f : Interlocking → Interlocking) : (d.modIl f).ccs = d.ccs := rfl
@[simp] theorem Dev.modIl_house (d : Dev) (f : Interlocking → Interlocking) : (d.modIl f).house = d.house := rfl
@[simp] theorem Dev.modIl_cps (d : Dev) (f : Interlocking → Interlocking) : (d.modIl f).cps = d.cps := rfl
@[simp] theorem Dev.modIl_drv (d : Dev) (f : Interlocking → Interlocking) : (d.modIl f).drv = d.drv := rfl
@[simp] theorem Dev.modIl_trip (d : Dev) (f : Interlocking → Interlocking) : (d.modIl f).trip = d.trip := rfl
@[simp] theorem Dev.modIl_fuse (d : Dev) (f : Interlocking → Interlocking) : (d.modIl f).fuse = d.fuse := rfl
@[simp] theorem Dev.modIl_bge (d : Dev) (f : Interlocking → Interlocking) : (d.modIl f).bge = d.bge := rfl
@[simp] theorem Dev.modIl_groups (d : Dev) (f : Interlocking → Interlocking) : (d.modIl f).groups = d.groups := rfl
@[simp] theorem Dev.modIl_legs (d : Dev) (f : Interlocking → Interlocking) : (d.modIl f).legs = d.legs := rfl
@[simp] theorem Dev.modIl_sup (d : Dev) (f : Interlocking → Interlocking) : (d.modIl f).sup = d.sup := rfl
@[simp] theorem Dev.modIl_feeds (d : Dev) (f : Interlocking → Interlocking) : (d.modIl f).feeds = d.feeds := rfl
@[simp] theorem Dev.modIl_branches (d : Dev) (f : Interlocking → Interlocking) : (d.modIl f).branches = d.branches := rfl
@[simp] theorem Dev.modIl_banks (d : Dev) (f : Interlocking → Interlocking) : (d.modIl f).banks = d.banks := rfl
@[simp] theorem Dev.modIl_strings (d : Dev) (f : Interlocking → Interlocking) : (d.modIl f).strings = d.strings := rfl
@[simp] theorem Dev.modIl_shelf (d : Dev) (f : Interlocking → Interlocking) : (d.modIl f).shelf = d.shelf := rfl
@[simp] theorem Dev.modIl_tt (d : Dev) (f : Interlocking → Interlocking) : (d.modIl f).tt = d.tt := rfl
@[simp] theorem Dev.modIl_pmbus (d : Dev) (f : Interlocking → Interlocking) : (d.modIl f).pmbus = d.pmbus := rfl
@[simp] theorem Dev.modIl_avs (d : Dev) (f : Interlocking → Interlocking) : (d.modIl f).avs = d.avs := rfl
@[simp] theorem Dev.modIl_tap (d : Dev) (f : Interlocking → Interlocking) : (d.modIl f).tap = d.tap := rfl
@[simp] theorem Dev.modIl_startCount (d : Dev) (f : Interlocking → Interlocking) : (d.modIl f).startCount = d.startCount := rfl
@[simp] theorem Dev.modIl_due (d : Dev) (f : Interlocking → Interlocking) : (d.modIl f).due = d.due := rfl
@[simp] theorem Dev.modIl_out (d : Dev) (f : Interlocking → Interlocking) : (d.modIl f).out = d.out := rfl
@[simp] theorem Dev.modIl_fresh (d : Dev) (f : Interlocking → Interlocking) : (d.modIl f).fresh = d.fresh := rfl

/-! ### Dev.modSp -/

@[simp] theorem Dev.modSp_core (d : Dev) (f : SafetyPort → SafetyPort) : (d.modSp f).core = d.core := rfl
@[simp] theorem Dev.modSp_ka (d : Dev) (f : SafetyPort → SafetyPort) : (d.modSp f).ka = d.ka := rfl
@[simp] theorem Dev.modSp_cfg (d : Dev) (f : SafetyPort → SafetyPort) : (d.modSp f).cfg = d.cfg := rfl
@[simp] theorem Dev.modSp_book (d : Dev) (f : SafetyPort → SafetyPort) : (d.modSp f).book = d.book := rfl
@[simp] theorem Dev.modSp_hqi (d : Dev) (f : SafetyPort → SafetyPort) : (d.modSp f).hqi = d.hqi := rfl
@[simp] theorem Dev.modSp_ledger (d : Dev) (f : SafetyPort → SafetyPort) : (d.modSp f).ledger = d.ledger := rfl
@[simp] theorem Dev.modSp_sp (d : Dev) (f : SafetyPort → SafetyPort) : (d.modSp f).sp = f d.sp := rfl
@[simp] theorem Dev.modSp_office (d : Dev) (f : SafetyPort → SafetyPort) : (d.modSp f).office = d.office := rfl
@[simp] theorem Dev.modSp_il (d : Dev) (f : SafetyPort → SafetyPort) : (d.modSp f).il = d.il := rfl
@[simp] theorem Dev.modSp_tr (d : Dev) (f : SafetyPort → SafetyPort) : (d.modSp f).tr = d.tr := rfl
@[simp] theorem Dev.modSp_sars (d : Dev) (f : SafetyPort → SafetyPort) : (d.modSp f).sars = d.sars := rfl
@[simp] theorem Dev.modSp_ccs (d : Dev) (f : SafetyPort → SafetyPort) : (d.modSp f).ccs = d.ccs := rfl
@[simp] theorem Dev.modSp_house (d : Dev) (f : SafetyPort → SafetyPort) : (d.modSp f).house = d.house := rfl
@[simp] theorem Dev.modSp_cps (d : Dev) (f : SafetyPort → SafetyPort) : (d.modSp f).cps = d.cps := rfl
@[simp] theorem Dev.modSp_drv (d : Dev) (f : SafetyPort → SafetyPort) : (d.modSp f).drv = d.drv := rfl
@[simp] theorem Dev.modSp_trip (d : Dev) (f : SafetyPort → SafetyPort) : (d.modSp f).trip = d.trip := rfl
@[simp] theorem Dev.modSp_fuse (d : Dev) (f : SafetyPort → SafetyPort) : (d.modSp f).fuse = d.fuse := rfl
@[simp] theorem Dev.modSp_bge (d : Dev) (f : SafetyPort → SafetyPort) : (d.modSp f).bge = d.bge := rfl
@[simp] theorem Dev.modSp_groups (d : Dev) (f : SafetyPort → SafetyPort) : (d.modSp f).groups = d.groups := rfl
@[simp] theorem Dev.modSp_legs (d : Dev) (f : SafetyPort → SafetyPort) : (d.modSp f).legs = d.legs := rfl
@[simp] theorem Dev.modSp_sup (d : Dev) (f : SafetyPort → SafetyPort) : (d.modSp f).sup = d.sup := rfl
@[simp] theorem Dev.modSp_feeds (d : Dev) (f : SafetyPort → SafetyPort) : (d.modSp f).feeds = d.feeds := rfl
@[simp] theorem Dev.modSp_branches (d : Dev) (f : SafetyPort → SafetyPort) : (d.modSp f).branches = d.branches := rfl
@[simp] theorem Dev.modSp_banks (d : Dev) (f : SafetyPort → SafetyPort) : (d.modSp f).banks = d.banks := rfl
@[simp] theorem Dev.modSp_strings (d : Dev) (f : SafetyPort → SafetyPort) : (d.modSp f).strings = d.strings := rfl
@[simp] theorem Dev.modSp_shelf (d : Dev) (f : SafetyPort → SafetyPort) : (d.modSp f).shelf = d.shelf := rfl
@[simp] theorem Dev.modSp_tt (d : Dev) (f : SafetyPort → SafetyPort) : (d.modSp f).tt = d.tt := rfl
@[simp] theorem Dev.modSp_pmbus (d : Dev) (f : SafetyPort → SafetyPort) : (d.modSp f).pmbus = d.pmbus := rfl
@[simp] theorem Dev.modSp_avs (d : Dev) (f : SafetyPort → SafetyPort) : (d.modSp f).avs = d.avs := rfl
@[simp] theorem Dev.modSp_tap (d : Dev) (f : SafetyPort → SafetyPort) : (d.modSp f).tap = d.tap := rfl
@[simp] theorem Dev.modSp_startCount (d : Dev) (f : SafetyPort → SafetyPort) : (d.modSp f).startCount = d.startCount := rfl
@[simp] theorem Dev.modSp_due (d : Dev) (f : SafetyPort → SafetyPort) : (d.modSp f).due = d.due := rfl
@[simp] theorem Dev.modSp_out (d : Dev) (f : SafetyPort → SafetyPort) : (d.modSp f).out = d.out := rfl
@[simp] theorem Dev.modSp_fresh (d : Dev) (f : SafetyPort → SafetyPort) : (d.modSp f).fresh = d.fresh := rfl

/-! ### Dev.modBook -/

@[simp] theorem Dev.modBook_core (d : Dev) (f : RuleBook → RuleBook) : (d.modBook f).core = d.core := rfl
@[simp] theorem Dev.modBook_ka (d : Dev) (f : RuleBook → RuleBook) : (d.modBook f).ka = d.ka := rfl
@[simp] theorem Dev.modBook_cfg (d : Dev) (f : RuleBook → RuleBook) : (d.modBook f).cfg = d.cfg := rfl
@[simp] theorem Dev.modBook_book (d : Dev) (f : RuleBook → RuleBook) : (d.modBook f).book = f d.book := rfl
@[simp] theorem Dev.modBook_hqi (d : Dev) (f : RuleBook → RuleBook) : (d.modBook f).hqi = d.hqi := rfl
@[simp] theorem Dev.modBook_ledger (d : Dev) (f : RuleBook → RuleBook) : (d.modBook f).ledger = d.ledger := rfl
@[simp] theorem Dev.modBook_sp (d : Dev) (f : RuleBook → RuleBook) : (d.modBook f).sp = d.sp := rfl
@[simp] theorem Dev.modBook_office (d : Dev) (f : RuleBook → RuleBook) : (d.modBook f).office = d.office := rfl
@[simp] theorem Dev.modBook_il (d : Dev) (f : RuleBook → RuleBook) : (d.modBook f).il = d.il := rfl
@[simp] theorem Dev.modBook_tr (d : Dev) (f : RuleBook → RuleBook) : (d.modBook f).tr = d.tr := rfl
@[simp] theorem Dev.modBook_sars (d : Dev) (f : RuleBook → RuleBook) : (d.modBook f).sars = d.sars := rfl
@[simp] theorem Dev.modBook_ccs (d : Dev) (f : RuleBook → RuleBook) : (d.modBook f).ccs = d.ccs := rfl
@[simp] theorem Dev.modBook_house (d : Dev) (f : RuleBook → RuleBook) : (d.modBook f).house = d.house := rfl
@[simp] theorem Dev.modBook_cps (d : Dev) (f : RuleBook → RuleBook) : (d.modBook f).cps = d.cps := rfl
@[simp] theorem Dev.modBook_drv (d : Dev) (f : RuleBook → RuleBook) : (d.modBook f).drv = d.drv := rfl
@[simp] theorem Dev.modBook_trip (d : Dev) (f : RuleBook → RuleBook) : (d.modBook f).trip = d.trip := rfl
@[simp] theorem Dev.modBook_fuse (d : Dev) (f : RuleBook → RuleBook) : (d.modBook f).fuse = d.fuse := rfl
@[simp] theorem Dev.modBook_bge (d : Dev) (f : RuleBook → RuleBook) : (d.modBook f).bge = d.bge := rfl
@[simp] theorem Dev.modBook_groups (d : Dev) (f : RuleBook → RuleBook) : (d.modBook f).groups = d.groups := rfl
@[simp] theorem Dev.modBook_legs (d : Dev) (f : RuleBook → RuleBook) : (d.modBook f).legs = d.legs := rfl
@[simp] theorem Dev.modBook_sup (d : Dev) (f : RuleBook → RuleBook) : (d.modBook f).sup = d.sup := rfl
@[simp] theorem Dev.modBook_feeds (d : Dev) (f : RuleBook → RuleBook) : (d.modBook f).feeds = d.feeds := rfl
@[simp] theorem Dev.modBook_branches (d : Dev) (f : RuleBook → RuleBook) : (d.modBook f).branches = d.branches := rfl
@[simp] theorem Dev.modBook_banks (d : Dev) (f : RuleBook → RuleBook) : (d.modBook f).banks = d.banks := rfl
@[simp] theorem Dev.modBook_strings (d : Dev) (f : RuleBook → RuleBook) : (d.modBook f).strings = d.strings := rfl
@[simp] theorem Dev.modBook_shelf (d : Dev) (f : RuleBook → RuleBook) : (d.modBook f).shelf = d.shelf := rfl
@[simp] theorem Dev.modBook_tt (d : Dev) (f : RuleBook → RuleBook) : (d.modBook f).tt = d.tt := rfl
@[simp] theorem Dev.modBook_pmbus (d : Dev) (f : RuleBook → RuleBook) : (d.modBook f).pmbus = d.pmbus := rfl
@[simp] theorem Dev.modBook_avs (d : Dev) (f : RuleBook → RuleBook) : (d.modBook f).avs = d.avs := rfl
@[simp] theorem Dev.modBook_tap (d : Dev) (f : RuleBook → RuleBook) : (d.modBook f).tap = d.tap := rfl
@[simp] theorem Dev.modBook_startCount (d : Dev) (f : RuleBook → RuleBook) : (d.modBook f).startCount = d.startCount := rfl
@[simp] theorem Dev.modBook_due (d : Dev) (f : RuleBook → RuleBook) : (d.modBook f).due = d.due := rfl
@[simp] theorem Dev.modBook_out (d : Dev) (f : RuleBook → RuleBook) : (d.modBook f).out = d.out := rfl
@[simp] theorem Dev.modBook_fresh (d : Dev) (f : RuleBook → RuleBook) : (d.modBook f).fresh = d.fresh := rfl

/-! ### Dev.modLine -/

@[simp] theorem Dev.modLine_core (d : Dev) (i : Nat) (f : DelayPair → DelayPair) : (d.modLine i f).core = d.core := rfl
@[simp] theorem Dev.modLine_ka (d : Dev) (i : Nat) (f : DelayPair → DelayPair) : (d.modLine i f).ka = d.ka := rfl
@[simp] theorem Dev.modLine_cfg (d : Dev) (i : Nat) (f : DelayPair → DelayPair) : (d.modLine i f).cfg = d.cfg := rfl
@[simp] theorem Dev.modLine_book (d : Dev) (i : Nat) (f : DelayPair → DelayPair) : (d.modLine i f).book = d.book := rfl
@[simp] theorem Dev.modLine_hqi (d : Dev) (i : Nat) (f : DelayPair → DelayPair) : (d.modLine i f).hqi = d.hqi := rfl
@[simp] theorem Dev.modLine_ledger (d : Dev) (i : Nat) (f : DelayPair → DelayPair) : (d.modLine i f).ledger = d.ledger := rfl
@[simp] theorem Dev.modLine_sp (d : Dev) (i : Nat) (f : DelayPair → DelayPair) : (d.modLine i f).sp = d.sp := rfl
@[simp] theorem Dev.modLine_office (d : Dev) (i : Nat) (f : DelayPair → DelayPair) : (d.modLine i f).office = d.office := rfl
@[simp] theorem Dev.modLine_il (d : Dev) (i : Nat) (f : DelayPair → DelayPair) : (d.modLine i f).il = d.il := rfl
@[simp] theorem Dev.modLine_tr (d : Dev) (i : Nat) (f : DelayPair → DelayPair) : (d.modLine i f).tr = d.tr := rfl
@[simp] theorem Dev.modLine_sars (d : Dev) (i : Nat) (f : DelayPair → DelayPair) : (d.modLine i f).sars = d.sars := rfl
@[simp] theorem Dev.modLine_ccs (d : Dev) (i : Nat) (f : DelayPair → DelayPair) : (d.modLine i f).ccs = d.ccs := rfl
@[simp] theorem Dev.modLine_house (d : Dev) (i : Nat) (f : DelayPair → DelayPair) : (d.modLine i f).house = d.house := rfl
@[simp] theorem Dev.modLine_cps (d : Dev) (i : Nat) (f : DelayPair → DelayPair) : (d.modLine i f).cps = d.cps := rfl
@[simp] theorem Dev.modLine_drv (d : Dev) (i : Nat) (f : DelayPair → DelayPair) : (d.modLine i f).drv = d.drv := rfl
@[simp] theorem Dev.modLine_trip (d : Dev) (i : Nat) (f : DelayPair → DelayPair) : (d.modLine i f).trip = d.trip := rfl
@[simp] theorem Dev.modLine_fuse (d : Dev) (i : Nat) (f : DelayPair → DelayPair) : (d.modLine i f).fuse = d.fuse := rfl
@[simp] theorem Dev.modLine_bge (d : Dev) (i : Nat) (f : DelayPair → DelayPair) : (d.modLine i f).bge = { d.bge with lines := fileMod d.bge.lines i f } := rfl
@[simp] theorem Dev.modLine_groups (d : Dev) (i : Nat) (f : DelayPair → DelayPair) : (d.modLine i f).groups = d.groups := rfl
@[simp] theorem Dev.modLine_legs (d : Dev) (i : Nat) (f : DelayPair → DelayPair) : (d.modLine i f).legs = d.legs := rfl
@[simp] theorem Dev.modLine_sup (d : Dev) (i : Nat) (f : DelayPair → DelayPair) : (d.modLine i f).sup = d.sup := rfl
@[simp] theorem Dev.modLine_feeds (d : Dev) (i : Nat) (f : DelayPair → DelayPair) : (d.modLine i f).feeds = d.feeds := rfl
@[simp] theorem Dev.modLine_branches (d : Dev) (i : Nat) (f : DelayPair → DelayPair) : (d.modLine i f).branches = d.branches := rfl
@[simp] theorem Dev.modLine_banks (d : Dev) (i : Nat) (f : DelayPair → DelayPair) : (d.modLine i f).banks = d.banks := rfl
@[simp] theorem Dev.modLine_strings (d : Dev) (i : Nat) (f : DelayPair → DelayPair) : (d.modLine i f).strings = d.strings := rfl
@[simp] theorem Dev.modLine_shelf (d : Dev) (i : Nat) (f : DelayPair → DelayPair) : (d.modLine i f).shelf = d.shelf := rfl
@[simp] theorem Dev.modLine_tt (d : Dev) (i : Nat) (f : DelayPair → DelayPair) : (d.modLine i f).tt = d.tt := rfl
@[simp] theorem Dev.modLine_pmbus (d : Dev) (i : Nat) (f : DelayPair → DelayPair) : (d.modLine i f).pmbus = d.pmbus := rfl
@[simp] theorem Dev.modLine_avs (d : Dev) (i : Nat) (f : DelayPair → DelayPair) : (d.modLine i f).avs = d.avs := rfl
@[simp] theorem Dev.modLine_tap (d : Dev) (i : Nat) (f : DelayPair → DelayPair) : (d.modLine i f).tap = d.tap := rfl
@[simp] theorem Dev.modLine_startCount (d : Dev) (i : Nat) (f : DelayPair → DelayPair) : (d.modLine i f).startCount = d.startCount := rfl
@[simp] theorem Dev.modLine_due (d : Dev) (i : Nat) (f : DelayPair → DelayPair) : (d.modLine i f).due = d.due := rfl
@[simp] theorem Dev.modLine_out (d : Dev) (i : Nat) (f : DelayPair → DelayPair) : (d.modLine i f).out = d.out := rfl
@[simp] theorem Dev.modLine_fresh (d : Dev) (i : Nat) (f : DelayPair → DelayPair) : (d.modLine i f).fresh = d.fresh := rfl

/-! ### Dev.setLeaving -/

@[simp] theorem Dev.setLeaving_core (d : Dev) (x : Option Departing) : (d.setLeaving x).core = d.core := rfl
@[simp] theorem Dev.setLeaving_ka (d : Dev) (x : Option Departing) : (d.setLeaving x).ka = d.ka := rfl
@[simp] theorem Dev.setLeaving_cfg (d : Dev) (x : Option Departing) : (d.setLeaving x).cfg = d.cfg := rfl
@[simp] theorem Dev.setLeaving_book (d : Dev) (x : Option Departing) : (d.setLeaving x).book = d.book := rfl
@[simp] theorem Dev.setLeaving_hqi (d : Dev) (x : Option Departing) : (d.setLeaving x).hqi = d.hqi := rfl
@[simp] theorem Dev.setLeaving_ledger (d : Dev) (x : Option Departing) : (d.setLeaving x).ledger = d.ledger := rfl
@[simp] theorem Dev.setLeaving_sp (d : Dev) (x : Option Departing) : (d.setLeaving x).sp = d.sp := rfl
@[simp] theorem Dev.setLeaving_office (d : Dev) (x : Option Departing) : (d.setLeaving x).office = d.office := rfl
@[simp] theorem Dev.setLeaving_il (d : Dev) (x : Option Departing) : (d.setLeaving x).il = d.il := rfl
@[simp] theorem Dev.setLeaving_tr (d : Dev) (x : Option Departing) : (d.setLeaving x).tr = d.tr := rfl
@[simp] theorem Dev.setLeaving_sars (d : Dev) (x : Option Departing) : (d.setLeaving x).sars = d.sars := rfl
@[simp] theorem Dev.setLeaving_ccs (d : Dev) (x : Option Departing) : (d.setLeaving x).ccs = d.ccs := rfl
@[simp] theorem Dev.setLeaving_house (d : Dev) (x : Option Departing) : (d.setLeaving x).house = d.house := rfl
@[simp] theorem Dev.setLeaving_cps (d : Dev) (x : Option Departing) : (d.setLeaving x).cps = d.cps := rfl
@[simp] theorem Dev.setLeaving_drv (d : Dev) (x : Option Departing) : (d.setLeaving x).drv = d.drv := rfl
@[simp] theorem Dev.setLeaving_trip (d : Dev) (x : Option Departing) : (d.setLeaving x).trip = d.trip := rfl
@[simp] theorem Dev.setLeaving_fuse (d : Dev) (x : Option Departing) : (d.setLeaving x).fuse = d.fuse := rfl
@[simp] theorem Dev.setLeaving_bge (d : Dev) (x : Option Departing) : (d.setLeaving x).bge = d.bge := rfl
@[simp] theorem Dev.setLeaving_groups (d : Dev) (x : Option Departing) : (d.setLeaving x).groups = d.groups := rfl
@[simp] theorem Dev.setLeaving_legs (d : Dev) (x : Option Departing) : (d.setLeaving x).legs = d.legs := rfl
@[simp] theorem Dev.setLeaving_sup (d : Dev) (x : Option Departing) : (d.setLeaving x).sup = d.sup := rfl
@[simp] theorem Dev.setLeaving_feeds (d : Dev) (x : Option Departing) : (d.setLeaving x).feeds = d.feeds := rfl
@[simp] theorem Dev.setLeaving_branches (d : Dev) (x : Option Departing) : (d.setLeaving x).branches = d.branches := rfl
@[simp] theorem Dev.setLeaving_banks (d : Dev) (x : Option Departing) : (d.setLeaving x).banks = d.banks := rfl
@[simp] theorem Dev.setLeaving_strings (d : Dev) (x : Option Departing) : (d.setLeaving x).strings = d.strings := rfl
@[simp] theorem Dev.setLeaving_shelf (d : Dev) (x : Option Departing) : (d.setLeaving x).shelf = { d.shelf with leaving := x } := rfl
@[simp] theorem Dev.setLeaving_tt (d : Dev) (x : Option Departing) : (d.setLeaving x).tt = d.tt := rfl
@[simp] theorem Dev.setLeaving_pmbus (d : Dev) (x : Option Departing) : (d.setLeaving x).pmbus = d.pmbus := rfl
@[simp] theorem Dev.setLeaving_avs (d : Dev) (x : Option Departing) : (d.setLeaving x).avs = d.avs := rfl
@[simp] theorem Dev.setLeaving_tap (d : Dev) (x : Option Departing) : (d.setLeaving x).tap = d.tap := rfl
@[simp] theorem Dev.setLeaving_startCount (d : Dev) (x : Option Departing) : (d.setLeaving x).startCount = d.startCount := rfl
@[simp] theorem Dev.setLeaving_due (d : Dev) (x : Option Departing) : (d.setLeaving x).due = d.due := rfl
@[simp] theorem Dev.setLeaving_out (d : Dev) (x : Option Departing) : (d.setLeaving x).out = d.out := rfl
@[simp] theorem Dev.setLeaving_fresh (d : Dev) (x : Option Departing) : (d.setLeaving x).fresh = d.fresh := rfl

/-! ### Dev.setResuming -/

@[simp] theorem Dev.setResuming_core (d : Dev) (x : Option Resuming) : (d.setResuming x).core = d.core := rfl
@[simp] theorem Dev.setResuming_ka (d : Dev) (x : Option Resuming) : (d.setResuming x).ka = d.ka := rfl
@[simp] theorem Dev.setResuming_cfg (d : Dev) (x : Option Resuming) : (d.setResuming x).cfg = d.cfg := rfl
@[simp] theorem Dev.setResuming_book (d : Dev) (x : Option Resuming) : (d.setResuming x).book = d.book := rfl
@[simp] theorem Dev.setResuming_hqi (d : Dev) (x : Option Resuming) : (d.setResuming x).hqi = d.hqi := rfl
@[simp] theorem Dev.setResuming_ledger (d : Dev) (x : Option Resuming) : (d.setResuming x).ledger = d.ledger := rfl
@[simp] theorem Dev.setResuming_sp (d : Dev) (x : Option Resuming) : (d.setResuming x).sp = d.sp := rfl
@[simp] theorem Dev.setResuming_office (d : Dev) (x : Option Resuming) : (d.setResuming x).office = d.office := rfl
@[simp] theorem Dev.setResuming_il (d : Dev) (x : Option Resuming) : (d.setResuming x).il = d.il := rfl
@[simp] theorem Dev.setResuming_tr (d : Dev) (x : Option Resuming) : (d.setResuming x).tr = d.tr := rfl
@[simp] theorem Dev.setResuming_sars (d : Dev) (x : Option Resuming) : (d.setResuming x).sars = d.sars := rfl
@[simp] theorem Dev.setResuming_ccs (d : Dev) (x : Option Resuming) : (d.setResuming x).ccs = d.ccs := rfl
@[simp] theorem Dev.setResuming_house (d : Dev) (x : Option Resuming) : (d.setResuming x).house = d.house := rfl
@[simp] theorem Dev.setResuming_cps (d : Dev) (x : Option Resuming) : (d.setResuming x).cps = d.cps := rfl
@[simp] theorem Dev.setResuming_drv (d : Dev) (x : Option Resuming) : (d.setResuming x).drv = d.drv := rfl
@[simp] theorem Dev.setResuming_trip (d : Dev) (x : Option Resuming) : (d.setResuming x).trip = d.trip := rfl
@[simp] theorem Dev.setResuming_fuse (d : Dev) (x : Option Resuming) : (d.setResuming x).fuse = d.fuse := rfl
@[simp] theorem Dev.setResuming_bge (d : Dev) (x : Option Resuming) : (d.setResuming x).bge = d.bge := rfl
@[simp] theorem Dev.setResuming_groups (d : Dev) (x : Option Resuming) : (d.setResuming x).groups = d.groups := rfl
@[simp] theorem Dev.setResuming_legs (d : Dev) (x : Option Resuming) : (d.setResuming x).legs = d.legs := rfl
@[simp] theorem Dev.setResuming_sup (d : Dev) (x : Option Resuming) : (d.setResuming x).sup = { d.sup with resuming := x } := rfl
@[simp] theorem Dev.setResuming_feeds (d : Dev) (x : Option Resuming) : (d.setResuming x).feeds = d.feeds := rfl
@[simp] theorem Dev.setResuming_branches (d : Dev) (x : Option Resuming) : (d.setResuming x).branches = d.branches := rfl
@[simp] theorem Dev.setResuming_banks (d : Dev) (x : Option Resuming) : (d.setResuming x).banks = d.banks := rfl
@[simp] theorem Dev.setResuming_strings (d : Dev) (x : Option Resuming) : (d.setResuming x).strings = d.strings := rfl
@[simp] theorem Dev.setResuming_shelf (d : Dev) (x : Option Resuming) : (d.setResuming x).shelf = d.shelf := rfl
@[simp] theorem Dev.setResuming_tt (d : Dev) (x : Option Resuming) : (d.setResuming x).tt = d.tt := rfl
@[simp] theorem Dev.setResuming_pmbus (d : Dev) (x : Option Resuming) : (d.setResuming x).pmbus = d.pmbus := rfl
@[simp] theorem Dev.setResuming_avs (d : Dev) (x : Option Resuming) : (d.setResuming x).avs = d.avs := rfl
@[simp] theorem Dev.setResuming_tap (d : Dev) (x : Option Resuming) : (d.setResuming x).tap = d.tap := rfl
@[simp] theorem Dev.setResuming_startCount (d : Dev) (x : Option Resuming) : (d.setResuming x).startCount = d.startCount := rfl
@[simp] theorem Dev.setResuming_due (d : Dev) (x : Option Resuming) : (d.setResuming x).due = d.due := rfl
@[simp] theorem Dev.setResuming_out (d : Dev) (x : Option Resuming) : (d.setResuming x).out = d.out := rfl
@[simp] theorem Dev.setResuming_fresh (d : Dev) (x : Option Resuming) : (d.setResuming x).fresh = d.fresh := rfl

end Sys2Proof.Machine
end

