-- ==== Sys2Proof/Laws/Settle.lean ====
section
/-! SUPPORT. What settling leaves: in a quiet device nothing but the latches of driven columns. -/
namespace Sys2Proof.Machine

/-- Owed work is done only where some is owed. -/
@[simp] theorem Dev.drain_nil (n : Nat) (d : Dev) (h : d.due = []) : d.drain n = d := by
  cases n with
  | zero => rfl
  | succ n => simp only [Dev.drain, h]

/-- The watches change nothing in a quiet device. -/
theorem Dev.watches_quiet (d : Dev) (h : d.quiet) : d.watches = d := by
  obtain ⟨_, hs, hf, hl, hq, hr, hw⟩ := h
  have e1 : d.holdStopped = d := by simp [Dev.holdStopped, hs]
  have e2 : d.progTemperature = d := by simp [Dev.progTemperature, hf]
  have e3 : d.departStep = d := by simp [Dev.departStep, hl]
  have e4 : d.ttTryQueued = d := by simp [Dev.ttTryQueued, hq]
  have e5 : d.slwUpkeep = d := by simp [Dev.slwUpkeep, hr, hw]
  simp [Dev.watches, e1, e2, e3, e4, e5]

/-- With the core stopped no watch acts. -/
theorem Dev.watches_stopped (d : Dev) (h : d.coreRuns = false) : d.watches = d := by simp [Dev.watches, h]

/-- A quiet device settles into itself, its driven columns latched. -/
theorem Dev.settle_quiet (d : Dev) (h : d.quiet) : d.settle = d.latchStep := by
  have hd := h.1
  simp [Dev.settle, Dev.drain_nil _ _ hd, Dev.watches_quiet d h]

/-- A device that owes nothing and whose core is stopped settles into itself, its driven columns latched. -/
theorem Dev.settle_stopped (d : Dev) (hd : d.due = []) (h : d.coreRuns = false) : d.settle = d.latchStep := by
  simp [Dev.settle, Dev.drain_nil _ _ hd, Dev.watches_stopped d h]

/-- Latching the driven columns changes nothing where they are latched. -/
theorem Dev.latchStep_held (d : Dev) (h : d.columnsHeld) : d.latchStep = d := by
  unfold Dev.columnsHeld at h
  unfold Dev.latchStep
  rw [h]

/-- A still device settles into itself. -/
theorem Dev.settle_still (d : Dev) (h : d.still) : d.settle = d := by
  rw [Dev.settle_quiet d h.1, Dev.latchStep_held d h.2]

/-- A command that leaves the device still leaves just its own effect. -/
theorem run_still (f : Dev → Dev) (s : State) (h : (f { s.dev with out := [] }).still) :
    run f s = .next (s.put (f { s.dev with out := [] })) := by
  simp [run, Dev.effect, Dev.settle_still _ h]

/-- The driven columns depend on the catch points, the gate driver inputs, the trip matrix and the registers alone. -/
theorem Dev.drivenCols_congr (d e : Dev) (hc : e.cps = d.cps) (hd : e.drv = d.drv) (ht : e.trip = d.trip)
    (hr : e.cfg = d.cfg) : e.drivenCols = d.drivenCols := by
  simp [Dev.drivenCols, Dev.rowDrives, Dev.inputAsserted, Dev.rowLatches, Dev.rowCycles, Dev.rowMask,
    Dev.rowConfigured, Dev.rowRemoved, FTA_DF_CFG.en, FTA_DF_CFG.pol, FTA_TM_ROW_HI.cycle, FTA_TM_ROW_LO.col_lo, FTA_TM_ROW_HI.col_hi, Dev.field,
    Dev.reg, hc, hd, ht, hr]

/-- Held columns stay held while those do not change. -/
theorem Dev.columnsHeld_congr (d e : Dev) (hc : e.cps = d.cps) (hd : e.drv = d.drv) (ht : e.trip = d.trip)
    (hr : e.cfg = d.cfg) (h : d.columnsHeld) : e.columnsHeld := by
  unfold Dev.columnsHeld at *
  rw [Dev.drivenCols_congr d e hc hd ht hr, ht]; exact h

/-- A word that holds two masks holds both together, and the other way round. -/
theorem lor_held (l a b : Nat) : Nat.lor l (Nat.lor a b) = l ↔ Nat.lor l a = l ∧ Nat.lor l b = l := by
  have h : ∀ x y : Nat, Nat.lor x y = x ||| y := fun _ _ => rfl
  simp only [h]
  have absorb : ∀ x y i : Nat, (x ||| y) = x → y.testBit i = true → x.testBit i = true := by
    intro x y i e hy
    rw [← e, Nat.testBit_or, hy, Bool.or_true]
  constructor
  · intro e
    have ha : ∀ i, a.testBit i = true → l.testBit i = true :=
      fun i hi => absorb l (a ||| b) i e (by rw [Nat.testBit_or, hi, Bool.true_or])
    have hb : ∀ i, b.testBit i = true → l.testBit i = true :=
      fun i hi => absorb l (a ||| b) i e (by rw [Nat.testBit_or, hi, Bool.or_true])
    have held : ∀ x : Nat, (∀ i, x.testBit i = true → l.testBit i = true) → (l ||| x) = l := by
      intro x hx
      apply Nat.eq_of_testBit_eq
      intro i
      rw [Nat.testBit_or]
      cases h2 : x.testBit i with
      | false => rw [Bool.or_false]
      | true => rw [hx i h2, Bool.true_or]
    exact ⟨held a ha, held b hb⟩
  · rintro ⟨e1, e2⟩
    rw [← Nat.or_assoc, e1, e2]

/-- The driven columns are held exactly where those of every driving row are. -/
theorem Dev.columnsHeld_iff (d : Dev) : d.columnsHeld ↔
    ∀ r ∈ indices 152, d.rowDrives r = true → Nat.lor d.trip.latches (d.rowLatches r) = d.trip.latches := by
  have key : ∀ (rs : List Nat) (acc : Nat),
      Nat.lor d.trip.latches (rs.foldl (fun acc r => if d.rowDrives r then Nat.lor acc (d.rowLatches r) else acc) acc)
        = d.trip.latches ↔
      Nat.lor d.trip.latches acc = d.trip.latches ∧
        ∀ r ∈ rs, d.rowDrives r = true → Nat.lor d.trip.latches (d.rowLatches r) = d.trip.latches := by
    intro rs
    induction rs with
    | nil => intro acc; simp
    | cons r rs ih =>
      intro acc
      rw [List.foldl_cons, ih]
      cases hr : d.rowDrives r with
      | false => simp [hr]
      | true =>
        rw [if_pos rfl, lor_held]
        constructor
        · rintro ⟨⟨h1, h2⟩, h3⟩
          refine ⟨h1, ?_⟩
          intro x hx
          rcases List.mem_cons.mp hx with h | h
          · subst h; exact fun _ => h2
          · exact h3 x h
        · rintro ⟨h1, h2⟩
          exact ⟨⟨h1, h2 r (List.mem_cons_self ..) hr⟩, fun x hx => h2 x (List.mem_cons_of_mem _ hx)⟩
  unfold Dev.columnsHeld Dev.drivenCols
  rw [key]
  exact ⟨fun h => h.2, fun h => ⟨Nat.or_zero _, h⟩⟩

/-- Where no further row drives and none names more columns, held columns stay held. -/
theorem Dev.columnsHeld_mono (d e : Dev) (hd : ∀ r, e.rowDrives r = true → d.rowDrives r = true)
    (hm : ∀ r, e.rowLatches r = d.rowLatches r) (hl : e.trip.latches = d.trip.latches) (h : d.columnsHeld) :
    e.columnsHeld := by
  rw [Dev.columnsHeld_iff] at *
  intro r hr hx
  rw [hm, hl]; exact h r hr (hd r hx)

/-- A change that leaves alone what the watches and the latches look at leaves a still device still. -/
theorem Dev.still_congr (d e : Dev) (h : d.still) (h1 : e.due = d.due) (h2 : e.il.stopAll = d.il.stopAll)
    (h3 : e.fuse.run = d.fuse.run) (h4 : e.shelf.leaving = d.shelf.leaving) (h5 : e.tt.queued = d.tt.queued)
    (h6 : e.sup.resuming = d.sup.resuming) (h7 : e.il.slw = d.il.slw) (hc : e.cps = d.cps) (hd : e.drv = d.drv)
    (ht : e.trip = d.trip) (hr : e.cfg = d.cfg) : e.still := by
  obtain ⟨⟨a1, a2, a3, a4, a5, a6, a7⟩, b⟩ := h
  exact ⟨⟨h1.trans a1, h2.trans a2, h3.trans a3, h4.trans a4, h5.trans a5, h6.trans a6, h7.trans a7⟩,
    Dev.columnsHeld_congr d e hc hd ht hr b⟩

/-- A still device stays still when what it sent is forgotten. -/
theorem Dev.still_silent (d : Dev) (h : d.still) : d.silent.still :=
  Dev.still_congr d d.silent h rfl rfl rfl rfl rfl rfl rfl rfl rfl rfl rfl

/-- A command whose effect is `e`, a still device, leaves the state with that device. -/
theorem run_is (f : Dev → Dev) (s : State) (e : Dev) (h : f s.dev.silent = e) (hs : e.still) :
    run f s = .next (s.put e) := by
  subst h
  exact run_still f s hs

/-- A still device stays still while the watches see nothing new and its columns stay held. -/
theorem Dev.still_held (d e : Dev) (h : d.still) (h1 : e.due = d.due) (h2 : e.il.stopAll = d.il.stopAll)
    (h3 : e.fuse.run = d.fuse.run) (h4 : e.shelf.leaving = d.shelf.leaving) (h5 : e.tt.queued = d.tt.queued)
    (h6 : e.sup.resuming = d.sup.resuming) (h7 : e.il.slw = d.il.slw) (hc : e.columnsHeld) : e.still := by
  obtain ⟨⟨a1, a2, a3, a4, a5, a6, a7⟩, b⟩ := h
  exact ⟨⟨h1.trans a1, h2.trans a2, h3.trans a3, h4.trans a4, h5.trans a5, h6.trans a6, h7.trans a7⟩, hc⟩

/-- Latching is combinational: doing it twice is doing it once, so what has settled has its driven columns latched. -/
theorem Dev.latchStep_columnsHeld (d : Dev) : d.latchStep.columnsHeld := by
  have hk : d.latchStep.drivenCols = d.drivenCols := by
    simp [Dev.drivenCols, Dev.rowDrives, Dev.inputAsserted, Dev.rowLatches, Dev.rowCycles, Dev.rowMask,
      Dev.rowConfigured, Dev.rowRemoved, FTA_DF_CFG.en, FTA_DF_CFG.pol, FTA_TM_ROW_HI.cycle, FTA_TM_ROW_LO.col_lo,
      FTA_TM_ROW_HI.col_hi, Dev.field, Dev.reg]
  unfold Dev.columnsHeld
  rw [hk]
  show Nat.lor (Nat.lor d.trip.latches d.drivenCols) d.drivenCols = Nat.lor d.trip.latches d.drivenCols
  exact (Nat.or_assoc _ _ _).trans (congrArg _ (Nat.or_self _))

/-- The settled device holds every driven column. -/
theorem Dev.settle_columnsHeld (d : Dev) : d.settle.columnsHeld := Dev.latchStep_columnsHeld _

end Sys2Proof.Machine
end

