-- ==== Sys2Proof/Laws/Events.lean ====
section
/-! SUPPORT. What records, events, messages, ring entries and completions leave alone: everything but the Train Register,
the Host Queue Interface, the ledger, what is sent outward and what is owed. -/
namespace Sys2Proof.Machine

/-! ### Dev.modVec -/

@[simp] theorem Dev.modVec_core (d : Dev) (v : Nat) (f : MsixVec → MsixVec) : (d.modVec v f).core = d.core := rfl
@[simp] theorem Dev.modVec_ka (d : Dev) (v : Nat) (f : MsixVec → MsixVec) : (d.modVec v f).ka = d.ka := rfl
@[simp] theorem Dev.modVec_cfg (d : Dev) (v : Nat) (f : MsixVec → MsixVec) : (d.modVec v f).cfg = d.cfg := rfl
@[simp] theorem Dev.modVec_book (d : Dev) (v : Nat) (f : MsixVec → MsixVec) : (d.modVec v f).book = d.book := rfl
@[simp] theorem Dev.modVec_ledger (d : Dev) (v : Nat) (f : MsixVec → MsixVec) : (d.modVec v f).ledger = d.ledger := rfl
@[simp] theorem Dev.modVec_sp (d : Dev) (v : Nat) (f : MsixVec → MsixVec) : (d.modVec v f).sp = d.sp := rfl
@[simp] theorem Dev.modVec_office (d : Dev) (v : Nat) (f : MsixVec → MsixVec) : (d.modVec v f).office = d.office := rfl
@[simp] theorem Dev.modVec_il (d : Dev) (v : Nat) (f : MsixVec → MsixVec) : (d.modVec v f).il = d.il := rfl
@[simp] theorem Dev.modVec_tr (d : Dev) (v : Nat) (f : MsixVec → MsixVec) : (d.modVec v f).tr = d.tr := rfl
@[simp] theorem Dev.modVec_sars (d : Dev) (v : Nat) (f : MsixVec → MsixVec) : (d.modVec v f).sars = d.sars := rfl
@[simp] theorem Dev.modVec_ccs (d : Dev) (v : Nat) (f : MsixVec → MsixVec) : (d.modVec v f).ccs = d.ccs := rfl
@[simp] theorem Dev.modVec_house (d : Dev) (v : Nat) (f : MsixVec → MsixVec) : (d.modVec v f).house = d.house := rfl
@[simp] theorem Dev.modVec_cps (d : Dev) (v : Nat) (f : MsixVec → MsixVec) : (d.modVec v f).cps = d.cps := rfl
@[simp] theorem Dev.modVec_drv (d : Dev) (v : Nat) (f : MsixVec → MsixVec) : (d.modVec v f).drv = d.drv := rfl
@[simp] theorem Dev.modVec_trip (d : Dev) (v : Nat) (f : MsixVec → MsixVec) : (d.modVec v f).trip = d.trip := rfl
@[simp] theorem Dev.modVec_fuse (d : Dev) (v : Nat) (f : MsixVec → MsixVec) : (d.modVec v f).fuse = d.fuse := rfl
@[simp] theorem Dev.modVec_bge (d : Dev) (v : Nat) (f : MsixVec → MsixVec) : (d.modVec v f).bge = d.bge := rfl
@[simp] theorem Dev.modVec_groups (d : Dev) (v : Nat) (f : MsixVec → MsixVec) : (d.modVec v f).groups = d.groups := rfl
@[simp] theorem Dev.modVec_legs (d : Dev) (v : Nat) (f : MsixVec → MsixVec) : (d.modVec v f).legs = d.legs := rfl
@[simp] theorem Dev.modVec_sup (d : Dev) (v : Nat) (f : MsixVec → MsixVec) : (d.modVec v f).sup = d.sup := rfl
@[simp] theorem Dev.modVec_feeds (d : Dev) (v : Nat) (f : MsixVec → MsixVec) : (d.modVec v f).feeds = d.feeds := rfl
@[simp] theorem Dev.modVec_branches (d : Dev) (v : Nat) (f : MsixVec → MsixVec) : (d.modVec v f).branches = d.branches := rfl
@[simp] theorem Dev.modVec_banks (d : Dev) (v : Nat) (f : MsixVec → MsixVec) : (d.modVec v f).banks = d.banks := rfl
@[simp] theorem Dev.modVec_strings (d : Dev) (v : Nat) (f : MsixVec → MsixVec) : (d.modVec v f).strings = d.strings := rfl
@[simp] theorem Dev.modVec_shelf (d : Dev) (v : Nat) (f : MsixVec → MsixVec) : (d.modVec v f).shelf = d.shelf := rfl
@[simp] theorem Dev.modVec_tt (d : Dev) (v : Nat) (f : MsixVec → MsixVec) : (d.modVec v f).tt = d.tt := rfl
@[simp] theorem Dev.modVec_pmbus (d : Dev) (v : Nat) (f : MsixVec → MsixVec) : (d.modVec v f).pmbus = d.pmbus := rfl
@[simp] theorem Dev.modVec_avs (d : Dev) (v : Nat) (f : MsixVec → MsixVec) : (d.modVec v f).avs = d.avs := rfl
@[simp] theorem Dev.modVec_tap (d : Dev) (v : Nat) (f : MsixVec → MsixVec) : (d.modVec v f).tap = d.tap := rfl
@[simp] theorem Dev.modVec_startCount (d : Dev) (v : Nat) (f : MsixVec → MsixVec) : (d.modVec v f).startCount = d.startCount := rfl
@[simp] theorem Dev.modVec_due (d : Dev) (v : Nat) (f : MsixVec → MsixVec) : (d.modVec v f).due = d.due := rfl
@[simp] theorem Dev.modVec_fresh (d : Dev) (v : Nat) (f : MsixVec → MsixVec) : (d.modVec v f).fresh = d.fresh := rfl

/-! ### Dev.message -/

@[simp] theorem Dev.message_core (d : Dev) (v : Nat) :
    (d.message v).core = d.core := by
  unfold Dev.message; dsimp only; (repeat' split) <;> rfl
@[simp] theorem Dev.message_ka (d : Dev) (v : Nat) :
    (d.message v).ka = d.ka := by
  unfold Dev.message; dsimp only; (repeat' split) <;> rfl
@[simp] theorem Dev.message_cfg (d : Dev) (v : Nat) :
    (d.message v).cfg = d.cfg := by
  unfold Dev.message; dsimp only; (repeat' split) <;> rfl
@[simp] theorem Dev.message_book (d : Dev) (v : Nat) :
    (d.message v).book = d.book := by
  unfold Dev.message; dsimp only; (repeat' split) <;> rfl
@[simp] theorem Dev.message_ledger (d : Dev) (v : Nat) :
    (d.message v).ledger = d.ledger := by
  unfold Dev.message; dsimp only; (repeat' split) <;> rfl
@[simp] theorem Dev.message_sp (d : Dev) (v : Nat) :
    (d.message v).sp = d.sp := by
  unfold Dev.message; dsimp only; (repeat' split) <;> rfl
@[simp] theorem Dev.message_office (d : Dev) (v : Nat) :
    (d.message v).office = d.office := by
  unfold Dev.message; dsimp only; (repeat' split) <;> rfl
@[simp] theorem Dev.message_il (d : Dev) (v : Nat) :
    (d.message v).il = d.il := by
  unfold Dev.message; dsimp only; (repeat' split) <;> rfl
@[simp] theorem Dev.message_tr (d : Dev) (v : Nat) :
    (d.message v).tr = d.tr := by
  unfold Dev.message; dsimp only; (repeat' split) <;> rfl
@[simp] theorem Dev.message_sars (d : Dev) (v : Nat) :
    (d.message v).sars = d.sars := by
  unfold Dev.message; dsimp only; (repeat' split) <;> rfl
@[simp] theorem Dev.message_ccs (d : Dev) (v : Nat) :
    (d.message v).ccs = d.ccs := by
  unfold Dev.message; dsimp only; (repeat' split) <;> rfl
@[simp] theorem Dev.message_house (d : Dev) (v : Nat) :
    (d.message v).house = d.house := by
  unfold Dev.message; dsimp only; (repeat' split) <;> rfl
@[simp] theorem Dev.message_cps (d : Dev) (v : Nat) :
    (d.message v).cps = d.cps := by
  unfold Dev.message; dsimp only; (repeat' split) <;> rfl
@[simp] theorem Dev.message_drv (d : Dev) (v : Nat) :
    (d.message v).drv = d.drv := by
  unfold Dev.message; dsimp only; (repeat' split) <;> rfl
@[simp] theorem Dev.message_trip (d : Dev) (v : Nat) :
    (d.message v).trip = d.trip := by
  unfold Dev.message; dsimp only; (repeat' split) <;> rfl
@[simp] theorem Dev.message_fuse (d : Dev) (v : Nat) :
    (d.message v).fuse = d.fuse := by
  unfold Dev.message; dsimp only; (repeat' split) <;> rfl
@[simp] theorem Dev.message_bge (d : Dev) (v : Nat) :
    (d.message v).bge = d.bge := by
  unfold Dev.message; dsimp only; (repeat' split) <;> rfl
@[simp] theorem Dev.message_groups (d : Dev) (v : Nat) :
    (d.message v).groups = d.groups := by
  unfold Dev.message; dsimp only; (repeat' split) <;> rfl
@[simp] theorem Dev.message_legs (d : Dev) (v : Nat) :
    (d.message v).legs = d.legs := by
  unfold Dev.message; dsimp only; (repeat' split) <;> rfl
@[simp] theorem Dev.message_sup (d : Dev) (v : Nat) :
    (d.message v).sup = d.sup := by
  unfold Dev.message; dsimp only; (repeat' split) <;> rfl
@[simp] theorem Dev.message_feeds (d : Dev) (v : Nat) :
    (d.message v).feeds = d.feeds := by
  unfold Dev.message; dsimp only; (repeat' split) <;> rfl
@[simp] theorem Dev.message_branches (d : Dev) (v : Nat) :
    (d.message v).branches = d.branches := by
  unfold Dev.message; dsimp only; (repeat' split) <;> rfl
@[simp] theorem Dev.message_banks (d : Dev) (v : Nat) :
    (d.message v).banks = d.banks := by
  unfold Dev.message; dsimp only; (repeat' split) <;> rfl
@[simp] theorem Dev.message_strings (d : Dev) (v : Nat) :
    (d.message v).strings = d.strings := by
  unfold Dev.message; dsimp only; (repeat' split) <;> rfl
@[simp] theorem Dev.message_shelf (d : Dev) (v : Nat) :
    (d.message v).shelf = d.shelf := by
  unfold Dev.message; dsimp only; (repeat' split) <;> rfl
@[simp] theorem Dev.message_tt (d : Dev) (v : Nat) :
    (d.message v).tt = d.tt := by
  unfold Dev.message; dsimp only; (repeat' split) <;> rfl
@[simp] theorem Dev.message_pmbus (d : Dev) (v : Nat) :
    (d.message v).pmbus = d.pmbus := by
  unfold Dev.message; dsimp only; (repeat' split) <;> rfl
@[simp] theorem Dev.message_avs (d : Dev) (v : Nat) :
    (d.message v).avs = d.avs := by
  unfold Dev.message; dsimp only; (repeat' split) <;> rfl
@[simp] theorem Dev.message_tap (d : Dev) (v : Nat) :
    (d.message v).tap = d.tap := by
  unfold Dev.message; dsimp only; (repeat' split) <;> rfl
@[simp] theorem Dev.message_startCount (d : Dev) (v : Nat) :
    (d.message v).startCount = d.startCount := by
  unfold Dev.message; dsimp only; (repeat' split) <;> rfl
@[simp] theorem Dev.message_due (d : Dev) (v : Nat) :
    (d.message v).due = d.due := by
  unfold Dev.message; dsimp only; (repeat' split) <;> rfl
@[simp] theorem Dev.message_fresh (d : Dev) (v : Nat) :
    (d.message v).fresh = d.fresh := by
  unfold Dev.message; dsimp only; (repeat' split) <;> rfl

/-! ### Dev.announce -/

@[simp] theorem Dev.announce_core (d : Dev) (v : Nat) (u : Bool) :
    (d.announce v u).core = d.core := by
  unfold Dev.announce; (repeat' split) <;> simp
@[simp] theorem Dev.announce_ka (d : Dev) (v : Nat) (u : Bool) :
    (d.announce v u).ka = d.ka := by
  unfold Dev.announce; (repeat' split) <;> simp
@[simp] theorem Dev.announce_cfg (d : Dev) (v : Nat) (u : Bool) :
    (d.announce v u).cfg = d.cfg := by
  unfold Dev.announce; (repeat' split) <;> simp
@[simp] theorem Dev.announce_book (d : Dev) (v : Nat) (u : Bool) :
    (d.announce v u).book = d.book := by
  unfold Dev.announce; (repeat' split) <;> simp
@[simp] theorem Dev.announce_ledger (d : Dev) (v : Nat) (u : Bool) :
    (d.announce v u).ledger = d.ledger := by
  unfold Dev.announce; (repeat' split) <;> simp
@[simp] theorem Dev.announce_sp (d : Dev) (v : Nat) (u : Bool) :
    (d.announce v u).sp = d.sp := by
  unfold Dev.announce; (repeat' split) <;> simp
@[simp] theorem Dev.announce_office (d : Dev) (v : Nat) (u : Bool) :
    (d.announce v u).office = d.office := by
  unfold Dev.announce; (repeat' split) <;> simp
@[simp] theorem Dev.announce_il (d : Dev) (v : Nat) (u : Bool) :
    (d.announce v u).il = d.il := by
  unfold Dev.announce; (repeat' split) <;> simp
@[simp] theorem Dev.announce_tr (d : Dev) (v : Nat) (u : Bool) :
    (d.announce v u).tr = d.tr := by
  unfold Dev.announce; (repeat' split) <;> simp
@[simp] theorem Dev.announce_sars (d : Dev) (v : Nat) (u : Bool) :
    (d.announce v u).sars = d.sars := by
  unfold Dev.announce; (repeat' split) <;> simp
@[simp] theorem Dev.announce_ccs (d : Dev) (v : Nat) (u : Bool) :
    (d.announce v u).ccs = d.ccs := by
  unfold Dev.announce; (repeat' split) <;> simp
@[simp] theorem Dev.announce_house (d : Dev) (v : Nat) (u : Bool) :
    (d.announce v u).house = d.house := by
  unfold Dev.announce; (repeat' split) <;> simp
@[simp] theorem Dev.announce_cps (d : Dev) (v : Nat) (u : Bool) :
    (d.announce v u).cps = d.cps := by
  unfold Dev.announce; (repeat' split) <;> simp
@[simp] theorem Dev.announce_drv (d : Dev) (v : Nat) (u : Bool) :
    (d.announce v u).drv = d.drv := by
  unfold Dev.announce; (repeat' split) <;> simp
@[simp] theorem Dev.announce_trip (d : Dev) (v : Nat) (u : Bool) :
    (d.announce v u).trip = d.trip := by
  unfold Dev.announce; (repeat' split) <;> simp
@[simp] theorem Dev.announce_fuse (d : Dev) (v : Nat) (u : Bool) :
    (d.announce v u).fuse = d.fuse := by
  unfold Dev.announce; (repeat' split) <;> simp
@[simp] theorem Dev.announce_bge (d : Dev) (v : Nat) (u : Bool) :
    (d.announce v u).bge = d.bge := by
  unfold Dev.announce; (repeat' split) <;> simp
@[simp] theorem Dev.announce_groups (d : Dev) (v : Nat) (u : Bool) :
    (d.announce v u).groups = d.groups := by
  unfold Dev.announce; (repeat' split) <;> simp
@[simp] theorem Dev.announce_legs (d : Dev) (v : Nat) (u : Bool) :
    (d.announce v u).legs = d.legs := by
  unfold Dev.announce; (repeat' split) <;> simp
@[simp] theorem Dev.announce_sup (d : Dev) (v : Nat) (u : Bool) :
    (d.announce v u).sup = d.sup := by
  unfold Dev.announce; (repeat' split) <;> simp
@[simp] theorem Dev.announce_feeds (d : Dev) (v : Nat) (u : Bool) :
    (d.announce v u).feeds = d.feeds := by
  unfold Dev.announce; (repeat' split) <;> simp
@[simp] theorem Dev.announce_branches (d : Dev) (v : Nat) (u : Bool) :
    (d.announce v u).branches = d.branches := by
  unfold Dev.announce; (repeat' split) <;> simp
@[simp] theorem Dev.announce_banks (d : Dev) (v : Nat) (u : Bool) :
    (d.announce v u).banks = d.banks := by
  unfold Dev.announce; (repeat' split) <;> simp
@[simp] theorem Dev.announce_strings (d : Dev) (v : Nat) (u : Bool) :
    (d.announce v u).strings = d.strings := by
  unfold Dev.announce; (repeat' split) <;> simp
@[simp] theorem Dev.announce_shelf (d : Dev) (v : Nat) (u : Bool) :
    (d.announce v u).shelf = d.shelf := by
  unfold Dev.announce; (repeat' split) <;> simp
@[simp] theorem Dev.announce_tt (d : Dev) (v : Nat) (u : Bool) :
    (d.announce v u).tt = d.tt := by
  unfold Dev.announce; (repeat' split) <;> simp
@[simp] theorem Dev.announce_pmbus (d : Dev) (v : Nat) (u : Bool) :
    (d.announce v u).pmbus = d.pmbus := by
  unfold Dev.announce; (repeat' split) <;> simp
@[simp] theorem Dev.announce_avs (d : Dev) (v : Nat) (u : Bool) :
    (d.announce v u).avs = d.avs := by
  unfold Dev.announce; (repeat' split) <;> simp
@[simp] theorem Dev.announce_tap (d : Dev) (v : Nat) (u : Bool) :
    (d.announce v u).tap = d.tap := by
  unfold Dev.announce; (repeat' split) <;> simp
@[simp] theorem Dev.announce_startCount (d : Dev) (v : Nat) (u : Bool) :
    (d.announce v u).startCount = d.startCount := by
  unfold Dev.announce; (repeat' split) <;> simp
@[simp] theorem Dev.announce_due (d : Dev) (v : Nat) (u : Bool) :
    (d.announce v u).due = d.due := by
  unfold Dev.announce; (repeat' split) <;> simp
@[simp] theorem Dev.announce_fresh (d : Dev) (v : Nat) (u : Bool) :
    (d.announce v u).fresh = d.fresh := by
  unfold Dev.announce; (repeat' split) <;> simp

/-! ### Dev.writeEntry -/

@[simp] theorem Dev.writeEntry_core (d : Dev) (r w : Nat) (b : List Byte) :
    (d.writeEntry r w b).core = d.core := by
  simp [Dev.writeEntry]
@[simp] theorem Dev.writeEntry_ka (d : Dev) (r w : Nat) (b : List Byte) :
    (d.writeEntry r w b).ka = d.ka := by
  simp [Dev.writeEntry]
@[simp] theorem Dev.writeEntry_cfg (d : Dev) (r w : Nat) (b : List Byte) :
    (d.writeEntry r w b).cfg = d.cfg := by
  simp [Dev.writeEntry]
@[simp] theorem Dev.writeEntry_book (d : Dev) (r w : Nat) (b : List Byte) :
    (d.writeEntry r w b).book = d.book := by
  simp [Dev.writeEntry]
@[simp] theorem Dev.writeEntry_ledger (d : Dev) (r w : Nat) (b : List Byte) :
    (d.writeEntry r w b).ledger = d.ledger := by
  simp [Dev.writeEntry]
@[simp] theorem Dev.writeEntry_sp (d : Dev) (r w : Nat) (b : List Byte) :
    (d.writeEntry r w b).sp = d.sp := by
  simp [Dev.writeEntry]
@[simp] theorem Dev.writeEntry_office (d : Dev) (r w : Nat) (b : List Byte) :
    (d.writeEntry r w b).office = d.office := by
  simp [Dev.writeEntry]
@[simp] theorem Dev.writeEntry_il (d : Dev) (r w : Nat) (b : List Byte) :
    (d.writeEntry r w b).il = d.il := by
  simp [Dev.writeEntry]
@[simp] theorem Dev.writeEntry_tr (d : Dev) (r w : Nat) (b : List Byte) :
    (d.writeEntry r w b).tr = d.tr := by
  simp [Dev.writeEntry]
@[simp] theorem Dev.writeEntry_sars (d : Dev) (r w : Nat) (b : List Byte) :
    (d.writeEntry r w b).sars = d.sars := by
  simp [Dev.writeEntry]
@[simp] theorem Dev.writeEntry_ccs (d : Dev) (r w : Nat) (b : List Byte) :
    (d.writeEntry r w b).ccs = d.ccs := by
  simp [Dev.writeEntry]
@[simp] theorem Dev.writeEntry_house (d : Dev) (r w : Nat) (b : List Byte) :
    (d.writeEntry r w b).house = d.house := by
  simp [Dev.writeEntry]
@[simp] theorem Dev.writeEntry_cps (d : Dev) (r w : Nat) (b : List Byte) :
    (d.writeEntry r w b).cps = d.cps := by
  simp [Dev.writeEntry]
@[simp] theorem Dev.writeEntry_drv (d : Dev) (r w : Nat) (b : List Byte) :
    (d.writeEntry r w b).drv = d.drv := by
  simp [Dev.writeEntry]
@[simp] theorem Dev.writeEntry_trip (d : Dev) (r w : Nat) (b : List Byte) :
    (d.writeEntry r w b).trip = d.trip := by
  simp [Dev.writeEntry]
@[simp] theorem Dev.writeEntry_fuse (d : Dev) (r w : Nat) (b : List Byte) :
    (d.writeEntry r w b).fuse = d.fuse := by
  simp [Dev.writeEntry]
@[simp] theorem Dev.writeEntry_bge (d : Dev) (r w : Nat) (b : List Byte) :
    (d.writeEntry r w b).bge = d.bge := by
  simp [Dev.writeEntry]
@[simp] theorem Dev.writeEntry_groups (d : Dev) (r w : Nat) (b : List Byte) :
    (d.writeEntry r w b).groups = d.groups := by
  simp [Dev.writeEntry]
@[simp] theorem Dev.writeEntry_legs (d : Dev) (r w : Nat) (b : List Byte) :
    (d.writeEntry r w b).legs = d.legs := by
  simp [Dev.writeEntry]
@[simp] theorem Dev.writeEntry_sup (d : Dev) (r w : Nat) (b : List Byte) :
    (d.writeEntry r w b).sup = d.sup := by
  simp [Dev.writeEntry]
@[simp] theorem Dev.writeEntry_feeds (d : Dev) (r w : Nat) (b : List Byte) :
    (d.writeEntry r w b).feeds = d.feeds := by
  simp [Dev.writeEntry]
@[simp] theorem Dev.writeEntry_branches (d : Dev) (r w : Nat) (b : List Byte) :
    (d.writeEntry r w b).branches = d.branches := by
  simp [Dev.writeEntry]
@[simp] theorem Dev.writeEntry_banks (d : Dev) (r w : Nat) (b : List Byte) :
    (d.writeEntry r w b).banks = d.banks := by
  simp [Dev.writeEntry]
@[simp] theorem Dev.writeEntry_strings (d : Dev) (r w : Nat) (b : List Byte) :
    (d.writeEntry r w b).strings = d.strings := by
  simp [Dev.writeEntry]
@[simp] theorem Dev.writeEntry_shelf (d : Dev) (r w : Nat) (b : List Byte) :
    (d.writeEntry r w b).shelf = d.shelf := by
  simp [Dev.writeEntry]
@[simp] theorem Dev.writeEntry_tt (d : Dev) (r w : Nat) (b : List Byte) :
    (d.writeEntry r w b).tt = d.tt := by
  simp [Dev.writeEntry]
@[simp] theorem Dev.writeEntry_pmbus (d : Dev) (r w : Nat) (b : List Byte) :
    (d.writeEntry r w b).pmbus = d.pmbus := by
  simp [Dev.writeEntry]
@[simp] theorem Dev.writeEntry_avs (d : Dev) (r w : Nat) (b : List Byte) :
    (d.writeEntry r w b).avs = d.avs := by
  simp [Dev.writeEntry]
@[simp] theorem Dev.writeEntry_tap (d : Dev) (r w : Nat) (b : List Byte) :
    (d.writeEntry r w b).tap = d.tap := by
  simp [Dev.writeEntry]
@[simp] theorem Dev.writeEntry_startCount (d : Dev) (r w : Nat) (b : List Byte) :
    (d.writeEntry r w b).startCount = d.startCount := by
  simp [Dev.writeEntry]
@[simp] theorem Dev.writeEntry_due (d : Dev) (r w : Nat) (b : List Byte) :
    (d.writeEntry r w b).due = d.due := by
  simp [Dev.writeEntry]
@[simp] theorem Dev.writeEntry_fresh (d : Dev) (r w : Nat) (b : List Byte) :
    (d.writeEntry r w b).fresh = d.fresh := by
  simp [Dev.writeEntry]

/-! ### Dev.writeEvent -/

@[simp] theorem Dev.writeEvent_core (d : Dev) (src w : Nat) (b : List Byte) (q : Nat) (u : Bool) :
    (d.writeEvent src w b q u).core = d.core := by
  unfold Dev.writeEvent; split <;> simp
@[simp] theorem Dev.writeEvent_ka (d : Dev) (src w : Nat) (b : List Byte) (q : Nat) (u : Bool) :
    (d.writeEvent src w b q u).ka = d.ka := by
  unfold Dev.writeEvent; split <;> simp
@[simp] theorem Dev.writeEvent_cfg (d : Dev) (src w : Nat) (b : List Byte) (q : Nat) (u : Bool) :
    (d.writeEvent src w b q u).cfg = d.cfg := by
  unfold Dev.writeEvent; split <;> simp
@[simp] theorem Dev.writeEvent_book (d : Dev) (src w : Nat) (b : List Byte) (q : Nat) (u : Bool) :
    (d.writeEvent src w b q u).book = d.book := by
  unfold Dev.writeEvent; split <;> simp
@[simp] theorem Dev.writeEvent_ledger (d : Dev) (src w : Nat) (b : List Byte) (q : Nat) (u : Bool) :
    (d.writeEvent src w b q u).ledger = d.ledger := by
  unfold Dev.writeEvent; split <;> simp
@[simp] theorem Dev.writeEvent_sp (d : Dev) (src w : Nat) (b : List Byte) (q : Nat) (u : Bool) :
    (d.writeEvent src w b q u).sp = d.sp := by
  unfold Dev.writeEvent; split <;> simp
@[simp] theorem Dev.writeEvent_office (d : Dev) (src w : Nat) (b : List Byte) (q : Nat) (u : Bool) :
    (d.writeEvent src w b q u).office = d.office := by
  unfold Dev.writeEvent; split <;> simp
@[simp] theorem Dev.writeEvent_il (d : Dev) (src w : Nat) (b : List Byte) (q : Nat) (u : Bool) :
    (d.writeEvent src w b q u).il = d.il := by
  unfold Dev.writeEvent; split <;> simp
@[simp] theorem Dev.writeEvent_tr (d : Dev) (src w : Nat) (b : List Byte) (q : Nat) (u : Bool) :
    (d.writeEvent src w b q u).tr = d.tr := by
  unfold Dev.writeEvent; split <;> simp
@[simp] theorem Dev.writeEvent_sars (d : Dev) (src w : Nat) (b : List Byte) (q : Nat) (u : Bool) :
    (d.writeEvent src w b q u).sars = d.sars := by
  unfold Dev.writeEvent; split <;> simp
@[simp] theorem Dev.writeEvent_ccs (d : Dev) (src w : Nat) (b : List Byte) (q : Nat) (u : Bool) :
    (d.writeEvent src w b q u).ccs = d.ccs := by
  unfold Dev.writeEvent; split <;> simp
@[simp] theorem Dev.writeEvent_house (d : Dev) (src w : Nat) (b : List Byte) (q : Nat) (u : Bool) :
    (d.writeEvent src w b q u).house = d.house := by
  unfold Dev.writeEvent; split <;> simp
@[simp] theorem Dev.writeEvent_cps (d : Dev) (src w : Nat) (b : List Byte) (q : Nat) (u : Bool) :
    (d.writeEvent src w b q u).cps = d.cps := by
  unfold Dev.writeEvent; split <;> simp
@[simp] theorem Dev.writeEvent_drv (d : Dev) (src w : Nat) (b : List Byte) (q : Nat) (u : Bool) :
    (d.writeEvent src w b q u).drv = d.drv := by
  unfold Dev.writeEvent; split <;> simp
@[simp] theorem Dev.writeEvent_trip (d : Dev) (src w : Nat) (b : List Byte) (q : Nat) (u : Bool) :
    (d.writeEvent src w b q u).trip = d.trip := by
  unfold Dev.writeEvent; split <;> simp
@[simp] theorem Dev.writeEvent_fuse (d : Dev) (src w : Nat) (b : List Byte) (q : Nat) (u : Bool) :
    (d.writeEvent src w b q u).fuse = d.fuse := by
  unfold Dev.writeEvent; split <;> simp
@[simp] theorem Dev.writeEvent_bge (d : Dev) (src w : Nat) (b : List Byte) (q : Nat) (u : Bool) :
    (d.writeEvent src w b q u).bge = d.bge := by
  unfold Dev.writeEvent; split <;> simp
@[simp] theorem Dev.writeEvent_groups (d : Dev) (src w : Nat) (b : List Byte) (q : Nat) (u : Bool) :
    (d.writeEvent src w b q u).groups = d.groups := by
  unfold Dev.writeEvent; split <;> simp
@[simp] theorem Dev.writeEvent_legs (d : Dev) (src w : Nat) (b : List Byte) (q : Nat) (u : Bool) :
    (d.writeEvent src w b q u).legs = d.legs := by
  unfold Dev.writeEvent; split <;> simp
@[simp] theorem Dev.writeEvent_sup (d : Dev) (src w : Nat) (b : List Byte) (q : Nat) (u : Bool) :
    (d.writeEvent src w b q u).sup = d.sup := by
  unfold Dev.writeEvent; split <;> simp
@[simp] theorem Dev.writeEvent_feeds (d : Dev) (src w : Nat) (b : List Byte) (q : Nat) (u : Bool) :
    (d.writeEvent src w b q u).feeds = d.feeds := by
  unfold Dev.writeEvent; split <;> simp
@[simp] theorem Dev.writeEvent_branches (d : Dev) (src w : Nat) (b : List Byte) (q : Nat) (u : Bool) :
    (d.writeEvent src w b q u).branches = d.branches := by
  unfold Dev.writeEvent; split <;> simp
@[simp] theorem Dev.writeEvent_banks (d : Dev) (src w : Nat) (b : List Byte) (q : Nat) (u : Bool) :
    (d.writeEvent src w b q u).banks = d.banks := by
  unfold Dev.writeEvent; split <;> simp
@[simp] theorem Dev.writeEvent_strings (d : Dev) (src w : Nat) (b : List Byte) (q : Nat) (u : Bool) :
    (d.writeEvent src w b q u).strings = d.strings := by
  unfold Dev.writeEvent; split <;> simp
@[simp] theorem Dev.writeEvent_shelf (d : Dev) (src w : Nat) (b : List Byte) (q : Nat) (u : Bool) :
    (d.writeEvent src w b q u).shelf = d.shelf := by
  unfold Dev.writeEvent; split <;> simp
@[simp] theorem Dev.writeEvent_tt (d : Dev) (src w : Nat) (b : List Byte) (q : Nat) (u : Bool) :
    (d.writeEvent src w b q u).tt = d.tt := by
  unfold Dev.writeEvent; split <;> simp
@[simp] theorem Dev.writeEvent_pmbus (d : Dev) (src w : Nat) (b : List Byte) (q : Nat) (u : Bool) :
    (d.writeEvent src w b q u).pmbus = d.pmbus := by
  unfold Dev.writeEvent; split <;> simp
@[simp] theorem Dev.writeEvent_avs (d : Dev) (src w : Nat) (b : List Byte) (q : Nat) (u : Bool) :
    (d.writeEvent src w b q u).avs = d.avs := by
  unfold Dev.writeEvent; split <;> simp
@[simp] theorem Dev.writeEvent_tap (d : Dev) (src w : Nat) (b : List Byte) (q : Nat) (u : Bool) :
    (d.writeEvent src w b q u).tap = d.tap := by
  unfold Dev.writeEvent; split <;> simp
@[simp] theorem Dev.writeEvent_startCount (d : Dev) (src w : Nat) (b : List Byte) (q : Nat) (u : Bool) :
    (d.writeEvent src w b q u).startCount = d.startCount := by
  unfold Dev.writeEvent; split <;> simp
@[simp] theorem Dev.writeEvent_due (d : Dev) (src w : Nat) (b : List Byte) (q : Nat) (u : Bool) :
    (d.writeEvent src w b q u).due = d.due := by
  unfold Dev.writeEvent; split <;> simp
@[simp] theorem Dev.writeEvent_fresh (d : Dev) (src w : Nat) (b : List Byte) (q : Nat) (u : Bool) :
    (d.writeEvent src w b q u).fresh = d.fresh := by
  unfold Dev.writeEvent; split <;> simp

/-! ### Dev.postEvent -/

@[simp] theorem Dev.postEvent_core (d : Dev) (src cls code seq : Nat) (g i : Bool) (t : Stamp) (a b : Nat) :
    (d.postEvent src cls code seq g i t a b).core = d.core := by
  unfold Dev.postEvent; dsimp only; split <;> simp
@[simp] theorem Dev.postEvent_ka (d : Dev) (src cls code seq : Nat) (g i : Bool) (t : Stamp) (a b : Nat) :
    (d.postEvent src cls code seq g i t a b).ka = d.ka := by
  unfold Dev.postEvent; dsimp only; split <;> simp
@[simp] theorem Dev.postEvent_cfg (d : Dev) (src cls code seq : Nat) (g i : Bool) (t : Stamp) (a b : Nat) :
    (d.postEvent src cls code seq g i t a b).cfg = d.cfg := by
  unfold Dev.postEvent; dsimp only; split <;> simp
@[simp] theorem Dev.postEvent_book (d : Dev) (src cls code seq : Nat) (g i : Bool) (t : Stamp) (a b : Nat) :
    (d.postEvent src cls code seq g i t a b).book = d.book := by
  unfold Dev.postEvent; dsimp only; split <;> simp
@[simp] theorem Dev.postEvent_ledger (d : Dev) (src cls code seq : Nat) (g i : Bool) (t : Stamp) (a b : Nat) :
    (d.postEvent src cls code seq g i t a b).ledger = d.ledger := by
  unfold Dev.postEvent; dsimp only; split <;> simp
@[simp] theorem Dev.postEvent_sp (d : Dev) (src cls code seq : Nat) (g i : Bool) (t : Stamp) (a b : Nat) :
    (d.postEvent src cls code seq g i t a b).sp = d.sp := by
  unfold Dev.postEvent; dsimp only; split <;> simp
@[simp] theorem Dev.postEvent_office (d : Dev) (src cls code seq : Nat) (g i : Bool) (t : Stamp) (a b : Nat) :
    (d.postEvent src cls code seq g i t a b).office = d.office := by
  unfold Dev.postEvent; dsimp only; split <;> simp
@[simp] theorem Dev.postEvent_il (d : Dev) (src cls code seq : Nat) (g i : Bool) (t : Stamp) (a b : Nat) :
    (d.postEvent src cls code seq g i t a b).il = d.il := by
  unfold Dev.postEvent; dsimp only; split <;> simp
@[simp] theorem Dev.postEvent_tr (d : Dev) (src cls code seq : Nat) (g i : Bool) (t : Stamp) (a b : Nat) :
    (d.postEvent src cls code seq g i t a b).tr = d.tr := by
  unfold Dev.postEvent; dsimp only; split <;> simp
@[simp] theorem Dev.postEvent_sars (d : Dev) (src cls code seq : Nat) (g i : Bool) (t : Stamp) (a b : Nat) :
    (d.postEvent src cls code seq g i t a b).sars = d.sars := by
  unfold Dev.postEvent; dsimp only; split <;> simp
@[simp] theorem Dev.postEvent_ccs (d : Dev) (src cls code seq : Nat) (g i : Bool) (t : Stamp) (a b : Nat) :
    (d.postEvent src cls code seq g i t a b).ccs = d.ccs := by
  unfold Dev.postEvent; dsimp only; split <;> simp
@[simp] theorem Dev.postEvent_house (d : Dev) (src cls code seq : Nat) (g i : Bool) (t : Stamp) (a b : Nat) :
    (d.postEvent src cls code seq g i t a b).house = d.house := by
  unfold Dev.postEvent; dsimp only; split <;> simp
@[simp] theorem Dev.postEvent_cps (d : Dev) (src cls code seq : Nat) (g i : Bool) (t : Stamp) (a b : Nat) :
    (d.postEvent src cls code seq g i t a b).cps = d.cps := by
  unfold Dev.postEvent; dsimp only; split <;> simp
@[simp] theorem Dev.postEvent_drv (d : Dev) (src cls code seq : Nat) (g i : Bool) (t : Stamp) (a b : Nat) :
    (d.postEvent src cls code seq g i t a b).drv = d.drv := by
  unfold Dev.postEvent; dsimp only; split <;> simp
@[simp] theorem Dev.postEvent_trip (d : Dev) (src cls code seq : Nat) (g i : Bool) (t : Stamp) (a b : Nat) :
    (d.postEvent src cls code seq g i t a b).trip = d.trip := by
  unfold Dev.postEvent; dsimp only; split <;> simp
@[simp] theorem Dev.postEvent_fuse (d : Dev) (src cls code seq : Nat) (g i : Bool) (t : Stamp) (a b : Nat) :
    (d.postEvent src cls code seq g i t a b).fuse = d.fuse := by
  unfold Dev.postEvent; dsimp only; split <;> simp
@[simp] theorem Dev.postEvent_bge (d : Dev) (src cls code seq : Nat) (g i : Bool) (t : Stamp) (a b : Nat) :
    (d.postEvent src cls code seq g i t a b).bge = d.bge := by
  unfold Dev.postEvent; dsimp only; split <;> simp
@[simp] theorem Dev.postEvent_groups (d : Dev) (src cls code seq : Nat) (g i : Bool) (t : Stamp) (a b : Nat) :
    (d.postEvent src cls code seq g i t a b).groups = d.groups := by
  unfold Dev.postEvent; dsimp only; split <;> simp
@[simp] theorem Dev.postEvent_legs (d : Dev) (src cls code seq : Nat) (g i : Bool) (t : Stamp) (a b : Nat) :
    (d.postEvent src cls code seq g i t a b).legs = d.legs := by
  unfold Dev.postEvent; dsimp only; split <;> simp
@[simp] theorem Dev.postEvent_sup (d : Dev) (src cls code seq : Nat) (g i : Bool) (t : Stamp) (a b : Nat) :
    (d.postEvent src cls code seq g i t a b).sup = d.sup := by
  unfold Dev.postEvent; dsimp only; split <;> simp
@[simp] theorem Dev.postEvent_feeds (d : Dev) (src cls code seq : Nat) (g i : Bool) (t : Stamp) (a b : Nat) :
    (d.postEvent src cls code seq g i t a b).feeds = d.feeds := by
  unfold Dev.postEvent; dsimp only; split <;> simp
@[simp] theorem Dev.postEvent_branches (d : Dev) (src cls code seq : Nat) (g i : Bool) (t : Stamp) (a b : Nat) :
    (d.postEvent src cls code seq g i t a b).branches = d.branches := by
  unfold Dev.postEvent; dsimp only; split <;> simp
@[simp] theorem Dev.postEvent_banks (d : Dev) (src cls code seq : Nat) (g i : Bool) (t : Stamp) (a b : Nat) :
    (d.postEvent src cls code seq g i t a b).banks = d.banks := by
  unfold Dev.postEvent; dsimp only; split <;> simp
@[simp] theorem Dev.postEvent_strings (d : Dev) (src cls code seq : Nat) (g i : Bool) (t : Stamp) (a b : Nat) :
    (d.postEvent src cls code seq g i t a b).strings = d.strings := by
  unfold Dev.postEvent; dsimp only; split <;> simp
@[simp] theorem Dev.postEvent_shelf (d : Dev) (src cls code seq : Nat) (g i : Bool) (t : Stamp) (a b : Nat) :
    (d.postEvent src cls code seq g i t a b).shelf = d.shelf := by
  unfold Dev.postEvent; dsimp only; split <;> simp
@[simp] theorem Dev.postEvent_tt (d : Dev) (src cls code seq : Nat) (g i : Bool) (t : Stamp) (a b : Nat) :
    (d.postEvent src cls code seq g i t a b).tt = d.tt := by
  unfold Dev.postEvent; dsimp only; split <;> simp
@[simp] theorem Dev.postEvent_pmbus (d : Dev) (src cls code seq : Nat) (g i : Bool) (t : Stamp) (a b : Nat) :
    (d.postEvent src cls code seq g i t a b).pmbus = d.pmbus := by
  unfold Dev.postEvent; dsimp only; split <;> simp
@[simp] theorem Dev.postEvent_avs (d : Dev) (src cls code seq : Nat) (g i : Bool) (t : Stamp) (a b : Nat) :
    (d.postEvent src cls code seq g i t a b).avs = d.avs := by
  unfold Dev.postEvent; dsimp only; split <;> simp
@[simp] theorem Dev.postEvent_tap (d : Dev) (src cls code seq : Nat) (g i : Bool) (t : Stamp) (a b : Nat) :
    (d.postEvent src cls code seq g i t a b).tap = d.tap := by
  unfold Dev.postEvent; dsimp only; split <;> simp
@[simp] theorem Dev.postEvent_startCount (d : Dev) (src cls code seq : Nat) (g i : Bool) (t : Stamp) (a b : Nat) :
    (d.postEvent src cls code seq g i t a b).startCount = d.startCount := by
  unfold Dev.postEvent; dsimp only; split <;> simp
@[simp] theorem Dev.postEvent_due (d : Dev) (src cls code seq : Nat) (g i : Bool) (t : Stamp) (a b : Nat) :
    (d.postEvent src cls code seq g i t a b).due = d.due := by
  unfold Dev.postEvent; dsimp only; split <;> simp
@[simp] theorem Dev.postEvent_fresh (d : Dev) (src cls code seq : Nat) (g i : Bool) (t : Stamp) (a b : Nat) :
    (d.postEvent src cls code seq g i t a b).fresh = d.fresh := by
  unfold Dev.postEvent; dsimp only; split <;> simp

/-! ### Dev.record -/

@[simp] theorem Dev.record_core (d : Dev) (k : Bool) (rs : List Draft) :
    (d.record k rs).core = d.core := by
  unfold Dev.record; dsimp only; split <;> split <;> split <;> rfl
@[simp] theorem Dev.record_ka (d : Dev) (k : Bool) (rs : List Draft) :
    (d.record k rs).ka = d.ka := by
  unfold Dev.record; dsimp only; split <;> split <;> split <;> rfl
@[simp] theorem Dev.record_cfg (d : Dev) (k : Bool) (rs : List Draft) :
    (d.record k rs).cfg = d.cfg := by
  unfold Dev.record; dsimp only; split <;> split <;> split <;> rfl
@[simp] theorem Dev.record_book (d : Dev) (k : Bool) (rs : List Draft) :
    (d.record k rs).book = d.book := by
  unfold Dev.record; dsimp only; split <;> split <;> split <;> rfl
@[simp] theorem Dev.record_hqi (d : Dev) (k : Bool) (rs : List Draft) :
    (d.record k rs).hqi = d.hqi := by
  unfold Dev.record; dsimp only; split <;> split <;> split <;> rfl
@[simp] theorem Dev.record_ledger (d : Dev) (k : Bool) (rs : List Draft) :
    (d.record k rs).ledger = d.ledger := by
  unfold Dev.record; dsimp only; split <;> split <;> split <;> rfl
@[simp] theorem Dev.record_sp (d : Dev) (k : Bool) (rs : List Draft) :
    (d.record k rs).sp = d.sp := by
  unfold Dev.record; dsimp only; split <;> split <;> split <;> rfl
@[simp] theorem Dev.record_office (d : Dev) (k : Bool) (rs : List Draft) :
    (d.record k rs).office = d.office := by
  unfold Dev.record; dsimp only; split <;> split <;> split <;> rfl
@[simp] theorem Dev.record_il (d : Dev) (k : Bool) (rs : List Draft) :
    (d.record k rs).il = d.il := by
  unfold Dev.record; dsimp only; split <;> split <;> split <;> rfl
@[simp] theorem Dev.record_sars (d : Dev) (k : Bool) (rs : List Draft) :
    (d.record k rs).sars = d.sars := by
  unfold Dev.record; dsimp only; split <;> split <;> split <;> rfl
@[simp] theorem Dev.record_ccs (d : Dev) (k : Bool) (rs : List Draft) :
    (d.record k rs).ccs = d.ccs := by
  unfold Dev.record; dsimp only; split <;> split <;> split <;> rfl
@[simp] theorem Dev.record_house (d : Dev) (k : Bool) (rs : List Draft) :
    (d.record k rs).house = d.house := by
  unfold Dev.record; dsimp only; split <;> split <;> split <;> rfl
@[simp] theorem Dev.record_cps (d : Dev) (k : Bool) (rs : List Draft) :
    (d.record k rs).cps = d.cps := by
  unfold Dev.record; dsimp only; split <;> split <;> split <;> rfl
@[simp] theorem Dev.record_drv (d : Dev) (k : Bool) (rs : List Draft) :
    (d.record k rs).drv = d.drv := by
  unfold Dev.record; dsimp only; split <;> split <;> split <;> rfl
@[simp] theorem Dev.record_trip (d : Dev) (k : Bool) (rs : List Draft) :
    (d.record k rs).trip = d.trip := by
  unfold Dev.record; dsimp only; split <;> split <;> split <;> rfl
@[simp] theorem Dev.record_fuse (d : Dev) (k : Bool) (rs : List Draft) :
    (d.record k rs).fuse = d.fuse := by
  unfold Dev.record; dsimp only; split <;> split <;> split <;> rfl
@[simp] theorem Dev.record_bge (d : Dev) (k : Bool) (rs : List Draft) :
    (d.record k rs).bge = d.bge := by
  unfold Dev.record; dsimp only; split <;> split <;> split <;> rfl
@[simp] theorem Dev.record_groups (d : Dev) (k : Bool) (rs : List Draft) :
    (d.record k rs).groups = d.groups := by
  unfold Dev.record; dsimp only; split <;> split <;> split <;> rfl
@[simp] theorem Dev.record_legs (d : Dev) (k : Bool) (rs : List Draft) :
    (d.record k rs).legs = d.legs := by
  unfold Dev.record; dsimp only; split <;> split <;> split <;> rfl
@[simp] theorem Dev.record_sup (d : Dev) (k : Bool) (rs : List Draft) :
    (d.record k rs).sup = d.sup := by
  unfold Dev.record; dsimp only; split <;> split <;> split <;> rfl
@[simp] theorem Dev.record_feeds (d : Dev) (k : Bool) (rs : List Draft) :
    (d.record k rs).feeds = d.feeds := by
  unfold Dev.record; dsimp only; split <;> split <;> split <;> rfl
@[simp] theorem Dev.record_branches (d : Dev) (k : Bool) (rs : List Draft) :
    (d.record k rs).branches = d.branches := by
  unfold Dev.record; dsimp only; split <;> split <;> split <;> rfl
@[simp] theorem Dev.record_banks (d : Dev) (k : Bool) (rs : List Draft) :
    (d.record k rs).banks = d.banks := by
  unfold Dev.record; dsimp only; split <;> split <;> split <;> rfl
@[simp] theorem Dev.record_strings (d : Dev) (k : Bool) (rs : List Draft) :
    (d.record k rs).strings = d.strings := by
  unfold Dev.record; dsimp only; split <;> split <;> split <;> rfl
@[simp] theorem Dev.record_shelf (d : Dev) (k : Bool) (rs : List Draft) :
    (d.record k rs).shelf = d.shelf := by
  unfold Dev.record; dsimp only; split <;> split <;> split <;> rfl
@[simp] theorem Dev.record_tt (d : Dev) (k : Bool) (rs : List Draft) :
    (d.record k rs).tt = d.tt := by
  unfold Dev.record; dsimp only; split <;> split <;> split <;> rfl
@[simp] theorem Dev.record_pmbus (d : Dev) (k : Bool) (rs : List Draft) :
    (d.record k rs).pmbus = d.pmbus := by
  unfold Dev.record; dsimp only; split <;> split <;> split <;> rfl
@[simp] theorem Dev.record_avs (d : Dev) (k : Bool) (rs : List Draft) :
    (d.record k rs).avs = d.avs := by
  unfold Dev.record; dsimp only; split <;> split <;> split <;> rfl
@[simp] theorem Dev.record_tap (d : Dev) (k : Bool) (rs : List Draft) :
    (d.record k rs).tap = d.tap := by
  unfold Dev.record; dsimp only; split <;> split <;> split <;> rfl
@[simp] theorem Dev.record_startCount (d : Dev) (k : Bool) (rs : List Draft) :
    (d.record k rs).startCount = d.startCount := by
  unfold Dev.record; dsimp only; split <;> split <;> split <;> rfl
@[simp] theorem Dev.record_out (d : Dev) (k : Bool) (rs : List Draft) :
    (d.record k rs).out = d.out := by
  unfold Dev.record; dsimp only; split <;> split <;> split <;> rfl
@[simp] theorem Dev.record_fresh (d : Dev) (k : Bool) (rs : List Draft) :
    (d.record k rs).fresh = d.fresh := by
  unfold Dev.record; dsimp only; split <;> split <;> split <;> rfl

/-! ### Dev.raiseInj -/

@[simp] theorem Dev.raiseInj_core (d : Dev) (code cls src a b : Nat) (i : Bool) :
    (d.raiseInj code cls src a b i).core = d.core := by
  simp [Dev.raiseInj]
@[simp] theorem Dev.raiseInj_ka (d : Dev) (code cls src a b : Nat) (i : Bool) :
    (d.raiseInj code cls src a b i).ka = d.ka := by
  simp [Dev.raiseInj]
@[simp] theorem Dev.raiseInj_cfg (d : Dev) (code cls src a b : Nat) (i : Bool) :
    (d.raiseInj code cls src a b i).cfg = d.cfg := by
  simp [Dev.raiseInj]
@[simp] theorem Dev.raiseInj_book (d : Dev) (code cls src a b : Nat) (i : Bool) :
    (d.raiseInj code cls src a b i).book = d.book := by
  simp [Dev.raiseInj]
@[simp] theorem Dev.raiseInj_ledger (d : Dev) (code cls src a b : Nat) (i : Bool) :
    (d.raiseInj code cls src a b i).ledger = d.ledger := by
  simp [Dev.raiseInj]
@[simp] theorem Dev.raiseInj_sp (d : Dev) (code cls src a b : Nat) (i : Bool) :
    (d.raiseInj code cls src a b i).sp = d.sp := by
  simp [Dev.raiseInj]
@[simp] theorem Dev.raiseInj_office (d : Dev) (code cls src a b : Nat) (i : Bool) :
    (d.raiseInj code cls src a b i).office = d.office := by
  simp [Dev.raiseInj]
@[simp] theorem Dev.raiseInj_il (d : Dev) (code cls src a b : Nat) (i : Bool) :
    (d.raiseInj code cls src a b i).il = d.il := by
  simp [Dev.raiseInj]
@[simp] theorem Dev.raiseInj_sars (d : Dev) (code cls src a b : Nat) (i : Bool) :
    (d.raiseInj code cls src a b i).sars = d.sars := by
  simp [Dev.raiseInj]
@[simp] theorem Dev.raiseInj_ccs (d : Dev) (code cls src a b : Nat) (i : Bool) :
    (d.raiseInj code cls src a b i).ccs = d.ccs := by
  simp [Dev.raiseInj]
@[simp] theorem Dev.raiseInj_house (d : Dev) (code cls src a b : Nat) (i : Bool) :
    (d.raiseInj code cls src a b i).house = d.house := by
  simp [Dev.raiseInj]
@[simp] theorem Dev.raiseInj_cps (d : Dev) (code cls src a b : Nat) (i : Bool) :
    (d.raiseInj code cls src a b i).cps = d.cps := by
  simp [Dev.raiseInj]
@[simp] theorem Dev.raiseInj_drv (d : Dev) (code cls src a b : Nat) (i : Bool) :
    (d.raiseInj code cls src a b i).drv = d.drv := by
  simp [Dev.raiseInj]
@[simp] theorem Dev.raiseInj_trip (d : Dev) (code cls src a b : Nat) (i : Bool) :
    (d.raiseInj code cls src a b i).trip = d.trip := by
  simp [Dev.raiseInj]
@[simp] theorem Dev.raiseInj_fuse (d : Dev) (code cls src a b : Nat) (i : Bool) :
    (d.raiseInj code cls src a b i).fuse = d.fuse := by
  simp [Dev.raiseInj]
@[simp] theorem Dev.raiseInj_bge (d : Dev) (code cls src a b : Nat) (i : Bool) :
    (d.raiseInj code cls src a b i).bge = d.bge := by
  simp [Dev.raiseInj]
@[simp] theorem Dev.raiseInj_groups (d : Dev) (code cls src a b : Nat) (i : Bool) :
    (d.raiseInj code cls src a b i).groups = d.groups := by
  simp [Dev.raiseInj]
@[simp] theorem Dev.raiseInj_legs (d : Dev) (code cls src a b : Nat) (i : Bool) :
    (d.raiseInj code cls src a b i).legs = d.legs := by
  simp [Dev.raiseInj]
@[simp] theorem Dev.raiseInj_sup (d : Dev) (code cls src a b : Nat) (i : Bool) :
    (d.raiseInj code cls src a b i).sup = d.sup := by
  simp [Dev.raiseInj]
@[simp] theorem Dev.raiseInj_feeds (d : Dev) (code cls src a b : Nat) (i : Bool) :
    (d.raiseInj code cls src a b i).feeds = d.feeds := by
  simp [Dev.raiseInj]
@[simp] theorem Dev.raiseInj_branches (d : Dev) (code cls src a b : Nat) (i : Bool) :
    (d.raiseInj code cls src a b i).branches = d.branches := by
  simp [Dev.raiseInj]
@[simp] theorem Dev.raiseInj_banks (d : Dev) (code cls src a b : Nat) (i : Bool) :
    (d.raiseInj code cls src a b i).banks = d.banks := by
  simp [Dev.raiseInj]
@[simp] theorem Dev.raiseInj_strings (d : Dev) (code cls src a b : Nat) (i : Bool) :
    (d.raiseInj code cls src a b i).strings = d.strings := by
  simp [Dev.raiseInj]
@[simp] theorem Dev.raiseInj_shelf (d : Dev) (code cls src a b : Nat) (i : Bool) :
    (d.raiseInj code cls src a b i).shelf = d.shelf := by
  simp [Dev.raiseInj]
@[simp] theorem Dev.raiseInj_tt (d : Dev) (code cls src a b : Nat) (i : Bool) :
    (d.raiseInj code cls src a b i).tt = d.tt := by
  simp [Dev.raiseInj]
@[simp] theorem Dev.raiseInj_pmbus (d : Dev) (code cls src a b : Nat) (i : Bool) :
    (d.raiseInj code cls src a b i).pmbus = d.pmbus := by
  simp [Dev.raiseInj]
@[simp] theorem Dev.raiseInj_avs (d : Dev) (code cls src a b : Nat) (i : Bool) :
    (d.raiseInj code cls src a b i).avs = d.avs := by
  simp [Dev.raiseInj]
@[simp] theorem Dev.raiseInj_tap (d : Dev) (code cls src a b : Nat) (i : Bool) :
    (d.raiseInj code cls src a b i).tap = d.tap := by
  simp [Dev.raiseInj]
@[simp] theorem Dev.raiseInj_startCount (d : Dev) (code cls src a b : Nat) (i : Bool) :
    (d.raiseInj code cls src a b i).startCount = d.startCount := by
  simp [Dev.raiseInj]
@[simp] theorem Dev.raiseInj_fresh (d : Dev) (code cls src a b : Nat) (i : Bool) :
    (d.raiseInj code cls src a b i).fresh = d.fresh := by
  simp [Dev.raiseInj]

/-! ### Dev.raise -/

@[simp] theorem Dev.raise_core (d : Dev) (code cls src a b : Nat) :
    (d.raise code cls src a b).core = d.core := by
  simp [Dev.raise]
@[simp] theorem Dev.raise_ka (d : Dev) (code cls src a b : Nat) :
    (d.raise code cls src a b).ka = d.ka := by
  simp [Dev.raise]
@[simp] theorem Dev.raise_cfg (d : Dev) (code cls src a b : Nat) :
    (d.raise code cls src a b).cfg = d.cfg := by
  simp [Dev.raise]
@[simp] theorem Dev.raise_book (d : Dev) (code cls src a b : Nat) :
    (d.raise code cls src a b).book = d.book := by
  simp [Dev.raise]
@[simp] theorem Dev.raise_ledger (d : Dev) (code cls src a b : Nat) :
    (d.raise code cls src a b).ledger = d.ledger := by
  simp [Dev.raise]
@[simp] theorem Dev.raise_sp (d : Dev) (code cls src a b : Nat) :
    (d.raise code cls src a b).sp = d.sp := by
  simp [Dev.raise]
@[simp] theorem Dev.raise_office (d : Dev) (code cls src a b : Nat) :
    (d.raise code cls src a b).office = d.office := by
  simp [Dev.raise]
@[simp] theorem Dev.raise_il (d : Dev) (code cls src a b : Nat) :
    (d.raise code cls src a b).il = d.il := by
  simp [Dev.raise]
@[simp] theorem Dev.raise_sars (d : Dev) (code cls src a b : Nat) :
    (d.raise code cls src a b).sars = d.sars := by
  simp [Dev.raise]
@[simp] theorem Dev.raise_ccs (d : Dev) (code cls src a b : Nat) :
    (d.raise code cls src a b).ccs = d.ccs := by
  simp [Dev.raise]
@[simp] theorem Dev.raise_house (d : Dev) (code cls src a b : Nat) :
    (d.raise code cls src a b).house = d.house := by
  simp [Dev.raise]
@[simp] theorem Dev.raise_cps (d : Dev) (code cls src a b : Nat) :
    (d.raise code cls src a b).cps = d.cps := by
  simp [Dev.raise]
@[simp] theorem Dev.raise_drv (d : Dev) (code cls src a b : Nat) :
    (d.raise code cls src a b).drv = d.drv := by
  simp [Dev.raise]
@[simp] theorem Dev.raise_trip (d : Dev) (code cls src a b : Nat) :
    (d.raise code cls src a b).trip = d.trip := by
  simp [Dev.raise]
@[simp] theorem Dev.raise_fuse (d : Dev) (code cls src a b : Nat) :
    (d.raise code cls src a b).fuse = d.fuse := by
  simp [Dev.raise]
@[simp] theorem Dev.raise_bge (d : Dev) (code cls src a b : Nat) :
    (d.raise code cls src a b).bge = d.bge := by
  simp [Dev.raise]
@[simp] theorem Dev.raise_groups (d : Dev) (code cls src a b : Nat) :
    (d.raise code cls src a b).groups = d.groups := by
  simp [Dev.raise]
@[simp] theorem Dev.raise_legs (d : Dev) (code cls src a b : Nat) :
    (d.raise code cls src a b).legs = d.legs := by
  simp [Dev.raise]
@[simp] theorem Dev.raise_sup (d : Dev) (code cls src a b : Nat) :
    (d.raise code cls src a b).sup = d.sup := by
  simp [Dev.raise]
@[simp] theorem Dev.raise_feeds (d : Dev) (code cls src a b : Nat) :
    (d.raise code cls src a b).feeds = d.feeds := by
  simp [Dev.raise]
@[simp] theorem Dev.raise_branches (d : Dev) (code cls src a b : Nat) :
    (d.raise code cls src a b).branches = d.branches := by
  simp [Dev.raise]
@[simp] theorem Dev.raise_banks (d : Dev) (code cls src a b : Nat) :
    (d.raise code cls src a b).banks = d.banks := by
  simp [Dev.raise]
@[simp] theorem Dev.raise_strings (d : Dev) (code cls src a b : Nat) :
    (d.raise code cls src a b).strings = d.strings := by
  simp [Dev.raise]
@[simp] theorem Dev.raise_shelf (d : Dev) (code cls src a b : Nat) :
    (d.raise code cls src a b).shelf = d.shelf := by
  simp [Dev.raise]
@[simp] theorem Dev.raise_tt (d : Dev) (code cls src a b : Nat) :
    (d.raise code cls src a b).tt = d.tt := by
  simp [Dev.raise]
@[simp] theorem Dev.raise_pmbus (d : Dev) (code cls src a b : Nat) :
    (d.raise code cls src a b).pmbus = d.pmbus := by
  simp [Dev.raise]
@[simp] theorem Dev.raise_avs (d : Dev) (code cls src a b : Nat) :
    (d.raise code cls src a b).avs = d.avs := by
  simp [Dev.raise]
@[simp] theorem Dev.raise_tap (d : Dev) (code cls src a b : Nat) :
    (d.raise code cls src a b).tap = d.tap := by
  simp [Dev.raise]
@[simp] theorem Dev.raise_startCount (d : Dev) (code cls src a b : Nat) :
    (d.raise code cls src a b).startCount = d.startCount := by
  simp [Dev.raise]
@[simp] theorem Dev.raise_fresh (d : Dev) (code cls src a b : Nat) :
    (d.raise code cls src a b).fresh = d.fresh := by
  simp [Dev.raise]

/-! ### Dev.putCompletion -/

@[simp] theorem Dev.putCompletion_core (d : Dev) (n w : Nat) (b : List Byte) (a : Bool) :
    (d.putCompletion n w b a).core = d.core := by
  unfold Dev.putCompletion; dsimp only; (repeat' split) <;> simp
@[simp] theorem Dev.putCompletion_ka (d : Dev) (n w : Nat) (b : List Byte) (a : Bool) :
    (d.putCompletion n w b a).ka = d.ka := by
  unfold Dev.putCompletion; dsimp only; (repeat' split) <;> simp
@[simp] theorem Dev.putCompletion_cfg (d : Dev) (n w : Nat) (b : List Byte) (a : Bool) :
    (d.putCompletion n w b a).cfg = d.cfg := by
  unfold Dev.putCompletion; dsimp only; (repeat' split) <;> simp
@[simp] theorem Dev.putCompletion_book (d : Dev) (n w : Nat) (b : List Byte) (a : Bool) :
    (d.putCompletion n w b a).book = d.book := by
  unfold Dev.putCompletion; dsimp only; (repeat' split) <;> simp
@[simp] theorem Dev.putCompletion_ledger (d : Dev) (n w : Nat) (b : List Byte) (a : Bool) :
    (d.putCompletion n w b a).ledger = d.ledger := by
  unfold Dev.putCompletion; dsimp only; (repeat' split) <;> simp
@[simp] theorem Dev.putCompletion_sp (d : Dev) (n w : Nat) (b : List Byte) (a : Bool) :
    (d.putCompletion n w b a).sp = d.sp := by
  unfold Dev.putCompletion; dsimp only; (repeat' split) <;> simp
@[simp] theorem Dev.putCompletion_office (d : Dev) (n w : Nat) (b : List Byte) (a : Bool) :
    (d.putCompletion n w b a).office = d.office := by
  unfold Dev.putCompletion; dsimp only; (repeat' split) <;> simp
@[simp] theorem Dev.putCompletion_il (d : Dev) (n w : Nat) (b : List Byte) (a : Bool) :
    (d.putCompletion n w b a).il = d.il := by
  unfold Dev.putCompletion; dsimp only; (repeat' split) <;> simp
@[simp] theorem Dev.putCompletion_tr (d : Dev) (n w : Nat) (b : List Byte) (a : Bool) :
    (d.putCompletion n w b a).tr = d.tr := by
  unfold Dev.putCompletion; dsimp only; (repeat' split) <;> simp
@[simp] theorem Dev.putCompletion_sars (d : Dev) (n w : Nat) (b : List Byte) (a : Bool) :
    (d.putCompletion n w b a).sars = d.sars := by
  unfold Dev.putCompletion; dsimp only; (repeat' split) <;> simp
@[simp] theorem Dev.putCompletion_ccs (d : Dev) (n w : Nat) (b : List Byte) (a : Bool) :
    (d.putCompletion n w b a).ccs = d.ccs := by
  unfold Dev.putCompletion; dsimp only; (repeat' split) <;> simp
@[simp] theorem Dev.putCompletion_house (d : Dev) (n w : Nat) (b : List Byte) (a : Bool) :
    (d.putCompletion n w b a).house = d.house := by
  unfold Dev.putCompletion; dsimp only; (repeat' split) <;> simp
@[simp] theorem Dev.putCompletion_cps (d : Dev) (n w : Nat) (b : List Byte) (a : Bool) :
    (d.putCompletion n w b a).cps = d.cps := by
  unfold Dev.putCompletion; dsimp only; (repeat' split) <;> simp
@[simp] theorem Dev.putCompletion_drv (d : Dev) (n w : Nat) (b : List Byte) (a : Bool) :
    (d.putCompletion n w b a).drv = d.drv := by
  unfold Dev.putCompletion; dsimp only; (repeat' split) <;> simp
@[simp] theorem Dev.putCompletion_trip (d : Dev) (n w : Nat) (b : List Byte) (a : Bool) :
    (d.putCompletion n w b a).trip = d.trip := by
  unfold Dev.putCompletion; dsimp only; (repeat' split) <;> simp
@[simp] theorem Dev.putCompletion_fuse (d : Dev) (n w : Nat) (b : List Byte) (a : Bool) :
    (d.putCompletion n w b a).fuse = d.fuse := by
  unfold Dev.putCompletion; dsimp only; (repeat' split) <;> simp
@[simp] theorem Dev.putCompletion_bge (d : Dev) (n w : Nat) (b : List Byte) (a : Bool) :
    (d.putCompletion n w b a).bge = d.bge := by
  unfold Dev.putCompletion; dsimp only; (repeat' split) <;> simp
@[simp] theorem Dev.putCompletion_groups (d : Dev) (n w : Nat) (b : List Byte) (a : Bool) :
    (d.putCompletion n w b a).groups = d.groups := by
  unfold Dev.putCompletion; dsimp only; (repeat' split) <;> simp
@[simp] theorem Dev.putCompletion_legs (d : Dev) (n w : Nat) (b : List Byte) (a : Bool) :
    (d.putCompletion n w b a).legs = d.legs := by
  unfold Dev.putCompletion; dsimp only; (repeat' split) <;> simp
@[simp] theorem Dev.putCompletion_sup (d : Dev) (n w : Nat) (b : List Byte) (a : Bool) :
    (d.putCompletion n w b a).sup = d.sup := by
  unfold Dev.putCompletion; dsimp only; (repeat' split) <;> simp
@[simp] theorem Dev.putCompletion_feeds (d : Dev) (n w : Nat) (b : List Byte) (a : Bool) :
    (d.putCompletion n w b a).feeds = d.feeds := by
  unfold Dev.putCompletion; dsimp only; (repeat' split) <;> simp
@[simp] theorem Dev.putCompletion_branches (d : Dev) (n w : Nat) (b : List Byte) (a : Bool) :
    (d.putCompletion n w b a).branches = d.branches := by
  unfold Dev.putCompletion; dsimp only; (repeat' split) <;> simp
@[simp] theorem Dev.putCompletion_banks (d : Dev) (n w : Nat) (b : List Byte) (a : Bool) :
    (d.putCompletion n w b a).banks = d.banks := by
  unfold Dev.putCompletion; dsimp only; (repeat' split) <;> simp
@[simp] theorem Dev.putCompletion_strings (d : Dev) (n w : Nat) (b : List Byte) (a : Bool) :
    (d.putCompletion n w b a).strings = d.strings := by
  unfold Dev.putCompletion; dsimp only; (repeat' split) <;> simp
@[simp] theorem Dev.putCompletion_shelf (d : Dev) (n w : Nat) (b : List Byte) (a : Bool) :
    (d.putCompletion n w b a).shelf = d.shelf := by
  unfold Dev.putCompletion; dsimp only; (repeat' split) <;> simp
@[simp] theorem Dev.putCompletion_tt (d : Dev) (n w : Nat) (b : List Byte) (a : Bool) :
    (d.putCompletion n w b a).tt = d.tt := by
  unfold Dev.putCompletion; dsimp only; (repeat' split) <;> simp
@[simp] theorem Dev.putCompletion_pmbus (d : Dev) (n w : Nat) (b : List Byte) (a : Bool) :
    (d.putCompletion n w b a).pmbus = d.pmbus := by
  unfold Dev.putCompletion; dsimp only; (repeat' split) <;> simp
@[simp] theorem Dev.putCompletion_avs (d : Dev) (n w : Nat) (b : List Byte) (a : Bool) :
    (d.putCompletion n w b a).avs = d.avs := by
  unfold Dev.putCompletion; dsimp only; (repeat' split) <;> simp
@[simp] theorem Dev.putCompletion_tap (d : Dev) (n w : Nat) (b : List Byte) (a : Bool) :
    (d.putCompletion n w b a).tap = d.tap := by
  unfold Dev.putCompletion; dsimp only; (repeat' split) <;> simp
@[simp] theorem Dev.putCompletion_startCount (d : Dev) (n w : Nat) (b : List Byte) (a : Bool) :
    (d.putCompletion n w b a).startCount = d.startCount := by
  unfold Dev.putCompletion; dsimp only; (repeat' split) <;> simp
@[simp] theorem Dev.putCompletion_due (d : Dev) (n w : Nat) (b : List Byte) (a : Bool) :
    (d.putCompletion n w b a).due = d.due := by
  unfold Dev.putCompletion; dsimp only; (repeat' split) <;> simp
@[simp] theorem Dev.putCompletion_fresh (d : Dev) (n w : Nat) (b : List Byte) (a : Bool) :
    (d.putCompletion n w b a).fresh = d.fresh := by
  unfold Dev.putCompletion; dsimp only; (repeat' split) <;> simp

/-! ### Dev.postCompletion -/

@[simp] theorem Dev.postCompletion_core (d : Dev) (op : Nat) (c : Desc) (r : Bool) (st dn tl : Nat) (rs : List Nat) :
    (d.postCompletion op c r st dn tl rs).core = d.core := by
  unfold Dev.postCompletion; dsimp only; split <;> simp
@[simp] theorem Dev.postCompletion_ka (d : Dev) (op : Nat) (c : Desc) (r : Bool) (st dn tl : Nat) (rs : List Nat) :
    (d.postCompletion op c r st dn tl rs).ka = d.ka := by
  unfold Dev.postCompletion; dsimp only; split <;> simp
@[simp] theorem Dev.postCompletion_cfg (d : Dev) (op : Nat) (c : Desc) (r : Bool) (st dn tl : Nat) (rs : List Nat) :
    (d.postCompletion op c r st dn tl rs).cfg = d.cfg := by
  unfold Dev.postCompletion; dsimp only; split <;> simp
@[simp] theorem Dev.postCompletion_book (d : Dev) (op : Nat) (c : Desc) (r : Bool) (st dn tl : Nat) (rs : List Nat) :
    (d.postCompletion op c r st dn tl rs).book = d.book := by
  unfold Dev.postCompletion; dsimp only; split <;> simp
@[simp] theorem Dev.postCompletion_ledger (d : Dev) (op : Nat) (c : Desc) (r : Bool) (st dn tl : Nat) (rs : List Nat) :
    (d.postCompletion op c r st dn tl rs).ledger = d.ledger := by
  unfold Dev.postCompletion; dsimp only; split <;> simp
@[simp] theorem Dev.postCompletion_sp (d : Dev) (op : Nat) (c : Desc) (r : Bool) (st dn tl : Nat) (rs : List Nat) :
    (d.postCompletion op c r st dn tl rs).sp = d.sp := by
  unfold Dev.postCompletion; dsimp only; split <;> simp
@[simp] theorem Dev.postCompletion_office (d : Dev) (op : Nat) (c : Desc) (r : Bool) (st dn tl : Nat) (rs : List Nat) :
    (d.postCompletion op c r st dn tl rs).office = d.office := by
  unfold Dev.postCompletion; dsimp only; split <;> simp
@[simp] theorem Dev.postCompletion_il (d : Dev) (op : Nat) (c : Desc) (r : Bool) (st dn tl : Nat) (rs : List Nat) :
    (d.postCompletion op c r st dn tl rs).il = d.il := by
  unfold Dev.postCompletion; dsimp only; split <;> simp
@[simp] theorem Dev.postCompletion_tr (d : Dev) (op : Nat) (c : Desc) (r : Bool) (st dn tl : Nat) (rs : List Nat) :
    (d.postCompletion op c r st dn tl rs).tr = d.tr := by
  unfold Dev.postCompletion; dsimp only; split <;> simp
@[simp] theorem Dev.postCompletion_sars (d : Dev) (op : Nat) (c : Desc) (r : Bool) (st dn tl : Nat) (rs : List Nat) :
    (d.postCompletion op c r st dn tl rs).sars = d.sars := by
  unfold Dev.postCompletion; dsimp only; split <;> simp
@[simp] theorem Dev.postCompletion_ccs (d : Dev) (op : Nat) (c : Desc) (r : Bool) (st dn tl : Nat) (rs : List Nat) :
    (d.postCompletion op c r st dn tl rs).ccs = d.ccs := by
  unfold Dev.postCompletion; dsimp only; split <;> simp
@[simp] theorem Dev.postCompletion_house (d : Dev) (op : Nat) (c : Desc) (r : Bool) (st dn tl : Nat) (rs : List Nat) :
    (d.postCompletion op c r st dn tl rs).house = d.house := by
  unfold Dev.postCompletion; dsimp only; split <;> simp
@[simp] theorem Dev.postCompletion_cps (d : Dev) (op : Nat) (c : Desc) (r : Bool) (st dn tl : Nat) (rs : List Nat) :
    (d.postCompletion op c r st dn tl rs).cps = d.cps := by
  unfold Dev.postCompletion; dsimp only; split <;> simp
@[simp] theorem Dev.postCompletion_drv (d : Dev) (op : Nat) (c : Desc) (r : Bool) (st dn tl : Nat) (rs : List Nat) :
    (d.postCompletion op c r st dn tl rs).drv = d.drv := by
  unfold Dev.postCompletion; dsimp only; split <;> simp
@[simp] theorem Dev.postCompletion_trip (d : Dev) (op : Nat) (c : Desc) (r : Bool) (st dn tl : Nat) (rs : List Nat) :
    (d.postCompletion op c r st dn tl rs).trip = d.trip := by
  unfold Dev.postCompletion; dsimp only; split <;> simp
@[simp] theorem Dev.postCompletion_fuse (d : Dev) (op : Nat) (c : Desc) (r : Bool) (st dn tl : Nat) (rs : List Nat) :
    (d.postCompletion op c r st dn tl rs).fuse = d.fuse := by
  unfold Dev.postCompletion; dsimp only; split <;> simp
@[simp] theorem Dev.postCompletion_bge (d : Dev) (op : Nat) (c : Desc) (r : Bool) (st dn tl : Nat) (rs : List Nat) :
    (d.postCompletion op c r st dn tl rs).bge = d.bge := by
  unfold Dev.postCompletion; dsimp only; split <;> simp
@[simp] theorem Dev.postCompletion_groups (d : Dev) (op : Nat) (c : Desc) (r : Bool) (st dn tl : Nat) (rs : List Nat) :
    (d.postCompletion op c r st dn tl rs).groups = d.groups := by
  unfold Dev.postCompletion; dsimp only; split <;> simp
@[simp] theorem Dev.postCompletion_legs (d : Dev) (op : Nat) (c : Desc) (r : Bool) (st dn tl : Nat) (rs : List Nat) :
    (d.postCompletion op c r st dn tl rs).legs = d.legs := by
  unfold Dev.postCompletion; dsimp only; split <;> simp
@[simp] theorem Dev.postCompletion_sup (d : Dev) (op : Nat) (c : Desc) (r : Bool) (st dn tl : Nat) (rs : List Nat) :
    (d.postCompletion op c r st dn tl rs).sup = d.sup := by
  unfold Dev.postCompletion; dsimp only; split <;> simp
@[simp] theorem Dev.postCompletion_feeds (d : Dev) (op : Nat) (c : Desc) (r : Bool) (st dn tl : Nat) (rs : List Nat) :
    (d.postCompletion op c r st dn tl rs).feeds = d.feeds := by
  unfold Dev.postCompletion; dsimp only; split <;> simp
@[simp] theorem Dev.postCompletion_branches (d : Dev) (op : Nat) (c : Desc) (r : Bool) (st dn tl : Nat) (rs : List Nat) :
    (d.postCompletion op c r st dn tl rs).branches = d.branches := by
  unfold Dev.postCompletion; dsimp only; split <;> simp
@[simp] theorem Dev.postCompletion_banks (d : Dev) (op : Nat) (c : Desc) (r : Bool) (st dn tl : Nat) (rs : List Nat) :
    (d.postCompletion op c r st dn tl rs).banks = d.banks := by
  unfold Dev.postCompletion; dsimp only; split <;> simp
@[simp] theorem Dev.postCompletion_strings (d : Dev) (op : Nat) (c : Desc) (r : Bool) (st dn tl : Nat) (rs : List Nat) :
    (d.postCompletion op c r st dn tl rs).strings = d.strings := by
  unfold Dev.postCompletion; dsimp only; split <;> simp
@[simp] theorem Dev.postCompletion_shelf (d : Dev) (op : Nat) (c : Desc) (r : Bool) (st dn tl : Nat) (rs : List Nat) :
    (d.postCompletion op c r st dn tl rs).shelf = d.shelf := by
  unfold Dev.postCompletion; dsimp only; split <;> simp
@[simp] theorem Dev.postCompletion_tt (d : Dev) (op : Nat) (c : Desc) (r : Bool) (st dn tl : Nat) (rs : List Nat) :
    (d.postCompletion op c r st dn tl rs).tt = d.tt := by
  unfold Dev.postCompletion; dsimp only; split <;> simp
@[simp] theorem Dev.postCompletion_pmbus (d : Dev) (op : Nat) (c : Desc) (r : Bool) (st dn tl : Nat) (rs : List Nat) :
    (d.postCompletion op c r st dn tl rs).pmbus = d.pmbus := by
  unfold Dev.postCompletion; dsimp only; split <;> simp
@[simp] theorem Dev.postCompletion_avs (d : Dev) (op : Nat) (c : Desc) (r : Bool) (st dn tl : Nat) (rs : List Nat) :
    (d.postCompletion op c r st dn tl rs).avs = d.avs := by
  unfold Dev.postCompletion; dsimp only; split <;> simp
@[simp] theorem Dev.postCompletion_tap (d : Dev) (op : Nat) (c : Desc) (r : Bool) (st dn tl : Nat) (rs : List Nat) :
    (d.postCompletion op c r st dn tl rs).tap = d.tap := by
  unfold Dev.postCompletion; dsimp only; split <;> simp
@[simp] theorem Dev.postCompletion_startCount (d : Dev) (op : Nat) (c : Desc) (r : Bool) (st dn tl : Nat) (rs : List Nat) :
    (d.postCompletion op c r st dn tl rs).startCount = d.startCount := by
  unfold Dev.postCompletion; dsimp only; split <;> simp
@[simp] theorem Dev.postCompletion_due (d : Dev) (op : Nat) (c : Desc) (r : Bool) (st dn tl : Nat) (rs : List Nat) :
    (d.postCompletion op c r st dn tl rs).due = d.due := by
  unfold Dev.postCompletion; dsimp only; split <;> simp
@[simp] theorem Dev.postCompletion_fresh (d : Dev) (op : Nat) (c : Desc) (r : Bool) (st dn tl : Nat) (rs : List Nat) :
    (d.postCompletion op c r st dn tl rs).fresh = d.fresh := by
  unfold Dev.postCompletion; dsimp only; split <;> simp

/-! ### Dev.finish -/

@[simp] theorem Dev.finish_core (d : Dev) (k st : Nat) (rs : List Nat) :
    (d.finish k st rs).core = d.core := by
  unfold Dev.finish; split
  · rfl
  · dsimp only; split <;> split <;> simp
@[simp] theorem Dev.finish_ka (d : Dev) (k st : Nat) (rs : List Nat) :
    (d.finish k st rs).ka = d.ka := by
  unfold Dev.finish; split
  · rfl
  · dsimp only; split <;> split <;> simp
@[simp] theorem Dev.finish_cfg (d : Dev) (k st : Nat) (rs : List Nat) :
    (d.finish k st rs).cfg = d.cfg := by
  unfold Dev.finish; split
  · rfl
  · dsimp only; split <;> split <;> simp
@[simp] theorem Dev.finish_book (d : Dev) (k st : Nat) (rs : List Nat) :
    (d.finish k st rs).book = d.book := by
  unfold Dev.finish; split
  · rfl
  · dsimp only; split <;> split <;> simp
@[simp] theorem Dev.finish_sp (d : Dev) (k st : Nat) (rs : List Nat) :
    (d.finish k st rs).sp = d.sp := by
  unfold Dev.finish; split
  · rfl
  · dsimp only; split <;> split <;> simp
@[simp] theorem Dev.finish_office (d : Dev) (k st : Nat) (rs : List Nat) :
    (d.finish k st rs).office = d.office := by
  unfold Dev.finish; split
  · rfl
  · dsimp only; split <;> split <;> simp
@[simp] theorem Dev.finish_il (d : Dev) (k st : Nat) (rs : List Nat) :
    (d.finish k st rs).il = d.il := by
  unfold Dev.finish; split
  · rfl
  · dsimp only; split <;> split <;> simp
@[simp] theorem Dev.finish_tr (d : Dev) (k st : Nat) (rs : List Nat) :
    (d.finish k st rs).tr = d.tr := by
  unfold Dev.finish; split
  · rfl
  · dsimp only; split <;> split <;> simp
@[simp] theorem Dev.finish_sars (d : Dev) (k st : Nat) (rs : List Nat) :
    (d.finish k st rs).sars = d.sars := by
  unfold Dev.finish; split
  · rfl
  · dsimp only; split <;> split <;> simp
@[simp] theorem Dev.finish_ccs (d : Dev) (k st : Nat) (rs : List Nat) :
    (d.finish k st rs).ccs = d.ccs := by
  unfold Dev.finish; split
  · rfl
  · dsimp only; split <;> split <;> simp
@[simp] theorem Dev.finish_house (d : Dev) (k st : Nat) (rs : List Nat) :
    (d.finish k st rs).house = d.house := by
  unfold Dev.finish; split
  · rfl
  · dsimp only; split <;> split <;> simp
@[simp] theorem Dev.finish_cps (d : Dev) (k st : Nat) (rs : List Nat) :
    (d.finish k st rs).cps = d.cps := by
  unfold Dev.finish; split
  · rfl
  · dsimp only; split <;> split <;> simp
@[simp] theorem Dev.finish_drv (d : Dev) (k st : Nat) (rs : List Nat) :
    (d.finish k st rs).drv = d.drv := by
  unfold Dev.finish; split
  · rfl
  · dsimp only; split <;> split <;> simp
@[simp] theorem Dev.finish_trip (d : Dev) (k st : Nat) (rs : List Nat) :
    (d.finish k st rs).trip = d.trip := by
  unfold Dev.finish; split
  · rfl
  · dsimp only; split <;> split <;> simp
@[simp] theorem Dev.finish_fuse (d : Dev) (k st : Nat) (rs : List Nat) :
    (d.finish k st rs).fuse = d.fuse := by
  unfold Dev.finish; split
  · rfl
  · dsimp only; split <;> split <;> simp
@[simp] theorem Dev.finish_bge (d : Dev) (k st : Nat) (rs : List Nat) :
    (d.finish k st rs).bge = d.bge := by
  unfold Dev.finish; split
  · rfl
  · dsimp only; split <;> split <;> simp
@[simp] theorem Dev.finish_groups (d : Dev) (k st : Nat) (rs : List Nat) :
    (d.finish k st rs).groups = d.groups := by
  unfold Dev.finish; split
  · rfl
  · dsimp only; split <;> split <;> simp
@[simp] theorem Dev.finish_legs (d : Dev) (k st : Nat) (rs : List Nat) :
    (d.finish k st rs).legs = d.legs := by
  unfold Dev.finish; split
  · rfl
  · dsimp only; split <;> split <;> simp
@[simp] theorem Dev.finish_sup (d : Dev) (k st : Nat) (rs : List Nat) :
    (d.finish k st rs).sup = d.sup := by
  unfold Dev.finish; split
  · rfl
  · dsimp only; split <;> split <;> simp
@[simp] theorem Dev.finish_feeds (d : Dev) (k st : Nat) (rs : List Nat) :
    (d.finish k st rs).feeds = d.feeds := by
  unfold Dev.finish; split
  · rfl
  · dsimp only; split <;> split <;> simp
@[simp] theorem Dev.finish_branches (d : Dev) (k st : Nat) (rs : List Nat) :
    (d.finish k st rs).branches = d.branches := by
  unfold Dev.finish; split
  · rfl
  · dsimp only; split <;> split <;> simp
@[simp] theorem Dev.finish_banks (d : Dev) (k st : Nat) (rs : List Nat) :
    (d.finish k st rs).banks = d.banks := by
  unfold Dev.finish; split
  · rfl
  · dsimp only; split <;> split <;> simp
@[simp] theorem Dev.finish_strings (d : Dev) (k st : Nat) (rs : List Nat) :
    (d.finish k st rs).strings = d.strings := by
  unfold Dev.finish; split
  · rfl
  · dsimp only; split <;> split <;> simp
@[simp] theorem Dev.finish_shelf (d : Dev) (k st : Nat) (rs : List Nat) :
    (d.finish k st rs).shelf = d.shelf := by
  unfold Dev.finish; split
  · rfl
  · dsimp only; split <;> split <;> simp
@[simp] theorem Dev.finish_tt (d : Dev) (k st : Nat) (rs : List Nat) :
    (d.finish k st rs).tt = d.tt := by
  unfold Dev.finish; split
  · rfl
  · dsimp only; split <;> split <;> simp
@[simp] theorem Dev.finish_pmbus (d : Dev) (k st : Nat) (rs : List Nat) :
    (d.finish k st rs).pmbus = d.pmbus := by
  unfold Dev.finish; split
  · rfl
  · dsimp only; split <;> split <;> simp
@[simp] theorem Dev.finish_avs (d : Dev) (k st : Nat) (rs : List Nat) :
    (d.finish k st rs).avs = d.avs := by
  unfold Dev.finish; split
  · rfl
  · dsimp only; split <;> split <;> simp
@[simp] theorem Dev.finish_tap (d : Dev) (k st : Nat) (rs : List Nat) :
    (d.finish k st rs).tap = d.tap := by
  unfold Dev.finish; split
  · rfl
  · dsimp only; split <;> split <;> simp
@[simp] theorem Dev.finish_startCount (d : Dev) (k st : Nat) (rs : List Nat) :
    (d.finish k st rs).startCount = d.startCount := by
  unfold Dev.finish; split
  · rfl
  · dsimp only; split <;> split <;> simp
@[simp] theorem Dev.finish_fresh (d : Dev) (k st : Nat) (rs : List Nat) :
    (d.finish k st rs).fresh = d.fresh := by
  unfold Dev.finish; split
  · rfl
  · dsimp only; split <;> split <;> simp

/-! ### Dev.commit -/

@[simp] theorem Dev.commit_core (d : Dev) (k n : Nat) :
    (d.commit k n).core = d.core := by
  unfold Dev.commit; split
  · rfl
  · dsimp only; split <;> split <;> simp
@[simp] theorem Dev.commit_ka (d : Dev) (k n : Nat) :
    (d.commit k n).ka = d.ka := by
  unfold Dev.commit; split
  · rfl
  · dsimp only; split <;> split <;> simp
@[simp] theorem Dev.commit_cfg (d : Dev) (k n : Nat) :
    (d.commit k n).cfg = d.cfg := by
  unfold Dev.commit; split
  · rfl
  · dsimp only; split <;> split <;> simp
@[simp] theorem Dev.commit_book (d : Dev) (k n : Nat) :
    (d.commit k n).book = d.book := by
  unfold Dev.commit; split
  · rfl
  · dsimp only; split <;> split <;> simp
@[simp] theorem Dev.commit_sp (d : Dev) (k n : Nat) :
    (d.commit k n).sp = d.sp := by
  unfold Dev.commit; split
  · rfl
  · dsimp only; split <;> split <;> simp
@[simp] theorem Dev.commit_office (d : Dev) (k n : Nat) :
    (d.commit k n).office = d.office := by
  unfold Dev.commit; split
  · rfl
  · dsimp only; split <;> split <;> simp
@[simp] theorem Dev.commit_il (d : Dev) (k n : Nat) :
    (d.commit k n).il = d.il := by
  unfold Dev.commit; split
  · rfl
  · dsimp only; split <;> split <;> simp
@[simp] theorem Dev.commit_tr (d : Dev) (k n : Nat) :
    (d.commit k n).tr = d.tr := by
  unfold Dev.commit; split
  · rfl
  · dsimp only; split <;> split <;> simp
@[simp] theorem Dev.commit_sars (d : Dev) (k n : Nat) :
    (d.commit k n).sars = d.sars := by
  unfold Dev.commit; split
  · rfl
  · dsimp only; split <;> split <;> simp
@[simp] theorem Dev.commit_ccs (d : Dev) (k n : Nat) :
    (d.commit k n).ccs = d.ccs := by
  unfold Dev.commit; split
  · rfl
  · dsimp only; split <;> split <;> simp
@[simp] theorem Dev.commit_house (d : Dev) (k n : Nat) :
    (d.commit k n).house = d.house := by
  unfold Dev.commit; split
  · rfl
  · dsimp only; split <;> split <;> simp
@[simp] theorem Dev.commit_cps (d : Dev) (k n : Nat) :
    (d.commit k n).cps = d.cps := by
  unfold Dev.commit; split
  · rfl
  · dsimp only; split <;> split <;> simp
@[simp] theorem Dev.commit_drv (d : Dev) (k n : Nat) :
    (d.commit k n).drv = d.drv := by
  unfold Dev.commit; split
  · rfl
  · dsimp only; split <;> split <;> simp
@[simp] theorem Dev.commit_trip (d : Dev) (k n : Nat) :
    (d.commit k n).trip = d.trip := by
  unfold Dev.commit; split
  · rfl
  · dsimp only; split <;> split <;> simp
@[simp] theorem Dev.commit_fuse (d : Dev) (k n : Nat) :
    (d.commit k n).fuse = d.fuse := by
  unfold Dev.commit; split
  · rfl
  · dsimp only; split <;> split <;> simp
@[simp] theorem Dev.commit_bge (d : Dev) (k n : Nat) :
    (d.commit k n).bge = d.bge := by
  unfold Dev.commit; split
  · rfl
  · dsimp only; split <;> split <;> simp
@[simp] theorem Dev.commit_groups (d : Dev) (k n : Nat) :
    (d.commit k n).groups = d.groups := by
  unfold Dev.commit; split
  · rfl
  · dsimp only; split <;> split <;> simp
@[simp] theorem Dev.commit_legs (d : Dev) (k n : Nat) :
    (d.commit k n).legs = d.legs := by
  unfold Dev.commit; split
  · rfl
  · dsimp only; split <;> split <;> simp
@[simp] theorem Dev.commit_sup (d : Dev) (k n : Nat) :
    (d.commit k n).sup = d.sup := by
  unfold Dev.commit; split
  · rfl
  · dsimp only; split <;> split <;> simp
@[simp] theorem Dev.commit_feeds (d : Dev) (k n : Nat) :
    (d.commit k n).feeds = d.feeds := by
  unfold Dev.commit; split
  · rfl
  · dsimp only; split <;> split <;> simp
@[simp] theorem Dev.commit_branches (d : Dev) (k n : Nat) :
    (d.commit k n).branches = d.branches := by
  unfold Dev.commit; split
  · rfl
  · dsimp only; split <;> split <;> simp
@[simp] theorem Dev.commit_banks (d : Dev) (k n : Nat) :
    (d.commit k n).banks = d.banks := by
  unfold Dev.commit; split
  · rfl
  · dsimp only; split <;> split <;> simp
@[simp] theorem Dev.commit_strings (d : Dev) (k n : Nat) :
    (d.commit k n).strings = d.strings := by
  unfold Dev.commit; split
  · rfl
  · dsimp only; split <;> split <;> simp
@[simp] theorem Dev.commit_shelf (d : Dev) (k n : Nat) :
    (d.commit k n).shelf = d.shelf := by
  unfold Dev.commit; split
  · rfl
  · dsimp only; split <;> split <;> simp
@[simp] theorem Dev.commit_tt (d : Dev) (k n : Nat) :
    (d.commit k n).tt = d.tt := by
  unfold Dev.commit; split
  · rfl
  · dsimp only; split <;> split <;> simp
@[simp] theorem Dev.commit_pmbus (d : Dev) (k n : Nat) :
    (d.commit k n).pmbus = d.pmbus := by
  unfold Dev.commit; split
  · rfl
  · dsimp only; split <;> split <;> simp
@[simp] theorem Dev.commit_avs (d : Dev) (k n : Nat) :
    (d.commit k n).avs = d.avs := by
  unfold Dev.commit; split
  · rfl
  · dsimp only; split <;> split <;> simp
@[simp] theorem Dev.commit_tap (d : Dev) (k n : Nat) :
    (d.commit k n).tap = d.tap := by
  unfold Dev.commit; split
  · rfl
  · dsimp only; split <;> split <;> simp
@[simp] theorem Dev.commit_startCount (d : Dev) (k n : Nat) :
    (d.commit k n).startCount = d.startCount := by
  unfold Dev.commit; split
  · rfl
  · dsimp only; split <;> split <;> simp
@[simp] theorem Dev.commit_out (d : Dev) (k n : Nat) :
    (d.commit k n).out = d.out := by
  unfold Dev.commit; split
  · rfl
  · dsimp only; split <;> split <;> simp
@[simp] theorem Dev.commit_fresh (d : Dev) (k n : Nat) :
    (d.commit k n).fresh = d.fresh := by
  unfold Dev.commit; split
  · rfl
  · dsimp only; split <;> split <;> simp

/-! ### Dev.commitAll -/

@[simp] theorem Dev.commitAll_core (d : Dev) (k st : Nat) (rs : List Nat) :
    (d.commitAll k st rs).core = d.core := by
  unfold Dev.commitAll; split <;> simp
@[simp] theorem Dev.commitAll_ka (d : Dev) (k st : Nat) (rs : List Nat) :
    (d.commitAll k st rs).ka = d.ka := by
  unfold Dev.commitAll; split <;> simp
@[simp] theorem Dev.commitAll_cfg (d : Dev) (k st : Nat) (rs : List Nat) :
    (d.commitAll k st rs).cfg = d.cfg := by
  unfold Dev.commitAll; split <;> simp
@[simp] theorem Dev.commitAll_book (d : Dev) (k st : Nat) (rs : List Nat) :
    (d.commitAll k st rs).book = d.book := by
  unfold Dev.commitAll; split <;> simp
@[simp] theorem Dev.commitAll_sp (d : Dev) (k st : Nat) (rs : List Nat) :
    (d.commitAll k st rs).sp = d.sp := by
  unfold Dev.commitAll; split <;> simp
@[simp] theorem Dev.commitAll_office (d : Dev) (k st : Nat) (rs : List Nat) :
    (d.commitAll k st rs).office = d.office := by
  unfold Dev.commitAll; split <;> simp
@[simp] theorem Dev.commitAll_il (d : Dev) (k st : Nat) (rs : List Nat) :
    (d.commitAll k st rs).il = d.il := by
  unfold Dev.commitAll; split <;> simp
@[simp] theorem Dev.commitAll_tr (d : Dev) (k st : Nat) (rs : List Nat) :
    (d.commitAll k st rs).tr = d.tr := by
  unfold Dev.commitAll; split <;> simp
@[simp] theorem Dev.commitAll_sars (d : Dev) (k st : Nat) (rs : List Nat) :
    (d.commitAll k st rs).sars = d.sars := by
  unfold Dev.commitAll; split <;> simp
@[simp] theorem Dev.commitAll_ccs (d : Dev) (k st : Nat) (rs : List Nat) :
    (d.commitAll k st rs).ccs = d.ccs := by
  unfold Dev.commitAll; split <;> simp
@[simp] theorem Dev.commitAll_house (d : Dev) (k st : Nat) (rs : List Nat) :
    (d.commitAll k st rs).house = d.house := by
  unfold Dev.commitAll; split <;> simp
@[simp] theorem Dev.commitAll_cps (d : Dev) (k st : Nat) (rs : List Nat) :
    (d.commitAll k st rs).cps = d.cps := by
  unfold Dev.commitAll; split <;> simp
@[simp] theorem Dev.commitAll_drv (d : Dev) (k st : Nat) (rs : List Nat) :
    (d.commitAll k st rs).drv = d.drv := by
  unfold Dev.commitAll; split <;> simp
@[simp] theorem Dev.commitAll_trip (d : Dev) (k st : Nat) (rs : List Nat) :
    (d.commitAll k st rs).trip = d.trip := by
  unfold Dev.commitAll; split <;> simp
@[simp] theorem Dev.commitAll_fuse (d : Dev) (k st : Nat) (rs : List Nat) :
    (d.commitAll k st rs).fuse = d.fuse := by
  unfold Dev.commitAll; split <;> simp
@[simp] theorem Dev.commitAll_bge (d : Dev) (k st : Nat) (rs : List Nat) :
    (d.commitAll k st rs).bge = d.bge := by
  unfold Dev.commitAll; split <;> simp
@[simp] theorem Dev.commitAll_groups (d : Dev) (k st : Nat) (rs : List Nat) :
    (d.commitAll k st rs).groups = d.groups := by
  unfold Dev.commitAll; split <;> simp
@[simp] theorem Dev.commitAll_legs (d : Dev) (k st : Nat) (rs : List Nat) :
    (d.commitAll k st rs).legs = d.legs := by
  unfold Dev.commitAll; split <;> simp
@[simp] theorem Dev.commitAll_sup (d : Dev) (k st : Nat) (rs : List Nat) :
    (d.commitAll k st rs).sup = d.sup := by
  unfold Dev.commitAll; split <;> simp
@[simp] theorem Dev.commitAll_feeds (d : Dev) (k st : Nat) (rs : List Nat) :
    (d.commitAll k st rs).feeds = d.feeds := by
  unfold Dev.commitAll; split <;> simp
@[simp] theorem Dev.commitAll_branches (d : Dev) (k st : Nat) (rs : List Nat) :
    (d.commitAll k st rs).branches = d.branches := by
  unfold Dev.commitAll; split <;> simp
@[simp] theorem Dev.commitAll_banks (d : Dev) (k st : Nat) (rs : List Nat) :
    (d.commitAll k st rs).banks = d.banks := by
  unfold Dev.commitAll; split <;> simp
@[simp] theorem Dev.commitAll_strings (d : Dev) (k st : Nat) (rs : List Nat) :
    (d.commitAll k st rs).strings = d.strings := by
  unfold Dev.commitAll; split <;> simp
@[simp] theorem Dev.commitAll_shelf (d : Dev) (k st : Nat) (rs : List Nat) :
    (d.commitAll k st rs).shelf = d.shelf := by
  unfold Dev.commitAll; split <;> simp
@[simp] theorem Dev.commitAll_tt (d : Dev) (k st : Nat) (rs : List Nat) :
    (d.commitAll k st rs).tt = d.tt := by
  unfold Dev.commitAll; split <;> simp
@[simp] theorem Dev.commitAll_pmbus (d : Dev) (k st : Nat) (rs : List Nat) :
    (d.commitAll k st rs).pmbus = d.pmbus := by
  unfold Dev.commitAll; split <;> simp
@[simp] theorem Dev.commitAll_avs (d : Dev) (k st : Nat) (rs : List Nat) :
    (d.commitAll k st rs).avs = d.avs := by
  unfold Dev.commitAll; split <;> simp
@[simp] theorem Dev.commitAll_tap (d : Dev) (k st : Nat) (rs : List Nat) :
    (d.commitAll k st rs).tap = d.tap := by
  unfold Dev.commitAll; split <;> simp
@[simp] theorem Dev.commitAll_startCount (d : Dev) (k st : Nat) (rs : List Nat) :
    (d.commitAll k st rs).startCount = d.startCount := by
  unfold Dev.commitAll; split <;> simp
@[simp] theorem Dev.commitAll_fresh (d : Dev) (k st : Nat) (rs : List Nat) :
    (d.commitAll k st rs).fresh = d.fresh := by
  unfold Dev.commitAll; split <;> simp

/-! ### Room in the Train Register -/

/-- Appending records one after another lengthens the buffer by as many. -/
theorem TrainRegister.append_buffer_length (t : TrainRegister) (rs : List Draft) :
    (t.append rs).buffer.length = t.buffer.length + rs.length := by
  induction rs generalizing t with
  | nil => rfl
  | cons r rs ih => simp [TrainRegister.append, ih]; omega

/-- Appending records advances the next number by as many, and leaves the reserve while it lies far enough ahead
(R343). -/
theorem TrainRegister.append_numbers (t : TrainRegister) (rs : List Draft) (h : t.next + rs.length + 256 < t.reserve) :
    (t.append rs).next = t.next + rs.length ∧ (t.append rs).reserve = t.reserve := by
  induction rs generalizing t with
  | nil => exact ⟨rfl, rfl⟩
  | cons r rs ih =>
    simp only [List.length_cons] at h
    have hk : ¬ (t.next + 1 + 256 ≥ t.reserve) := by omega
    simp only [TrainRegister.append, hk, if_false]
    have := ih { t with buffer := t.buffer ++ [⟨t.next, r.typ, r.stamp, r.payload⟩], next := t.next + 1 }
      (by show t.next + 1 + rs.length + 256 < t.reserve; omega)
    refine ⟨this.1.trans ?_, this.2⟩
    show t.next + 1 + rs.length = t.next + (rs.length + 1)
    omega

/-- Appending records touches neither the flush goal, nor the drop counters, nor the Withdrawn lock. -/
theorem TrainRegister.append_rest (t : TrainRegister) (rs : List Draft) :
    (t.append rs).flushTo = t.flushTo ∧ (t.append rs).dropRun = t.dropRun ∧ (t.append rs).dropped = t.dropped
    ∧ (t.append rs).readOnly = t.readOnly := by
  induction rs generalizing t with
  | nil => simp [TrainRegister.append]
  | cons r rs ih => simp [TrainRegister.append, ih]

/-- With room, a unit of records enters as it is. -/
theorem TrainRegister.enter_roomy (t : TrainRegister) (up : Stamp) (kept : Bool) (rs : List Draft)
    (hr : t.readOnly = false) (hd : t.dropRun = 0) (hl : t.buffer.length + rs.length ≤ 200) :
    t.enter up kept rs = t.append rs := by
  unfold TrainRegister.enter
  have h1 : ¬ (256 - t.buffer.length ≤ 32) := by omega
  have h2 : ¬ (256 - t.buffer.length < rs.length) := by omega
  simp [hr, hd, flag, h1, h2]

/-- With room, a unit of records enters and nothing is owed for it (R342, R346). -/
theorem Dev.record_roomy (d : Dev) (kept : Bool) (rs : List Draft) (h : d.roomFor rs.length) :
    d.record kept rs = { d with tr := d.tr.append rs } := by
  obtain ⟨hr, hd, hl, hf, hb⟩ := h
  have e := TrainRegister.enter_roomy d.tr d.stamp kept rs hr hd hl
  have hx := TrainRegister.append_rest d.tr rs
  have hn := TrainRegister.append_buffer_length d.tr rs
  have hs := TrainRegister.append_numbers d.tr rs hb
  have ho : ({ d with tr := d.tr.append rs } : Dev).fillOwed = false := by
    show decide (bitsOf (d.reg 0x5800) 16 8 ≤ (d.tr.append rs).buffer.length) = false
    rw [hn]; simp; omega
  unfold Dev.record
  simp [e, ho, hx.2.2.1, hs.2]

/-- Room left after a unit of records. -/
theorem Dev.roomFor_record (d : Dev) (kept : Bool) (rs : List Draft) (n : Nat) (h : d.roomFor (rs.length + n)) :
    (d.record kept rs).roomFor n := by
  have h' : d.roomFor rs.length := by
    obtain ⟨a, b, c, e, g⟩ := h
    exact ⟨a, b, by omega, by omega, by omega⟩
  obtain ⟨hr, hd, hl, hf, hb⟩ := h
  have hx := TrainRegister.append_rest d.tr rs
  have hn := TrainRegister.append_buffer_length d.tr rs
  have hs := TrainRegister.append_numbers d.tr rs (by omega)
  rw [Dev.record_roomy d kept rs h']
  refine ⟨hx.2.2.2.trans hr, hx.2.1.trans hd, ?_, ?_, ?_⟩
  · show (d.tr.append rs).buffer.length + n ≤ 200
    omega
  · show (d.tr.append rs).buffer.length + n < bitsOf (d.reg 0x5800) 16 8
    omega
  · show (d.tr.append rs).next + n + 256 < (d.tr.append rs).reserve
    rw [hs.1, hs.2]; omega

/-- With room, an event owes nothing. -/
theorem Dev.raise_due (d : Dev) (code cls src a b : Nat) (h : d.roomFor 1) : (d.raise code cls src a b).due = d.due := by
  have e := Dev.record_roomy d (decide (cls < clsC)) [⟨recEvent, d.stamp, eventPayload src cls code a b false⟩] h
  have p : ∀ (x : Dev) (s c o q : Nat) (g i : Bool) (t : Stamp) (v w : Nat), (x.postEvent s c o q g i t v w).due = x.due :=
    fun x s c o q g i t v w => Dev.postEvent_due x s c o q g i t v w
  simp only [Dev.raise, Dev.raiseInj, p]
  rw [e]

/-- Room left after an event. -/
theorem Dev.roomFor_raise (d : Dev) (code cls src a b n : Nat) (h : d.roomFor (1 + n)) :
    (d.raise code cls src a b).roomFor n := by
  have e := Dev.roomFor_record d (decide (cls < clsC)) [⟨recEvent, d.stamp, eventPayload src cls code a b false⟩] n h
  have ht : (d.raise code cls src a b).tr =
      (d.record (decide (cls < clsC)) [⟨recEvent, d.stamp, eventPayload src cls code a b false⟩]).tr := by
    simp only [Dev.raise, Dev.raiseInj, Dev.postEvent_tr]
  obtain ⟨p, q, r, s, u⟩ := e
  refine ⟨ht ▸ p, ht ▸ q, ht ▸ r, ?_, ht ▸ u⟩
  rw [ht]
  simpa [Dev.reg] using s

end Sys2Proof.Machine
end

