-- ==== Sys2Proof/Laws/Still.lean ====
section
/-! SUPPORT. What keeps a still device still: events, and the end of the one staged command. -/
namespace Sys2Proof.Machine

/-- Room in the Train Register depends on the Train Register and the registers alone. -/
theorem Dev.roomFor_congr (d e : Dev) (n : Nat) (ht : e.tr = d.tr) (hc : e.cfg = d.cfg) (h : d.roomFor n) :
    e.roomFor n := by
  have hr : ∀ o, e.reg o = d.reg o := fun o => by simp [Dev.reg, hc]
  unfold Dev.roomFor at *
  rw [ht, hr]; exact h

/-- An event for which there is room leaves a still device still. -/
theorem Dev.still_raise (d : Dev) (code cls src a b : Nat) (h : d.still) (hr : d.roomFor 1) :
    (d.raise code cls src a b).still := by
  refine Dev.still_congr d _ h (Dev.raise_due d code cls src a b hr) ?_ ?_ ?_ ?_ ?_ ?_ ?_ ?_ ?_ ?_ <;> simp [Dev.raise]

/-- Messages, entries and completions leave the staged commands alone. -/
theorem Dev.message_staged (d : Dev) (v : Nat) : (d.message v).hqi.staged = d.hqi.staged := by
  unfold Dev.message; dsimp only; (repeat' split) <;> rfl

/-- See `Dev.message_staged`. -/
theorem Dev.announce_staged (d : Dev) (v : Nat) (u : Bool) : (d.announce v u).hqi.staged = d.hqi.staged := by
  unfold Dev.announce
  split
  · exact Dev.message_staged d v
  · split
    · rfl
    · exact Dev.message_staged d v

/-- See `Dev.message_staged`. -/
theorem Dev.postCompletion_staged (d : Dev) (op : Nat) (c : Desc) (r : Bool) (s a b : Nat) (l : List Nat) :
    (d.postCompletion op c r s a b l).hqi.staged = d.hqi.staged := by
  unfold Dev.postCompletion; dsimp only
  split
  · rfl
  · unfold Dev.putCompletion; dsimp only
    split
    · split
      · rw [Dev.announce_staged]; rfl
      · rfl
    · rfl

/-- See `Dev.message_staged`. -/
theorem Dev.postEvent_staged (d : Dev) (src cls code seq : Nat) (g i : Bool) (t : Stamp) (a b : Nat) :
    (d.postEvent src cls code seq g i t a b).hqi.staged = d.hqi.staged := by
  unfold Dev.postEvent; dsimp only
  split
  · rfl
  · unfold Dev.writeEvent; dsimp only
    split
    · rw [Dev.announce_staged]; rfl
    · rfl

/-- Records leave the HQI alone. -/
theorem Dev.record_hqi' (d : Dev) (k : Bool) (rs : List Draft) : (d.record k rs).hqi = d.hqi := by simp

/-- Events leave the staged commands alone. -/
@[simp] theorem Dev.raise_staged (d : Dev) (code cls src a b : Nat) :
    (d.raise code cls src a b).hqi.staged = d.hqi.staged := by
  simp only [Dev.raise, Dev.raiseInj, Dev.postEvent_staged, Dev.record_hqi']

/-- The completion of the one staged command owes nothing. -/
theorem Dev.finish_due (d : Dev) (k st : Nat) (rs : List Nat)
    (h : d.hqi.staged.filter (fun e => e.fetch != k) = []) : (d.finish k st rs).due = d.due := by
  unfold Dev.finish
  cases hc : d.cmd k with
  | none => rfl
  | some c =>
    cases he : c.entry with
    | none =>
      simp only [he, Dev.postCompletion_staged]
      rw [if_pos (by rw [h]; rfl), Dev.postCompletion_due]
    | some e =>
      simp only [he, Dev.postCompletion_staged]
      rw [if_pos (by rw [Dev.modEntry_hqi]; dsimp only; rw [h]; rfl), Dev.postCompletion_due]; rfl

/-- So the end of the one staged command leaves a still device still. -/
theorem Dev.still_finish (d : Dev) (k st : Nat) (rs : List Nat)
    (h : d.hqi.staged.filter (fun e => e.fetch != k) = []) (hs : d.still) : (d.finish k st rs).still := by
  refine Dev.still_congr d _ hs (Dev.finish_due d k st rs h) ?_ ?_ ?_ ?_ ?_ ?_ ?_ ?_ ?_ ?_ <;> simp

/-- A commit where one command is staged owes nothing. -/
theorem Dev.commit_due (d : Dev) (k n : Nat) (h : d.hqi.staged.length ≤ 1) : (d.commit k n).due = d.due := by
  unfold Dev.commit
  cases hc : d.cmd k with
  | none => rfl
  | some c =>
    cases he : c.entry <;>
      simp only [he, Dev.modCmd, Dev.modEntry, List.length_map] <;>
      rw [if_neg (by omega)]

/-- A commit keeps the staged commands as they are, but for the count of stages done. -/
theorem Dev.commit_staged (d : Dev) (k n : Nat) :
    (d.commit k n).hqi.staged = match d.cmd k with
      | none => d.hqi.staged
      | some _ => d.hqi.staged.map (fun c => if c.fetch = k then { c with done := n } else c) := by
  unfold Dev.commit
  cases hc : d.cmd k with
  | none => rfl
  | some c =>
    cases he : c.entry <;> simp only [he, Dev.modCmd, Dev.modEntry] <;> split <;> rfl

/-- The last commit and the completion of the one staged command leave a still device still. -/
theorem Dev.still_commitAll (d : Dev) (k st : Nat) (rs : List Nat) (c : OpenCmd) (h : d.hqi.staged = [c])
    (hk : c.fetch = k) (hs : d.still) : (d.commitAll k st rs).still := by
  unfold Dev.commitAll
  cases hc : d.cmd k with
  | none => exact hs
  | some c' =>
    refine Dev.still_finish _ k st rs ?_ ?_
    · rw [Dev.commit_staged, hc]
      simp [h, hk]
    · refine Dev.still_congr d _ hs (Dev.commit_due d k _ (by simp [h])) ?_ ?_ ?_ ?_ ?_ ?_ ?_ ?_ ?_ ?_ <;> simp

end Sys2Proof.Machine
end

