-- ==== Sys2Proof/Laws/Fetch.lean ====
section
/-! SUPPORT. The shared path of a host command: the descriptor that passes its checks alone begins at once. -/
namespace Sys2Proof.Machine

/-- Taking a descriptor off its ring leaves what the checks look at as it was. -/
@[simp] theorem Dev.takeOff_withdrawn (d : Dev) (n : Nat) : (d.takeOff n).withdrawn = d.withdrawn := rfl
@[simp] theorem Dev.takeOff_slw (d : Dev) (n : Nat) : (d.takeOff n).il.slw = d.il.slw := rfl
@[simp] theorem Dev.takeOff_staged (d : Dev) (n : Nat) : (d.takeOff n).hqi.staged = d.hqi.staged := rfl

/-- A fresh command begins with the stages it had at its fetch, where these do not rest on the ledger or the HQI. -/
theorem Dev.beginCmd_fresh (e : Dev) (sp : OpSpec) (o : OpenCmd) (hq : Hqi) (l : List LedgerEntry) (hd : o.done = 0)
    (ht : ∀ (x : Dev) (h : Hqi) (l : List LedgerEntry), sp.total o.desc { x with hqi := h, ledger := l } = sp.total o.desc x) :
    ({ e with hqi := hq, ledger := l } : Dev).beginCmd sp o =
      sp.begin { o with begun := true, total := sp.total o.desc e }
        (match o.entry with
          | none => ({ e with hqi := hq, ledger := l } : Dev).modCmd o.fetch
              (fun _ => { o with begun := true, total := sp.total o.desc e })
          | some k => (({ e with hqi := hq, ledger := l } : Dev).modCmd o.fetch
              (fun _ => { o with begun := true, total := sp.total o.desc e })).setTotal k (sp.total o.desc e)) := by
  unfold Dev.beginCmd
  rw [if_neg (by omega)]
  dsimp only
  rw [ht e hq l]
  all_goals (cases o.entry <;> rfl)

/-- An admitted descriptor begins, where its count of stages does not rest on the ledger or the HQI. -/
theorem Dev.fetch_admitted (d : Dev) (sp : OpSpec) (c : Desc) (h : d.admits sp c)
    (ht : ∀ (x : Dev) (h : Hqi) (l : List LedgerEntry), sp.total c { x with hqi := h, ledger := l } = sp.total c x) :
    d.fetch sp c = sp.begin (d.opened sp c) (d.begun sp c) := by
  obtain ⟨h1, h2, h3, h4, h5, h6, h7, h8, h9, h10, h11⟩ := h
  have hs : (d.takeOff c.ring.val).hqi.staged = [] := h2
  unfold Dev.fetch
  rw [if_pos h1]
  unfold Dev.check
  dsimp only
  rw [if_neg (by omega), if_neg (by simp [h3, h5])]
  have hr : (d.takeOff c.ring.val).resumption sp.code c (sp.total c (d.takeOff c.ring.val)) = .fresh := by
    simp [Dev.resumption, h4]
  rw [hr]
  dsimp only
  have hw : (d.takeOff c.ring.val).withdrawn = d.withdrawn := rfl
  have hl : (d.takeOff c.ring.val).il.slw = true → sp.inSlw c = true := h10
  rw [if_neg (by
      rw [hw]
      cases hx : d.withdrawn with
      | true => rw [hx] at h9; simp at h9; simp [h9]
      | false => rw [hx] at h9; simp at h9; simp [h9]),
    if_neg (by intro q; simp at q; simp [hl q.1] at q), if_neg (by simp [h3, h8, h11])]
  unfold Dev.accept
  simp only [h3, Bool.false_eq_true, if_false]
  cases hg : sp.ledger with
  | true =>
    simp only [if_true]
    have hx : ∀ e : LedgerEntry, ((d.takeOff c.ring.val).addEntry e).hqi.staged = [] := fun e => hs
    simp only [hx, List.nil_append]
    rw [if_pos (by simp [Dev.mayBegin, List.takeWhile])]
    refine (Dev.beginCmd_fresh (d.takeOff c.ring.val) sp _ _ _ rfl ht).trans ?_
    simp only [Dev.opened, Dev.begun, hg, if_true, Dev.modCmd, Dev.setTotal, Dev.addEntry, Dev.now, List.map_cons, List.map_nil, eq_self, if_true]
  | false =>
    simp only [Bool.false_eq_true, if_false]
    simp only [hs, List.nil_append]
    rw [if_pos (by simp [Dev.mayBegin, List.takeWhile])]
    refine (Dev.beginCmd_fresh (d.takeOff c.ring.val) sp _ _ _ rfl ht).trans ?_
    simp only [Dev.opened, Dev.begun, hg, Bool.false_eq_true, if_false, Dev.modCmd, List.map_cons, List.map_nil, eq_self, if_true]

/-- An accepted descriptor begins, with its EXPERT record when it asks for that level. -/
theorem Dev.fetch_accepted (d : Dev) (sp : OpSpec) (c : Desc) (h : d.accepts sp c)
    (ht : ∀ (x : Dev) (h : Hqi) (l : List LedgerEntry) (t : TrainRegister),
      sp.total c { x with hqi := h, ledger := l, tr := t } = sp.total c x) :
    d.fetch sp c = sp.begin (d.opened sp c) (d.started sp c) := by
  rcases h with h | h
  · have hx : c.expert = false := h.2.2.1
    rw [Dev.fetch_admitted d sp c h (fun x h l => ht x h l x.tr)]
    simp [Dev.started, hx]
  · obtain ⟨h1, h2, h3, hen, h4, h5, h6, h7, h8, h9, h10, h11, hr⟩ := h
    have hs : (d.takeOff c.ring.val).hqi.staged = [] := h2
    have hre : (d.takeOff c.ring.val).roomFor 1 := Dev.roomFor_congr d _ 1 rfl rfl hr
    have hg : (d.takeOff c.ring.val).hqi.expertEn = true := hen
    unfold Dev.fetch
    rw [if_pos h1]
    unfold Dev.check
    dsimp only
    rw [if_neg (by omega), if_neg (by simp [h3, hg])]
    have hq : (d.takeOff c.ring.val).resumption sp.code c (sp.total c (d.takeOff c.ring.val)) = .fresh := by
      simp [Dev.resumption, h4]
    rw [hq]
    dsimp only
    have hw : (d.takeOff c.ring.val).withdrawn = d.withdrawn := rfl
    have hl : (d.takeOff c.ring.val).il.slw = true → sp.inSlw c = true := h10
    rw [if_neg (by
        rw [hw]
        cases hx : d.withdrawn with
        | true => rw [hx] at h9; simp at h9; simp [h9]
        | false => rw [hx] at h9; simp at h9; simp [h9]),
      if_neg (by intro q; simp at q; simp [hl q.1] at q), if_neg (by simp [h5, h8, h11])]
    unfold Dev.accept Dev.started Dev.recordNow
    rw [Dev.record_roomy _ _ _ hre, Dev.record_roomy _ _ _ (Dev.roomFor_congr d (d.begun sp c) 1
      (by unfold Dev.begun; dsimp only; split <;> rfl) (by unfold Dev.begun; dsimp only; split <;> rfl) hr)]
    simp only [h3, if_true]
    have htr : (d.begun sp c).tr = (d.takeOff c.ring.val).tr := by unfold Dev.begun; dsimp only; split <;> rfl
    have hst : (d.begun sp c).stamp = (d.takeOff c.ring.val).stamp := by unfold Dev.begun; dsimp only; split <;> rfl
    rw [htr, hst]
    generalize (d.takeOff c.ring.val).tr.append _ = t
    cases hg : sp.ledger with
    | true =>
      simp only [if_true, hs, List.nil_append, Dev.addEntry]
      rw [if_pos (by simp [Dev.mayBegin, List.takeWhile])]
      refine (Dev.beginCmd_fresh { d.takeOff c.ring.val with tr := t } sp _ _ _ rfl
        (fun x h l => ht x h l x.tr)).trans ?_
      have q : sp.total c { d.takeOff c.ring.val with tr := t } = sp.total c (d.takeOff c.ring.val) :=
        ht (d.takeOff c.ring.val) _ _ t
      simp only [Dev.opened, Dev.begun, hg, if_true, Dev.modCmd, Dev.setTotal, Dev.addEntry, Dev.now, List.map_cons,
        List.map_nil, eq_self, q, newEntry]
    | false =>
      simp only [Bool.false_eq_true, if_false, hs, List.nil_append]
      rw [if_pos (by simp [Dev.mayBegin, List.takeWhile])]
      refine (Dev.beginCmd_fresh { d.takeOff c.ring.val with tr := t } sp _ _ _ rfl
        (fun x h l => ht x h l x.tr)).trans ?_
      have q : sp.total c { d.takeOff c.ring.val with tr := t } = sp.total c (d.takeOff c.ring.val) :=
        ht (d.takeOff c.ring.val) _ _ t
      simp only [Dev.opened, Dev.begun, hg, Bool.false_eq_true, if_false, Dev.modCmd, List.map_cons, List.map_nil,
        eq_self, if_true, q]

/-- An accepted command runs its first stage, and the device settles. -/
theorem run_accepted (sp : OpSpec) (c : Desc) (s : State) (e : Dev) (h : s.dev.silent.accepts sp c)
    (ht : ∀ (x : Dev) (h : Hqi) (l : List LedgerEntry) (t : TrainRegister),
      sp.total c { x with hqi := h, ledger := l, tr := t } = sp.total c x)
    (hb : sp.begin (s.dev.silent.opened sp c) (s.dev.silent.started sp c) = e) :
    run (fun d => d.fetch sp c) s = .next (s.put e.settle) := by
  show Host.Outcome.next (s.put (s.dev.silent.fetch sp c).settle) = _
  rw [Dev.fetch_accepted _ sp c h ht, hb]

/-! ### The device as a command begins -/

@[simp] theorem Dev.begun_core (d : Dev) (sp : OpSpec) (c : Desc) : (d.begun sp c).core = d.core := by
  unfold Dev.begun; dsimp only; split <;> rfl
@[simp] theorem Dev.begun_ka (d : Dev) (sp : OpSpec) (c : Desc) : (d.begun sp c).ka = d.ka := by
  unfold Dev.begun; dsimp only; split <;> rfl
@[simp] theorem Dev.begun_cfg (d : Dev) (sp : OpSpec) (c : Desc) : (d.begun sp c).cfg = d.cfg := by
  unfold Dev.begun; dsimp only; split <;> rfl
@[simp] theorem Dev.begun_book (d : Dev) (sp : OpSpec) (c : Desc) : (d.begun sp c).book = d.book := by
  unfold Dev.begun; dsimp only; split <;> rfl
@[simp] theorem Dev.begun_sp (d : Dev) (sp : OpSpec) (c : Desc) : (d.begun sp c).sp = d.sp := by
  unfold Dev.begun; dsimp only; split <;> rfl
@[simp] theorem Dev.begun_office (d : Dev) (sp : OpSpec) (c : Desc) : (d.begun sp c).office = d.office := by
  unfold Dev.begun; dsimp only; split <;> rfl
@[simp] theorem Dev.begun_tr (d : Dev) (sp : OpSpec) (c : Desc) : (d.begun sp c).tr = d.tr := by
  unfold Dev.begun; dsimp only; split <;> rfl
@[simp] theorem Dev.begun_sars (d : Dev) (sp : OpSpec) (c : Desc) : (d.begun sp c).sars = d.sars := by
  unfold Dev.begun; dsimp only; split <;> rfl
@[simp] theorem Dev.begun_ccs (d : Dev) (sp : OpSpec) (c : Desc) : (d.begun sp c).ccs = d.ccs := by
  unfold Dev.begun; dsimp only; split <;> rfl
@[simp] theorem Dev.begun_house (d : Dev) (sp : OpSpec) (c : Desc) : (d.begun sp c).house = d.house := by
  unfold Dev.begun; dsimp only; split <;> rfl
@[simp] theorem Dev.begun_cps (d : Dev) (sp : OpSpec) (c : Desc) : (d.begun sp c).cps = d.cps := by
  unfold Dev.begun; dsimp only; split <;> rfl
@[simp] theorem Dev.begun_drv (d : Dev) (sp : OpSpec) (c : Desc) : (d.begun sp c).drv = d.drv := by
  unfold Dev.begun; dsimp only; split <;> rfl
@[simp] theorem Dev.begun_trip (d : Dev) (sp : OpSpec) (c : Desc) : (d.begun sp c).trip = d.trip := by
  unfold Dev.begun; dsimp only; split <;> rfl
@[simp] theorem Dev.begun_fuse (d : Dev) (sp : OpSpec) (c : Desc) : (d.begun sp c).fuse = d.fuse := by
  unfold Dev.begun; dsimp only; split <;> rfl
@[simp] theorem Dev.begun_bge (d : Dev) (sp : OpSpec) (c : Desc) : (d.begun sp c).bge = d.bge := by
  unfold Dev.begun; dsimp only; split <;> rfl
@[simp] theorem Dev.begun_groups (d : Dev) (sp : OpSpec) (c : Desc) : (d.begun sp c).groups = d.groups := by
  unfold Dev.begun; dsimp only; split <;> rfl
@[simp] theorem Dev.begun_legs (d : Dev) (sp : OpSpec) (c : Desc) : (d.begun sp c).legs = d.legs := by
  unfold Dev.begun; dsimp only; split <;> rfl
@[simp] theorem Dev.begun_sup (d : Dev) (sp : OpSpec) (c : Desc) : (d.begun sp c).sup = d.sup := by
  unfold Dev.begun; dsimp only; split <;> rfl
@[simp] theorem Dev.begun_feeds (d : Dev) (sp : OpSpec) (c : Desc) : (d.begun sp c).feeds = d.feeds := by
  unfold Dev.begun; dsimp only; split <;> rfl
@[simp] theorem Dev.begun_branches (d : Dev) (sp : OpSpec) (c : Desc) : (d.begun sp c).branches = d.branches := by
  unfold Dev.begun; dsimp only; split <;> rfl
@[simp] theorem Dev.begun_banks (d : Dev) (sp : OpSpec) (c : Desc) : (d.begun sp c).banks = d.banks := by
  unfold Dev.begun; dsimp only; split <;> rfl
@[simp] theorem Dev.begun_strings (d : Dev) (sp : OpSpec) (c : Desc) : (d.begun sp c).strings = d.strings := by
  unfold Dev.begun; dsimp only; split <;> rfl
@[simp] theorem Dev.begun_shelf (d : Dev) (sp : OpSpec) (c : Desc) : (d.begun sp c).shelf = d.shelf := by
  unfold Dev.begun; dsimp only; split <;> rfl
@[simp] theorem Dev.begun_tt (d : Dev) (sp : OpSpec) (c : Desc) : (d.begun sp c).tt = d.tt := by
  unfold Dev.begun; dsimp only; split <;> rfl
@[simp] theorem Dev.begun_pmbus (d : Dev) (sp : OpSpec) (c : Desc) : (d.begun sp c).pmbus = d.pmbus := by
  unfold Dev.begun; dsimp only; split <;> rfl
@[simp] theorem Dev.begun_avs (d : Dev) (sp : OpSpec) (c : Desc) : (d.begun sp c).avs = d.avs := by
  unfold Dev.begun; dsimp only; split <;> rfl
@[simp] theorem Dev.begun_tap (d : Dev) (sp : OpSpec) (c : Desc) : (d.begun sp c).tap = d.tap := by
  unfold Dev.begun; dsimp only; split <;> rfl
@[simp] theorem Dev.begun_startCount (d : Dev) (sp : OpSpec) (c : Desc) : (d.begun sp c).startCount = d.startCount := by
  unfold Dev.begun; dsimp only; split <;> rfl
@[simp] theorem Dev.begun_due (d : Dev) (sp : OpSpec) (c : Desc) : (d.begun sp c).due = d.due := by
  unfold Dev.begun; dsimp only; split <;> rfl
@[simp] theorem Dev.begun_out (d : Dev) (sp : OpSpec) (c : Desc) : (d.begun sp c).out = d.out := by
  unfold Dev.begun; dsimp only; split <;> rfl
@[simp] theorem Dev.begun_fresh (d : Dev) (sp : OpSpec) (c : Desc) : (d.begun sp c).fresh = d.fresh := by
  unfold Dev.begun; dsimp only; split <;> rfl
@[simp] theorem Dev.begun_staged (d : Dev) (sp : OpSpec) (c : Desc) : (d.begun sp c).hqi.staged = [d.opened sp c] := rfl

/-- Of the Interlocking, the fetch refreshes the host heartbeat alone (R331). -/
theorem Dev.begun_il (d : Dev) (sp : OpSpec) (c : Desc) :
    (d.begun sp c).il = { d.il with hostBeat := d.now, hostSilent := false } := by
  unfold Dev.begun; dsimp only; split <;> rfl

/-- A still device is still as a command begins. -/
theorem Dev.still_begun (d : Dev) (sp : OpSpec) (c : Desc) (h : d.still) : (d.begun sp c).still := by
  refine Dev.still_congr d _ h ?_ ?_ ?_ ?_ ?_ ?_ ?_ ?_ ?_ ?_ ?_ <;> simp [Dev.begun_il]

/-- The room in the Train Register is what it was. -/
theorem Dev.roomFor_begun (d : Dev) (sp : OpSpec) (c : Desc) (n : Nat) (h : d.roomFor n) : (d.begun sp c).roomFor n :=
  Dev.roomFor_congr d _ n (by simp) (by simp) h

/-- An admitted command whose first stage leaves a still device leaves the state with that device. -/
theorem run_admitted (sp : OpSpec) (c : Desc) (s : State) (e : Dev) (h : s.dev.silent.admits sp c)
    (ht : ∀ (x : Dev) (h : Hqi) (l : List LedgerEntry), sp.total c { x with hqi := h, ledger := l } = sp.total c x)
    (hb : sp.begin (s.dev.silent.opened sp c) (s.dev.silent.begun sp c) = e) (hs : e.still) :
    run (fun d => d.fetch sp c) s = .next (s.put e) :=
  run_is _ s e ((Dev.fetch_admitted _ sp c h ht).trans hb) hs

end Sys2Proof.Machine
end

