-- ==== Sys2Proof/Laws/Registers.lean ====
section
/-! SUPPORT. The register file: what a register reads after a write, the canonical form, and the fields of a word. -/
namespace Sys2Proof.Machine

/-! ### Fields of a word -/

/-- A field cut to its width. -/
theorem bitsOf_lt (n lo w : Nat) : bitsOf n lo w < 2 ^ w := Nat.mod_lt _ (Nat.two_pow_pos w)

/-- A word is its bits above a field, the field, and its bits below. -/
theorem word_parts (n lo w : Nat) :
    n = n / 2 ^ (lo + w) * 2 ^ (lo + w) + bitsOf n lo w * 2 ^ lo + n % 2 ^ lo := by
  have h1 : n = n / 2 ^ lo * 2 ^ lo + n % 2 ^ lo := by
    have := Nat.div_add_mod n (2 ^ lo); rw [Nat.mul_comm] at this; omega
  have h2 : n / 2 ^ lo = n / 2 ^ lo / 2 ^ w * 2 ^ w + n / 2 ^ lo % 2 ^ w := by
    have := Nat.div_add_mod (n / 2 ^ lo) (2 ^ w); rw [Nat.mul_comm] at this; omega
  have h3 : n / 2 ^ lo / 2 ^ w = n / 2 ^ (lo + w) := by rw [Nat.div_div_eq_div_mul, Nat.pow_add]
  have h4 : n / 2 ^ (lo + w) * 2 ^ (lo + w) = n / 2 ^ (lo + w) * 2 ^ w * 2 ^ lo := by
    rw [Nat.pow_add, Nat.mul_comm (2 ^ lo), Nat.mul_assoc]
  rw [h4]
  unfold bitsOf
  rw [← Nat.add_mul, ← h3, ← h2]; exact h1

/-- A word with a field replaced, in parts. -/
theorem putBits_parts (n lo w v : Nat) :
    putBits n lo w v = n / 2 ^ (lo + w) * 2 ^ (lo + w) + v % 2 ^ w * 2 ^ lo + n % 2 ^ lo := by
  have h := word_parts n lo w
  unfold putBits
  generalize bitsOf n lo w * 2 ^ lo = x at *
  generalize v % 2 ^ w * 2 ^ lo = y at *
  omega

/-- The field that was put. -/
theorem bitsOf_putBits (n lo w v : Nat) : bitsOf (putBits n lo w v) lo w = v % 2 ^ w := by
  rw [putBits_parts]
  unfold bitsOf
  have e : n / 2 ^ (lo + w) * 2 ^ (lo + w) + v % 2 ^ w * 2 ^ lo + n % 2 ^ lo
      = n % 2 ^ lo + 2 ^ lo * (v % 2 ^ w + 2 ^ w * (n / 2 ^ (lo + w))) := by
    rw [Nat.pow_add]; ring
  rw [e, Nat.add_mul_div_left _ _ (Nat.two_pow_pos lo), Nat.div_eq_of_lt (Nat.mod_lt _ (Nat.two_pow_pos lo)), Nat.zero_add,
    Nat.add_mul_mod_self_left, Nat.mod_mod]

/-- A field above the one that was put. -/
theorem bitsOf_putBits_above (n lo w v l k : Nat) (h : lo + w ≤ l) : bitsOf (putBits n lo w v) l k = bitsOf n l k := by
  have key : ∀ m, m < 2 ^ (lo + w) → ∀ q, (q * 2 ^ (lo + w) + m) / 2 ^ l = q / 2 ^ (l - (lo + w)) := by
    intro m hm q
    obtain ⟨j, rfl⟩ := Nat.exists_eq_add_of_le h
    rw [Nat.pow_add 2 (lo + w) j, ← Nat.div_div_eq_div_mul, Nat.add_comm, Nat.add_mul_div_right _ _ (Nat.two_pow_pos _),
      Nat.div_eq_of_lt hm, Nat.zero_add, Nat.add_sub_cancel_left]
  have low : ∀ x, x < 2 ^ w → x * 2 ^ lo + n % 2 ^ lo < 2 ^ (lo + w) := by
    intro x hx
    have h1 := Nat.mod_lt n (Nat.two_pow_pos lo)
    have h2 : (x + 1) * 2 ^ lo ≤ 2 ^ w * 2 ^ lo := Nat.mul_le_mul_right _ hx
    have h3 : 2 ^ (lo + w) = 2 ^ w * 2 ^ lo := by rw [Nat.pow_add, Nat.mul_comm]
    have h4 : (x + 1) * 2 ^ lo = x * 2 ^ lo + 2 ^ lo := by ring
    omega
  unfold bitsOf
  congr 1
  rw [putBits_parts, Nat.add_assoc, key _ (low _ (Nat.mod_lt _ (Nat.two_pow_pos w)))]
  conv_rhs => rw [word_parts n lo w, Nat.add_assoc, key _ (low _ (bitsOf_lt n lo w))]

/-- A field below the one that was put. -/
theorem bitsOf_putBits_below (n lo w v l k : Nat) (h : l + k ≤ lo) : bitsOf (putBits n lo w v) l k = bitsOf n l k := by
  have key : ∀ x, bitsOf (x * 2 ^ lo + n % 2 ^ lo) l k = bitsOf (n % 2 ^ lo) l k := by
    intro x
    obtain ⟨j, rfl⟩ := Nat.exists_eq_add_of_le h
    unfold bitsOf
    have e : x * 2 ^ (l + k + j) = 2 ^ l * (2 ^ k * (x * 2 ^ j)) := by rw [Nat.pow_add, Nat.pow_add]; ring
    rw [e, Nat.add_comm, Nat.add_mul_div_left _ _ (Nat.two_pow_pos l), Nat.add_mul_mod_self_left]
  have e1 : putBits n lo w v = (n / 2 ^ (lo + w) * 2 ^ w + v % 2 ^ w) * 2 ^ lo + n % 2 ^ lo := by
    rw [putBits_parts, Nat.pow_add]; ring
  have e2 : n = (n / 2 ^ (lo + w) * 2 ^ w + bitsOf n lo w) * 2 ^ lo + n % 2 ^ lo := by
    conv_lhs => rw [word_parts n lo w]
    rw [Nat.pow_add]; ring
  rw [e1, key]
  conv_rhs => rw [e2, key]

/-! ### The register file -/

/-- A write changes no other register. -/
theorem Regs.get_set_other (r : Regs) (a b : Nat) (w : Word) (h : b ≠ a) : (r.set a w).get b = r.get b := by
  induction r with
  | nil =>
    unfold Regs.set
    split
    · rfl
    · simp [Regs.get, Ne.symm h]
  | cons p rest ih =>
    obtain ⟨c, v⟩ := p
    unfold Regs.set
    split
    · split
      · rfl
      · simp [Regs.get, Ne.symm h]
    · split
      · next h2 =>
        subst h2
        split
        · simp [Regs.get, Ne.symm h]
        · simp [Regs.get, Ne.symm h]
      · simp only [Regs.get, ih]

/-- An offset below every listed one reads its vendor default. -/
theorem Regs.get_low (r : Regs) (lo a : Nat) (h : Regs.wfFrom lo r = true) (ha : a < lo) :
    r.get a = BitVec.ofNat 32 (vendorWord a) := by
  induction r generalizing lo with
  | nil => rfl
  | cons p rest ih =>
    obtain ⟨c, v⟩ := p
    simp only [Regs.wfFrom, Bool.and_eq_true, decide_eq_true_eq] at h
    unfold Regs.get
    rw [if_neg (by omega)]
    exact ih (c + 1) h.2 (by omega)

/-- A register reads what was written to it. -/
theorem Regs.get_set_same (r : Regs) (lo a : Nat) (w : Word) (h : Regs.wfFrom lo r = true) : (r.set a w).get a = w := by
  induction r generalizing lo with
  | nil =>
    unfold Regs.set
    split
    · next e => exact e.symm
    · simp [Regs.get]
  | cons p rest ih =>
    obtain ⟨c, v⟩ := p
    simp only [Regs.wfFrom, Bool.and_eq_true, decide_eq_true_eq] at h
    unfold Regs.set
    split
    · next h1 =>
      split
      · next e =>
        unfold Regs.get
        rw [if_neg (by omega), Regs.get_low rest (c + 1) a h.2 (by omega), e]
      · simp [Regs.get]
    · split
      · next h2 =>
        subst h2
        split
        · next e => rw [Regs.get_low rest (c + 1) c h.2 (by omega), e]
        · simp [Regs.get]
      · next h1 h2 =>
        unfold Regs.get
        rw [if_neg h2]
        exact ih (c + 1) h.2

/-- A lower bound may be lowered. -/
theorem Regs.wfFrom_mono (r : Regs) (lo lo' : Nat) (hl : lo' ≤ lo) (h : Regs.wfFrom lo r = true) :
    Regs.wfFrom lo' r = true := by
  cases r with
  | nil => rfl
  | cons p rest =>
    simp only [Regs.wfFrom, Bool.and_eq_true, decide_eq_true_eq] at *
    exact ⟨⟨by omega, h.1.2⟩, h.2⟩

/-- A write keeps the canonical form above any bound that the offset respects. -/
theorem Regs.set_wfFrom (r : Regs) (lo a : Nat) (w : Word) (ha : lo ≤ a) (h : Regs.wfFrom lo r = true) :
    Regs.wfFrom lo (r.set a w) = true := by
  induction r generalizing lo with
  | nil =>
    unfold Regs.set
    split
    · rfl
    · next e => simp [Regs.wfFrom, e, ha]
  | cons p rest ih =>
    obtain ⟨c, v⟩ := p
    have h0 := h
    simp only [Regs.wfFrom, Bool.and_eq_true, decide_eq_true_eq] at h
    unfold Regs.set
    split
    · next h1 =>
      split
      · exact h0
      · next e =>
        simp only [Regs.wfFrom, Bool.and_eq_true, decide_eq_true_eq, bne_iff_ne]
        exact ⟨⟨ha, e⟩, ⟨by omega, by simpa using h.1.2⟩, h.2⟩
    · split
      · next h2 =>
        subst h2
        split
        · exact Regs.wfFrom_mono rest (c + 1) lo (by omega) h.2
        · next e =>
          simp only [Regs.wfFrom, Bool.and_eq_true, decide_eq_true_eq, bne_iff_ne]
          exact ⟨⟨by omega, e⟩, h.2⟩
      · next h1 h2 =>
        simp only [Regs.wfFrom, Bool.and_eq_true, decide_eq_true_eq]
        exact ⟨h.1, ih (c + 1) (by omega) h.2⟩

/-- A write keeps the canonical form. -/
theorem Regs.set_wf (r : Regs) (a : Nat) (w : Word) (h : r.wf = true) : (r.set a w).wf = true :=
  Regs.set_wfFrom r 0 a w (Nat.zero_le a) h

/-! ### The registers of the device -/

/-- A register reads the word that was set. -/
theorem Dev.reg_setReg (d : Dev) (off v : Nat) (h : d.cfg.wf = true) : (d.setReg off v).reg off = v % 2 ^ 32 := by
  have e := Regs.get_set_same d.cfg 0 off (BitVec.ofNat 32 v) h
  show ((d.cfg.set off (BitVec.ofNat 32 v)).get off).toNat = _
  rw [e]; exact BitVec.toNat_ofNat v 32

/-- Setting a register changes no other. -/
theorem Dev.reg_setReg_other (d : Dev) (off v o : Nat) (h : o ≠ off) : (d.setReg off v).reg o = d.reg o := by
  show ((d.cfg.set off (BitVec.ofNat 32 v)).get o).toNat = _
  rw [Regs.get_set_other _ _ _ _ h]; rfl

/-- Setting a register keeps the canonical form. -/
theorem Dev.setReg_wf (d : Dev) (off v : Nat) (h : d.cfg.wf = true) : (d.setReg off v).cfg.wf = true := Regs.set_wf _ _ _ h

/-- Setting a field keeps the canonical form. -/
theorem Dev.setField_wf (d : Dev) (off lo w v : Nat) (h : d.cfg.wf = true) : (d.setField off lo w v).cfg.wf = true :=
  Dev.setReg_wf _ _ _ h

/-- A register holds 32 bits. -/
theorem Dev.reg_lt (d : Dev) (off : Nat) : d.reg off < 2 ^ 32 := (d.cfg.get off).isLt

/-- A word with a field inside it replaced is still a word. -/
theorem putBits_lt (n lo w v : Nat) (hn : n < 2 ^ 32) (h : lo + w ≤ 32) : putBits n lo w v < 2 ^ 32 := by
  rw [putBits_parts]
  obtain ⟨j, hj⟩ := Nat.exists_eq_add_of_le h
  have h1 := Nat.mod_lt n (Nat.two_pow_pos lo)
  have h2 : (v % 2 ^ w + 1) * 2 ^ lo ≤ 2 ^ w * 2 ^ lo := Nat.mul_le_mul_right _ (Nat.mod_lt _ (Nat.two_pow_pos w))
  have h3 : n / 2 ^ (lo + w) < 2 ^ j := by
    rw [Nat.div_lt_iff_lt_mul (Nat.two_pow_pos _), ← Nat.pow_add, Nat.add_comm, ← hj]; exact hn
  have h4 : (n / 2 ^ (lo + w) + 1) * 2 ^ (lo + w) ≤ 2 ^ j * 2 ^ (lo + w) := Nat.mul_le_mul_right _ h3
  have h5 : 2 ^ j * 2 ^ (lo + w) = 2 ^ 32 := by rw [← Nat.pow_add, Nat.add_comm, ← hj]
  have h6 : 2 ^ (lo + w) = 2 ^ w * 2 ^ lo := by rw [Nat.pow_add, Nat.mul_comm]
  have e1 : (v % 2 ^ w + 1) * 2 ^ lo = v % 2 ^ w * 2 ^ lo + 2 ^ lo := by ring
  have e2 : (n / 2 ^ (lo + w) + 1) * 2 ^ (lo + w) = n / 2 ^ (lo + w) * 2 ^ (lo + w) + 2 ^ (lo + w) := by ring
  omega

/-- A register reads a word with the one field replaced. -/
theorem Dev.reg_setField (d : Dev) (off lo w v : Nat) (h : d.cfg.wf = true) (hf : lo + w ≤ 32) :
    (d.setField off lo w v).reg off = putBits (d.reg off) lo w v := by
  unfold Dev.setField
  rw [Dev.reg_setReg _ _ _ h, Nat.mod_eq_of_lt (putBits_lt _ _ _ _ (Dev.reg_lt d off) hf)]

/-- A field reads what was set, cut to its width. -/
theorem Dev.field_setField (d : Dev) (off lo w v : Nat) (h : d.cfg.wf = true) (hf : lo + w ≤ 32) :
    (d.setField off lo w v).field off lo w = v % 2 ^ w := by
  unfold Dev.field
  rw [Dev.reg_setField d off lo w v h hf, bitsOf_putBits]

/-- Setting a field leaves the other fields of its register alone. -/
theorem Dev.field_setField_apart (d : Dev) (off lo w v l k : Nat) (h : d.cfg.wf = true) (hf : lo + w ≤ 32)
    (ha : lo + w ≤ l ∨ l + k ≤ lo) : (d.setField off lo w v).field off l k = d.field off l k := by
  unfold Dev.field
  rw [Dev.reg_setField d off lo w v h hf]
  rcases ha with ha | ha
  · exact bitsOf_putBits_above _ _ _ _ _ _ ha
  · exact bitsOf_putBits_below _ _ _ _ _ _ ha

/-- Setting a field leaves every other register alone. -/
theorem Dev.field_setField_other (d : Dev) (off lo w v o l k : Nat) (h : o ≠ off) :
    (d.setField off lo w v).field o l k = d.field o l k := by
  unfold Dev.field
  rw [show (d.setField off lo w v).reg o = d.reg o from Dev.reg_setReg_other d off _ o h]

end Sys2Proof.Machine
end

