-- ==== Sys2Proof/WellFormed.lean ====
section
/-! DEFINITION. Which commands are well formed: operands that their rows can carry (spec/opcode_table.json; spec/14 Table
14-4; spec/15 Table 15-1 and the parameters of its commands). A command that is not still runs; its descriptor then meets
the checks of spec/14 Table 14-6 as any other. -/
namespace Sys2Proof
open Machine

/-- The opcodes of Table 15-1. -/
def knownOpcodes : List Nat :=
  [0x00, 0x01, 0x02, 0x03, 0x04, 0x10, 0x11, 0x12, 0x13, 0x14, 0x15, 0x18, 0x19, 0x20, 0x21, 0x22, 0x30, 0x31, 0x32,
   0x40, 0x41, 0x42, 0x43, 0x50, 0x51, 0x60, 0x61, 0x70, 0x71, 0x72, 0x73, 0x80, 0x81, 0x90, 0x91, 0x92, 0xA0, 0xA1,
   0xF0, 0xF1, 0xF2]

/-- A descriptor carries its 44 bytes from byte 20 to byte 63, and its buffer no more bytes than its length. -/
def Machine.Desc.wf (c : Desc) : Bool := c.params.length == 44 && decide (c.data.length ≤ c.length.toNat)

/-- A descriptor of a row that byte 20 selects. -/
def Machine.Desc.wfAt (c : Desc) (v : Nat) : Bool := c.wf && (c.params.headD 0).toNat == v

/-- The failed read names a well-formed descriptor where it names one. -/
def Machine.ReadFailure.wf : ReadFailure → Bool
  | .descriptor _ => true
  | .staged _ => true
  | .buffer op c => c.wf && knownOpcodes.contains op.toNat && c.length != 0

/-- A converter delivers 1, 2, 4 or 8 conversions for one result (Table 3-3). -/
def oversamplings : List Nat := [1, 2, 4, 8]

/-- The masters of Table 12-5 that a stall can name. -/
def stallable : List Nat :=
  [0x00, 0x01, 0x10, 0x11, 0x12, 0x13, 0x14, 0x15, 0x20, 0x21, 0x22, 0x23, 0x30, 0x31, 0x32, 0x33, 0x40, 0x41, 0x42]

/-- The bases of the BAR0 blocks (Table 18-1). -/
def blockBases : List Nat :=
  [0x0000, 0x0100, 0x0400, 0x0800, 0x1000, 0x2000, 0x3000, 0x3800, 0x3C00, 0x4400, 0x4800, 0x4C00, 0x5000, 0x5400,
   0x5800, 0x5C00, 0x6000, 0x7000, 0x8000, 0x9000]

/-- A memory of Table 12-4 and an event source of one of its words. -/
def memoryWord (mem src : Nat) : Bool :=
  let power := (64 ≤ src && src < 88) || (96 ≤ src && src < 100)
  let string := 104 ≤ src && src < 108
  if mem = 0x01 || mem = 0x02 then src < 16
  else if mem = 0x03 then 16 ≤ src && src < 22
  else if mem = 0x04 then power || string || (128 ≤ src && src < 144)
  else if mem = 0x12 then power
  else if mem = 0x13 then string
  else [0x05, 0x06, 0x10, 0x11, 0x14, 0x15].contains mem && src == 160

/-- A host write carries one to eight bytes. -/
def Machine.HostAccess.wf : HostAccess → Bool
  | .write _ _ bytes => decide (1 ≤ bytes.length) && decide (bytes.length ≤ 8)
  | .read .. => true

/-- Well-formedness: one check for each operand that its type leaves wider than its row. -/
def Instr.wellFormed : Instr → Bool
  | .nop c => c.wf
  | .stateSnapshot c => c.wf
  | .ledgerQuery c => c.wf
  | .rulebookCommit c => c.wf
  | .setPattern c => c.wf
  | .groupConfigure c => c.wf
  | .groupTarget c => c.wf
  | .groupLimits c => c.wf
  | .groupEnableOn c => c.wfAt 1
  | .groupEnableOff c => c.wfAt 0
  | .coeffLoad c => c.wf
  | .modelLoad c => c.wf
  | .legConfigureConfigure c => c.wfAt 0
  | .legPark c => c.wfAt 1
  | .legUnpark c => c.wfAt 2
  | .legClearHealth c => c.wfAt 3
  | .shedPolicy c => c.wf
  | .branchConfigure c => c.wf
  | .branchSwitchOn c => c.wfAt 1
  | .branchSwitchOff c => c.wfAt 0
  | .branchRetry c => c.wf
  | .feedConfigure c => c.wf
  | .feedSwitchOn c => c.wfAt 1
  | .feedSwitchOff c => c.wfAt 0
  | .feedShare c => c.wf
  | .stringConfigure c => c.wf
  | .stringConnectOn c => c.wfAt 1
  | .stringConnectOff c => c.wfAt 0
  | .estimatorSet c => c.wf
  | .enterDepot c => c.wf
  | .timetableLoad c => c.wf
  | .timetableRunUp c => c.wfAt 1
  | .timetableRunDown c => c.wfAt 0
  | .polTransaction c => c.wf
  | .avsTransaction c => c.wf
  | .recorderRead c => c.wf
  | .clearNonce c => c.wf
  | .recorderClear c => c.wf
  | .calendarSet c => c.wf
  | .thresholdSet c => c.wf
  | .comparatorMode c => c.wf
  | .fuseRead c => c.wf
  | .fuseProgram c => c.wf
  | .lifecycleAdvance c => c.wf
  | .bgeConfigureIntervals c => c.wfAt 0
  | .bgeConfigureSweep c => c.wfAt 1
  | .telemetryStream c => c.wf
  | .injectArm c => c.wf
  | .inject c => c.wf
  | .faultResume c => c.wf
  | .dbCqWrite _ _ => true
  | .dbHeadWrite _ _ => true
  | .hqiRingEnable _ _ => true
  | .hqiRingDisable _ _ => true
  | .sysBlkrstWrite _ _ => true
  | .ilFeCodeRearm => true
  | .ftaCpEnable _ _ => true
  | .ftaCpDisable _ _ => true
  | .bar0Write _ _ => true
  | .malformedAccess access => access.wf
  | .mirrorLowWordRead _ => true
  | .trLatchedRead _ => true
  | .spNop _ => true
  | .spReadLo _ => true
  | .spReadHi _ => true
  | .spHeartbeat _ => true
  | .spHalt _ => true
  | .spEnterSingleLine _ => true
  | .spStatus _ => true
  | .spBadFrame kind cmd => match kind with
    | .unknown => decide (0x7 ≤ cmd.toNat)
    | .length => true
    | .crc => true
  | .perstN => true
  | .hotReset => true
  | .linkDown => true
  | .linkTrained _ _ => true
  | .functionLevelReset => true
  | .d3hotEntry => true
  | .d3hotExit => true
  | .dmaError what _ => what.wf
  | .telemetryFrameDue _ => true
  | .telemetryWriteStart _ => true
  | .msixModerationEnd _ => true
  | .corePowerOn => true
  | .resetN _ => true
  | .vbakApplied => true
  | .vbakLost _ => true
  | .coreSupplyFail _ => true
  | .vgdFail => true
  | .powerFailWarning => true
  | .busSnsRearm => true
  | .kaWake _ => true
  | .wakeAlarm => true
  | .depotShutdown => true
  | .pwrEnHoldEnd => true
  | .vppWindowChange _ => true
  | .xrefLost => true
  | .xrefRestored => true
  | .x32Lost => true
  | .x32Recovered => true
  | .x32MeasurementDone _ => true
  | .calTrimStep => true
  | .coreStall master _ t => stallable.contains master.toNat && blockBases.contains t.target.toNat
  | .paceWindow _ _ => true
  | .paceLowClear => true
  | .converterResult _ codes => oversamplings.contains codes.length
  | .groupSampleComplete _ _ _ => true
  | .modelItem _ _ => true
  | .inductorSatCleared _ => true
  | .followingError _ => true
  | .checkItem _ _ _ _ => true
  | .voteItem _ _ => true
  | .voteDropped => true
  | .shadowLate _ => true
  | .laneSelfTestDone _ _ => true
  | .escalationStep => true
  | .restoringStep => true
  | .groupLimiting _ => true
  | .softStartTimeout _ => true
  | .hiccupOffEnd _ => true
  | .hiccupClear _ => true
  | .dischargeTimeout _ => true
  | .shedDwellEnd _ => true
  | .parkTimeExpiry _ => true
  | .loadPoint _ _ _ => true
  | .cpCrossToFault _ => true
  | .cpReturnGood _ => true
  | .thresholdSettled _ _ => true
  | .modeChangeDone _ _ => true
  | .drvfltAssert _ => true
  | .drvfltDeassert _ => true
  | .hkConversion _ _ => true
  | .ccResult _ _ => true
  | .calibrationSweepDone _ => true
  | .delayLineCal _ => true
  | .delayLineMeasured _ _ => true
  | .calStale _ => true
  | .converterCalUpdate _ _ _ => true
  | .thresholdReadback codes => codes.length == 128
  | .bge0ScrubWord mem _ _ r _ =>
    memoryWord mem.toNat r.source.toNat && r.reader.all (fun m => stallable.contains m.toNat)
  | .fuseShadowCheck upsets => decide (upsets.length ≤ 64)
  | .wearCommit => true
  | .pageRetireDone _ => true
  | .bgeLate _ => true
  | .inrushTimeout _ => true
  | .feedHoldoffEnd _ => true
  | .feedRetryClear _ => true
  | .fwarnRelease _ => true
  | .sharePeriod _ => true
  | .branchModelStep _ => true
  | .branchLimitEngage _ => true
  | .branchLimitRelease _ _ => true
  | .gateUnderdrive _ => true
  | .limitTimeout _ => true
  | .rampTimeout _ => true
  | .branchHoldoffEnd _ => true
  | .branchRetryClear _ => true
  | .bankCheck _ => true
  | .stringEvaluation _ _ => true
  | .preGapEnd _ => true
  | .prechargeTimeout _ => true
  | .contactorNoClose _ => true
  | .pullInEnd _ => true
  | .pcOverlapEnd _ => true
  | .stringUndervoltage _ => true
  | .openWaitExpiry _ => true
  | .contactorWelded _ => true
  | .holdupEnd => true
  | .anchorFull _ => true
  | .anchorEmpty _ => true
  | .estimatorCheckpoint _ => true
  | .stepGapUpEnd => true
  | .stepGapDownEnd => true
  | .rmonChange _ _ => true
  | .pgTimeout _ => true
  | .offTimeout _ => true
  | .disTimeEnd _ => true
  | .offMinEnd => true
  | .haltMinEnd => true
  | .haltNFall => true
  | .haltNRise => true
  | .bellFrameReceived _ => true
  | .bellLost => true
  | .shedGapEnd => true
  | .pmbusPollTimer _ => true
  | .pmbusTeleTimer _ => true
  | .pmbusTransactionDone _ _ data => decide (data.length ≤ 256)
  | .smbalert _ => true
  | .avsFrameDone _ _ _ _ _ => true
  | .avsAlert _ => true
  | .avsResyncTimer _ => true
  | .surgeRecovered => true
  | .tokenWaitLimit _ => true
  | .tokenDurationEnd _ => true
  | .settleWindowClose => true
  | .hostSilent => true
  | .safetySilent => true
  | .injectWindowEnd => true
  | .injectObservationEnd => true
  | .trCheckpoint => true
  | .flushWriteDone => true
  | .ringScanDone => true
  | .clearEraseDone => true
  | .nonceExpiry => true
  | .clearLockoutEnd => true
  | .rulebookRewriteRetry => true
  | .fuseProgrammingDone _ _ _ _ => true
  | .unknownOpcode op c => c.wf && !knownOpcodes.contains op.toNat
  | .resetNRelease => true
  | .tapTckEdge _ _ _ => true
  | .limWarnExpiry _ => true
  | .strikeForgotten _ => true

end Sys2Proof
end

