-- ==== Sys2Proof/Tests/Slice0.lean ====
section
/-! SUPPORT. The model's own tests: check values and single commands with results from the manual's text, refusals of
ill-formed commands, and for each statement concrete devices and operands that meet its hypotheses, clause by clause. -/
namespace Sys2Proof.Tests
open Sys2Proof Sys2Proof.Machine
set_option Elab.async false

/-! ### Devices to test on -/

/-- The device of State.reset with its core running, every catch point off and sequence numbers reserved. -/
def on : Dev :=
  { State.reset.dev with core := { State.reset.dev.core with phase := .running, supplies := ⟨true, true, true, true, true⟩ }
                         cps := Vector.replicate 128 (default : CatchPoint)
                         tr := { State.reset.dev.tr with reserve := 4096 } }

/-- No row of the trip matrix drives where every channel is as there and no DRVFLT input is enabled. -/
theorem held_of (d : Dev) (hc : d.cps = on.cps) (he : ∀ k < 24, FTA_DF_CFG.en d k = 0) : d.columnsHeld := by
  have h1 : ∀ r : Fin 128, (fileGet on.cps r.val default).side ≠ .fault := by decide +kernel
  rw [Dev.columnsHeld_iff]
  intro r hr hx
  have hr := List.mem_range.mp hr
  unfold Dev.rowDrives at hx
  rw [hc] at hx
  by_cases h : r < 128
  · rw [if_pos h] at hx
    exact absurd (eq_of_beq hx) (h1 ⟨r, h⟩)
  · rw [if_neg h, he (r - 128) (by omega)] at hx
    simp at hx

/-- What stillness asks of a device beside its rows. -/
def calm (d : Dev) : Bool :=
  d.due == [] && !d.il.stopAll && d.fuse.run.isNone && d.shelf.leaving.isNone && d.tt.queued.isNone
    && d.sup.resuming.isNone && !d.il.slw && (indices 24).all (fun k => FTA_DF_CFG.en d k == 0)

/-- A device at rest is still. -/
theorem still_of (d : Dev) (h : calm d = true) (hc : d.cps = on.cps) : d.still := by
  simp only [calm, Bool.and_eq_true, Bool.not_eq_true', Option.isNone_iff_eq_none, beq_iff_eq, List.all_eq_true] at h
  obtain ⟨⟨⟨⟨⟨⟨⟨a, b⟩, c⟩, e⟩, f⟩, g⟩, k⟩, m⟩ := h
  exact ⟨⟨a, b, c, e, f, g, k⟩, held_of d hc (fun j hj => m j (List.mem_range.mpr hj))⟩

/-- Some device with nothing sent outward yet and its core running meets `p`. -/
def Runs (p : Dev → Prop) : Prop := ∃ d : Dev, d.silent = d ∧ d.coreRuns = true ∧ p d

/-- Some still device with its core running meets `p`. -/
def Stills (p : Dev → Prop) : Prop := ∃ d : Dev, d.still ∧ d.silent = d ∧ d.coreRuns = true ∧ p d

theorem runs (d : Dev) (p : Dev → Prop) (h : d.out = [] ∧ d.coreRuns = true) (hp : p d) : Runs p :=
  ⟨d, by obtain ⟨h, -⟩ := h; cases d; simp_all [Dev.silent], h.2, hp⟩

theorem stills (d : Dev) (p : Dev → Prop) (h : d.out = [] ∧ d.coreRuns = true ∧ calm d = true)
    (hc : d.cps = on.cps) (hp : p d) : Stills p :=
  ⟨d, still_of d h.2.2 hc, by obtain ⟨h, -⟩ := h; cases d; simp_all [Dev.silent], h.2.1, hp⟩

/-! ### Descriptors and rings -/

/-- A linked device with CQ0 and CC0 of 16 slots, one descriptor waiting on CQ0, and Expert commands let through. -/
def linked : Dev :=
  let d := { on with hqi := { on.hqi with speed := 1, width := 2, expertEn := true } }
  let e := d.modRing 0 (fun r => { r with en := true, log2n := 4, dbIdx := 1 })
  e.modRing 4 (fun r => { r with en := true, log2n := 4 })

/-- A descriptor of CQ0 with tag 7, parameters from byte 20 on, and an aligned buffer of `data`. -/
def desc (expert : Bool) (cls index : Nat) (params data : List Byte) : Desc :=
  ⟨0, false, expert, false, false, 7, BitVec.ofNat 8 cls, BitVec.ofNat 24 index, 0x1000, 0x4000, fit 44 params, data⟩

theorem admits_of (d : Dev) (sp : OpSpec) (c : Desc)
    (h : d.fetchTurn = some c.ring.val ∧ d.hqi.staged = [] ∧ c.expert = false ∧ c.resume = false ∧ sp.stdOk = true
      ∧ c.cls.toNat = sp.cls ∧ c.idx < sp.count ∧ c.buffer.toNat % 8 = 0 ∧ d.withdrawn = false
      ∧ sp.life c (d.takeOff c.ring.val) = true ∧ d.il.slw = false ∧ sp.params c (d.takeOff c.ring.val) = true) :
    d.admits sp c := by
  obtain ⟨a, b, c1, e, f, g, i, j, k, l, m, n⟩ := h
  refine ⟨a, b, c1, e, f, g, i, j, ?_, by simp [m], n⟩
  simp [k, l]

theorem admitsExpert_of (d : Dev) (sp : OpSpec) (c : Desc)
    (h : d.fetchTurn = some c.ring.val ∧ d.hqi.staged = [] ∧ c.expert = true ∧ d.hqi.expertEn = true ∧ c.resume = false
      ∧ sp.expOk = true ∧ c.cls.toNat = sp.cls ∧ c.idx < sp.count ∧ c.buffer.toNat % 8 = 0 ∧ d.withdrawn = false
      ∧ sp.life c (d.takeOff c.ring.val) = true ∧ d.il.slw = false ∧ sp.params c (d.takeOff c.ring.val) = true)
    (hr : d.roomFor 1) : d.admitsExpert sp c := by
  obtain ⟨a, b, c1, c2, e, f, g, i, j, k, l, m, n⟩ := h
  refine ⟨a, b, c1, c2, e, f, g, i, j, ?_, by simp [m], n, hr⟩
  simp [k, l]

theorem roomy (d : Dev) (n : Nat) (h : d.tr.readOnly = false ∧ d.tr.dropRun = 0 ∧ d.tr.buffer.length + n ≤ 200
    ∧ d.tr.buffer.length + n < bitsOf (d.reg 0x5800) 16 8 ∧ d.tr.next + n + 256 < d.tr.reserve) : d.roomFor n := h

theorem witness_DoorbellWrites :
    Stills (fun d => (d.ring 0).en = true ∧ 15 < (d.ring 0).entries ∧ (d.ring 0).entries ≤ 16 ∧ (d.ring 1).en = false
      ∧ d.mayTell (0x017C * 256 + 166) = true ∧ d.hqi.eqLost = 0 ∧ (d.ring 4).en = true ∧ 15 < (d.ring 4).entries
      ∧ (d.ring 5).en = false) ∧ linked.roomFor 1 :=
  ⟨stills linked _ (by decide +kernel) rfl (by decide +kernel), roomy _ _ (by decide +kernel)⟩

theorem witness_RingSetup :
    Stills (fun d => d.hqi.eqLost = 0 ∧ (d.ring 10).en = false ∧ ¬ (4 ≤ 10 ∧ 10 < 8) ∧ sizeLegal 10 12 = true
      ∧ (d.ring 10).base + 2 ^ 12 * entrySize 10 ≤ 2 ^ 64 ∧ (d.ring 0).en = true) :=
  stills linked _ (by decide +kernel) rfl (by decide +kernel)

theorem witness_LinkEventsResetTheHqiAlone : Stills (fun d => d.hqi.heldBack = [] ∧ d.roomFor 1) :=
  stills linked _ (by decide +kernel) rfl ⟨rfl, roomy _ _ (by decide +kernel)⟩

/-- `linked` in D3hot. -/
def asleep : Dev := { linked with hqi := { linked.hqi with d3hot := true } }

theorem witness_LinkStates :
    Stills (fun d => d.hqi.speed ≠ 0) ∧ Stills (fun d => d.hqi.d3hot = true ∧ d.hqi.heldBack = [] ∧ d.hqi.eqLost = 0) :=
  ⟨stills linked _ (by decide +kernel) rfl (by decide +kernel),
   stills asleep _ (by decide +kernel) rfl (by decide +kernel)⟩

/-- A staged NOP. -/
def staged : OpenCmd := ⟨5, some 5, 0x00, desc false 0 0 [] [], true, 1, 0, false, []⟩

theorem witness_HostReadFailuresAndModeration :
    Stills (fun d => d.fetchTurn = some 0 ∧ d.roomFor 1) ∧
    Stills (fun d => d.hqi.staged = [staged] ∧ staged.fetch = (5 : BitVec 32).toNat ∧ d.roomFor 1) ∧
    Stills (fun d => d.hqi.msix[31].owed = true ∧ d.hqi.d3hot = false) :=
  ⟨stills linked _ (by decide +kernel) rfl ⟨by decide +kernel, roomy _ _ (by decide +kernel)⟩,
   stills { linked with hqi := { linked.hqi with staged := [staged] } } _ (by decide +kernel) rfl
     ⟨rfl, by decide +kernel, roomy _ _ (by decide +kernel)⟩,
   stills { linked with hqi := { linked.hqi with msix := fileMod linked.hqi.msix 31 (fun v => { v with owed := true }) } } _
     (by decide +kernel) rfl (by decide +kernel)⟩

theorem witness_SafetyPortFrames :
    Stills (fun d => bitsOf (0x003FF : BitVec 20).toNat 0 18 < 0x400 ∧ 0x400 ≤ bitsOf (0x02400 : BitVec 20).toNat 0 18
      ∧ (d.wide (4 * 0x2400)).isSome = true ∧ 4 * 0x2400 % 8 = 0 ∧ 0x400 ≤ bitsOf (0x00400 : BitVec 20).toNat 0 18
      ∧ ¬ (4 * 0x400 % 8 = 0 ∧ (d.wide (4 * 0x400)).isSome = true) ∧ 4 * 0x400 ≠ d.sp.wordAt
      ∧ (0xA5A5A : BitVec 20) ≠ 0x5A5A5) ∧
    Stills (fun d => d.mayTell (0x017F * 256 + 167) = false) :=
  ⟨stills on _ (by decide +kernel) rfl (by decide +kernel),
   stills (on.tell (0x017F * 256 + 167)) _ (by decide +kernel) rfl (by decide +kernel)⟩

theorem witness_SafetyPortHaltAndSingleLine : Runs (fun _ => True) := runs on _ (by decide +kernel) trivial

theorem witness_ReadsAndLatches :
    Stills (fun d => 0x1000 + 4 * 0x2000 = 0x9000 ∧ 0x9000 % 8 = 0 ∧ (d.wide 0x9000).isSome = true) ∧
    Stills (fun d => (0x1000 + 4 * 0x2001) % 8 ≠ 0 ∧ 0x1000 + 4 * 0x2001 = d.hqi.latchAt) :=
  ⟨stills on _ (by decide +kernel) rfl (by decide +kernel),
   stills { on with hqi := { on.hqi with latchAt := 0x9004 } } _ (by decide +kernel) rfl (by decide +kernel)⟩

theorem witness_RegisterWriteGates :
    Stills (fun d => (0x0102 : BitVec 16).toNat % 4 ≠ 0 ∧ 0x0800 ≤ (0x0800 : BitVec 16).toNat
      ∧ (0x0800 : BitVec 16).toNat < 0x8000 ∧ (0x0800 : BitVec 16).toNat ≠ 0x5410
      ∧ gated 0x0800 = true ∧ d.hqi.expertEn = false
      ∧ d.blockOf 1 16 = none ∧ d.blockOf 1 15 = some (.group 15)) :=
  stills on _ (by decide +kernel) rfl (by decide +kernel)

theorem witness_ChannelEnable :
    Stills (fun d => d.hqi.expertEn = true ∧ d.cfg.wf = true ∧ FTA_CP_CFG.en d 127 = 0 ∧ (d.cp 127).side = .off) ∧
    Stills (fun d => d.hqi.expertEn = true ∧ d.cfg.wf = true ∧ FTA_CP_CFG.en d 127 = 1) :=
  ⟨stills linked _ (by decide +kernel) rfl (by decide +kernel),
   stills (linked.setField 0x11FC 31 1 1) _ (by decide +kernel) rfl (by decide +kernel)⟩

/-! ### Commands that a ready device admits -/

/-- A device on which a descriptor passes the checks at the level it asks for. -/
def Admitted (sp : OpSpec) (c : Desc) (p : Dev → Prop := fun _ => True) : Prop :=
  Stills (fun d => d.accepts sp c ∧ p d)

theorem admitted (d : Dev) (sp : OpSpec) (c : Desc) (p : Dev → Prop) (h : d.out = [] ∧ d.coreRuns = true ∧ calm d = true)
    (hc : d.cps = on.cps)
    (ha : d.fetchTurn = some c.ring.val ∧ d.hqi.staged = [] ∧ c.expert = false ∧ c.resume = false ∧ sp.stdOk = true
      ∧ c.cls.toNat = sp.cls ∧ c.idx < sp.count ∧ c.buffer.toNat % 8 = 0 ∧ d.withdrawn = false
      ∧ sp.life c (d.takeOff c.ring.val) = true ∧ d.il.slw = false ∧ sp.params c (d.takeOff c.ring.val) = true)
    (hp : p d) : Admitted sp c p :=
  stills d _ h hc ⟨.inl (admits_of d sp c ha), hp⟩

theorem admittedExpert (d : Dev) (sp : OpSpec) (c : Desc) (p : Dev → Prop)
    (h : d.out = [] ∧ d.coreRuns = true ∧ calm d = true) (hc : d.cps = on.cps)
    (ha : d.fetchTurn = some c.ring.val ∧ d.hqi.staged = [] ∧ c.expert = true ∧ d.hqi.expertEn = true ∧ c.resume = false
      ∧ sp.expOk = true ∧ c.cls.toNat = sp.cls ∧ c.idx < sp.count ∧ c.buffer.toNat % 8 = 0 ∧ d.withdrawn = false
      ∧ sp.life c (d.takeOff c.ring.val) = true ∧ d.il.slw = false ∧ sp.params c (d.takeOff c.ring.val) = true)
    (hr : d.tr.readOnly = false ∧ d.tr.dropRun = 0 ∧ d.tr.buffer.length + 1 ≤ 200
      ∧ d.tr.buffer.length + 1 < bitsOf (d.reg 0x5800) 16 8 ∧ d.tr.next + 1 + 256 < d.tr.reserve)
    (hp : p d) : Admitted sp c p :=
  stills d _ h hc ⟨.inr (admitsExpert_of d sp c ha (roomy d 1 hr)), hp⟩

/-- A Standard descriptor for an opcode's target class. -/
def std (sp : OpSpec) (index : Nat) (params : List Byte) (data : List Byte := []) : Desc :=
  desc false sp.cls index params data
/-- An Expert descriptor. -/
def xp (sp : OpSpec) (index : Nat) (params : List Byte) (data : List Byte := []) : Desc :=
  desc true sp.cls index params data

theorem witness_ReadingCommands :
    Admitted specNop (std specNop 0 []) ∧
    Admitted specStateSnapshot (std specStateSnapshot 0 (leBytes 0x9000 4 ++ leBytes 0x40 4)) ∧
    Admitted specLedgerQuery (std specLedgerQuery 0 []) ∧
    Admitted specRecorderRead (std specRecorderRead 0 (leBytes 0 8 ++ leBytes 64 2)) ∧
    Admitted specFuseRead (std specFuseRead 63 []) := by
  refine ⟨?_, ?_, ?_, ?_, ?_⟩ <;>
    exact admitted linked _ _ _ (by decide +kernel) rfl (by decide +kernel) trivial

/-- Parameters of BGE_CONFIGURE that change nothing but the first interval of the engine. -/
def intervals : List Byte := [0, 0, 0, 0] ++ leBytes 10 4 ++ List.replicate 36 0xFF

theorem witness_SettingCommands :
    Admitted specThresholdSet (std specThresholdSet 127 (leBytes 0 4 ++ [0xFF])) (fun d =>
      ¬ (96 ≤ 127 ∧ 127 ≤ 123) ∧ 0 ≤ d.thresholdCode 127 0 ∧ d.thresholdCode 127 0 ≤ 1023) ∧
    Admitted specClearNonce (std specClearNonce 0 []) (fun d => d.tr.lockEnd ≤ d.core.uptime) ∧
    Admitted specBgeConfigure (std specBgeConfigure 2 intervals) (fun _ => (std specBgeConfigure 2 intervals).byte 20 = 0) ∧
    Admitted specTelemetryStream (std specTelemetryStream 7 ([1, 1, 0, 0] ++ leBytes 1000 4) (leBytes 0x9000 4)) ∧
    Admitted specCalendarSet (std specCalendarSet 0 (leBytes 5 8)) (fun d => d.roomFor 1) := by
  refine ⟨?_, ?_, ?_, ?_, ?_⟩
  · exact admitted linked _ _ _ (by decide +kernel) rfl (by decide +kernel) (by decide +kernel)
  · exact admitted linked _ _ _ (by decide +kernel) rfl (by decide +kernel) (by decide +kernel)
  · exact admitted linked _ _ _ (by decide +kernel) rfl (by decide +kernel) (by decide +kernel)
  · exact admitted linked _ _ _ (by decide +kernel) rfl (by decide +kernel) trivial
  · exact admitted linked _ _ _ (by decide +kernel) rfl (by decide +kernel) (roomy _ _ (by decide +kernel))

/-! ### Power, references, engines -/

/-- A device with part of its keep-alive domain changed. -/
def ka (f : KeepAlive → KeepAlive) (d : Dev := on) : Dev := { d with ka := f d.ka }
/-- A device with part of its core domain changed. -/
def core (f : CoreDomain → CoreDomain) (d : Dev := on) : Dev := { d with core := f d.core }
/-- A device with part of its Background Engines changed. -/
def bge (f : Background → Background) (d : Dev := on) : Dev := { d with bge := f d.bge }

theorem witness_PowerAndReset :
    (State.reset.dev.silent.core.phase = .off ∧ State.reset.dev.silent.core.rstIn = false) ∧
    ((core (fun c => { c with phase := .off, rstIn := true })).silent.core.phase = .off ∧
      (core (fun c => { c with phase := .off, rstIn := true })).silent.core.rstIn = true) ∧
    Runs (fun d => d.ka.vbak = true ∧ d.core.warnedAt = none) ∧
    (core (fun c => { c with phase := .held })).silent.core.phase = .held ∧
    Runs (fun d => d.ka.vbak = false) :=
  ⟨by decide +kernel, by decide +kernel, runs on _ (by decide +kernel) (by decide +kernel), by decide +kernel,
   runs (ka (fun k => { k with vbak := false })) _ (by decide +kernel) (by decide +kernel)⟩

/-- A departure whose core domain stops at uptime 40,000. -/
def leaving : Departing := ⟨none, true, 3, 0, 40000⟩

theorem witness_LowPowerWakesAndWarnings :
    Stills (fun d => d.core.warnArmed = true ∧ d.ka.lowPower = .awake) ∧
    Stills (fun d => d.ka.vbak = true ∧ d.ka.lowPower ≠ .awake ∧ d.ka.pwrHold = false ∧
      d.ka.arms (d.ka.lowPower == LowPower.depot) .chgDet = true) ∧
    Stills (fun d => d.ka.vbak = true ∧ d.ka.lowPower ≠ .awake ∧ d.ka.pwrHold = true ∧ d.ka.wakeHeld = none ∧
      d.ka.arms (d.ka.lowPower == LowPower.depot) (.wakeIn 3 true) = true) ∧
    Stills (fun d => d.ka.vbak = true ∧ d.ka.lowPower = .stabled ∧ d.ka.pwrHold = false ∧ d.ka.alarmEn = true ∧
      d.ka.alarmS ≠ 0 ∧ d.ka.x32Runs = true) ∧
    Stills (fun d => d.ka.pwrHold = true ∧ d.ka.wakeHeld = none) ∧
    Runs (fun d => d.shelf.leaving = some leaving ∧ leaving.stage = 3 ∧ d.ka.vbak = true) :=
  ⟨stills on _ (by decide +kernel) rfl (by decide +kernel),
   stills (ka (fun k => { k with lowPower := .stabled, chgEn := true })) _ (by decide +kernel) rfl (by decide +kernel),
   stills (ka (fun k => { k with lowPower := .stabled, pwrHold := true, winEn := 15, winPol := 15 })) _ (by decide +kernel) rfl
     (by decide +kernel),
   stills (ka (fun k => { k with lowPower := .stabled, alarmEn := true, alarmS := 1, x32Runs := true })) _
     (by decide +kernel) rfl (by decide +kernel),
   stills (ka (fun k => { k with pwrHold := true })) _ (by decide +kernel) rfl (by decide +kernel),
   runs { on with shelf := { on.shelf with leaving := some leaving } } _ (by decide +kernel) (by decide +kernel)⟩

/-- The calendar runs. -/
def ticking (k : KeepAlive) : KeepAlive := { k with x32Ok := true, x32Runs := true, valid := true }

theorem witness_ReferencesAndTrim :
    Stills (fun d => d.core.xrefOk = true ∧ d.roomFor 1) ∧ Stills (fun d => d.ka.x32Ok = true ∧ d.roomFor 1) ∧
    Stills (fun d => d.ka.x32Ok = false ∧ d.ka.valid = true ∧ d.roomFor 1) ∧
    Stills (fun d => d.engineRuns 1 = true ∧ d.core.xrefOk = true ∧ d.ka.x32Runs = true ∧ d.core.autoEn = true) ∧
    Stills (fun d => d.ka.ticks = true ∧ d.ka.trimRun = 0 ∧ 0 < d.ka.trim ∧ d.ka.trim ≤ 500) ∧
    Stills (fun d => d.ka.ticks = true ∧ d.ka.trimRun = 0 ∧ d.ka.trim < 0 ∧ -500 ≤ d.ka.trim) :=
  ⟨stills (core (fun c => { c with xrefOk := true })) _ (by decide +kernel) rfl ⟨rfl, roomy _ _ (by decide +kernel)⟩,
   stills (ka ticking) _ (by decide +kernel) rfl ⟨rfl, roomy _ _ (by decide +kernel)⟩,
   stills (ka (fun k => { k with x32Ok := false, valid := true })) _ (by decide +kernel) rfl
     ⟨by decide +kernel, rfl, roomy _ _ (by decide +kernel)⟩,
   stills (core (fun c => { c with xrefOk := true, autoEn := true }) (ka ticking)) _ (by decide +kernel) rfl
     (by decide +kernel),
   stills (ka (fun k => { ticking k with trim := 500 })) _ (by decide +kernel) rfl (by decide +kernel),
   stills (ka (fun k => { ticking k with trim := -500 })) _ (by decide +kernel) rfl (by decide +kernel)⟩

theorem witness_DelayLinesAndConverterTrim :
    Stills (fun d => d.engineRuns 1 = true ∧ d.core.xrefOk = true ∧ d.roomFor 1
      ∧ (fileGet d.bge.lines 111 default).stale = false) ∧
    Stills (fun d => d.engineRuns 1 = true ∧ (fileGet d.bge.lines 48 default).measuring = true) ∧
    Stills (fun d => d.engineRuns 1 = true ∧ 0 < d.freeSlots 47) :=
  ⟨stills (core (fun c => { c with xrefOk := true })) _ (by decide +kernel) rfl
     ⟨by decide +kernel, rfl, roomy _ _ (by decide +kernel), by decide +kernel⟩,
   stills (bge (fun b => { b with lines := fileMod b.lines 48 (fun x => { x with measuring := true }) })) _
     (by decide +kernel) rfl (by decide +kernel),
   stills (on.setField 0x08BC 0 8 255) _ (by decide +kernel) rfl (by decide +kernel)⟩

theorem witness_BackgroundEngines :
    Stills (fun d => d.engineRuns 0 = true ∧ memSource 0x05 160 = true ∧ memSource 0x10 160 = true ∧ d.il.flips = []
      ∧ (∀ q < 64, (d.fuse.row q).upset = 0) ∧ popcount 72 (1 : BitVec 72).toNat = 1 ∧ 2 ≤ popcount 72 (3 : BitVec 72).toNat
      ∧ d.engineRuns 1 = true ∧ d.engineRuns 2 = true ∧ d.workWatched 0 = true ∧ bitOf d.bge.late 0 = false) ∧
    on.roomFor 1 ∧
    Stills (fun d => d.workWatched 15 = true ∧ bitOf d.bge.late 15 = false) ∧
    Stills (fun d => d.engineRuns 2 = true ∧ (0xE7 : BitVec 8).toNat ∈ d.bge.retiring ∧ 0 < d.bge.spares) :=
  ⟨stills on _ (by decide +kernel) rfl (by decide +kernel), roomy _ _ (by decide +kernel),
   stills (on.modStream 7 (fun x => { x with en := true })) _ (by decide +kernel) rfl (by decide +kernel),
   stills (bge (fun b => { b with retiring := [0xE7] })) _ (by decide +kernel) rfl (by decide +kernel)⟩

/-- A fault of group 15 that closes at uptime 9. -/
def fault : OpenFault := ⟨1, det 0x10 15 0x10 accCompute 0, 1, .stop, false, ⟨0, 0⟩, 9, false, [], [], 0⟩

/-- A device with its Interlocking changed. -/
def il (f : Interlocking → Interlocking) (d : Dev := on) : Dev := d.modIl f

theorem witness_PaceAndStalls :
    Stills (fun d => ELE_PACE.pace_floor d = 0) ∧
    Stills (fun d => d.core.paceLow = true ∧ 100 ≤ d.core.paceAbove) ∧
    Runs (fun d => (0x15 : BitVec 8).toNat ∈ stallMasters ∧ (0x23 : BitVec 8).toNat ∈ stallMasters ∧ d.il.watched = []
      ∧ (0x42 : BitVec 8).toNat ∈ stallMasters) ∧
    Runs (fun d => d.newestFault.isSome = true) :=
  ⟨stills (on.setField 0x2228 0 12 0) _ (by decide +kernel) rfl (by decide +kernel),
   stills (core (fun c => { c with paceLow := true, paceAbove := 100 })) _ (by decide +kernel) rfl (by decide +kernel),
   runs on _ (by decide +kernel) (by decide +kernel),
   runs (il (fun x => { x with faults := [{ fault with action := .blockReset }] })) _ (by decide +kernel) (by decide +kernel)⟩

/-- Stream 7 enabled, with a frame that waits or with none. -/
def streaming (ready : Option (List Byte)) (d : Dev) : Dev := d.modStream 7 (fun x => { x with en := true, ready := ready })

theorem witness_TelemetryFrames :
    Stills (fun d => d.engineRuns 3 = true ∧ (d.stream 7).en = true ∧ (d.stream 7).ready = none) ∧
    Stills (fun d => d.engineRuns 3 = true ∧ (d.stream 7).ready = some [0, 0] ∧ d.hqi.d3hot = false
      ∧ (d.ring (ringTQ (7 / 4))).room = false) ∧
    Stills (fun d => d.engineRuns 3 = true ∧ (d.stream 7).ready = some [0, 0] ∧ d.hqi.d3hot = false
      ∧ (d.ring (ringTQ (7 / 4))).room = true) :=
  ⟨stills (streaming none on) _ (by decide +kernel) rfl (by decide +kernel),
   stills (streaming (some [0, 0]) on) _ (by decide +kernel) rfl (by decide +kernel),
   stills ((streaming (some [0, 0]) on).modRing 10 (fun r => { r with en := true, log2n := 4 })) _ (by decide +kernel) rfl
     (by decide +kernel)⟩

/-! ### Catch points and the Measurement Array -/

theorem witness_CatchPointsAndDriverFaults :
    Runs (fun d => (d.cp 127).side = .good ∧ (d.cp 127).settling = false) ∧
    Runs (fun d => (d.cp 127).side = .fault ∧ (d.cp 127).settling = false) ∧
    Runs (fun d => (d.cp 127).settling = true ∧ (d.cp 127).side = .deciding) ∧
    Runs (fun d => (d.cp 127).moving = some 2 ∧ (d.cp 127).owner = none ∧ (d.cp 127).settling = false
      ∧ (d.cp 127).side ≠ .off ∧ bitOf d.trip.charged 127 = false) ∧
    Runs (fun d => d.inputAsserted 23 = false) ∧ Runs (fun d => d.inputAsserted 23 = true) :=
  ⟨runs (on.modCp 127 (fun c => { c with side := .good })) _ (by decide +kernel) (by decide +kernel),
   runs (on.modCp 127 (fun c => { c with side := .fault })) _ (by decide +kernel) (by decide +kernel),
   runs (on.modCp 127 (fun c => { c with side := .deciding, settling := true })) _ (by decide +kernel) (by decide +kernel),
   runs (on.modCp 127 (fun c => { c with side := .good, moving := some 2 })) _ (by decide +kernel) (by decide +kernel),
   runs (on.setField (FTA_DF_CFG.reg 23) 6 1 1) _ (by decide +kernel) (by decide +kernel),
   runs on _ (by decide +kernel) (by decide +kernel)⟩

theorem witness_ConverterResults :
    Runs (fun d => MA_CH_CFG.en d 47 = 1 ∧ ([2047] : List (BitVec 12)).length = d.osOf 47) ∧
    Runs (fun d => MA_CH_CFG.en d 47 = 1 ∧ (List.replicate 8 (-2048) : List (BitVec 12)).length = d.osOf 47) ∧
    Runs (fun d => MA_CH_CFG.en d 43 = 0 ∧ d.feedOfConv 43 = some 3) ∧
    Stills (fun d => MA_CH_CFG.en d 47 = 0 ∧ d.feedOfConv 47 = none) :=
  ⟨runs ((on.setField 0x08BC 31 1 1).setField 0x08BC 11 2 0) _ (by decide +kernel) (by decide +kernel),
   runs ((on.setField 0x08BC 31 1 1).setField 0x08BC 11 2 3) _ (by decide +kernel) (by decide +kernel),
   runs ((on.setField 0x08AC 20 3 4).setField 0x08AC 15 5 3) _ (by decide +kernel) (by decide +kernel),
   stills on _ (by decide +kernel) rfl (by decide +kernel)⟩

theorem witness_HousekeepingCoulombsAndSweeps :
    Runs (fun d => d.hkUse.1 = .input 68) ∧ Runs (fun d => d.shelf.since = none) ∧
    Runs (fun d => d.bge.sweeping = true ∧ d.core.phase = .running) ∧
    Runs (fun d => d.bge.sweeping = true ∧ d.core.phase = .sweeping) :=
  ⟨runs on _ (by decide +kernel) (by decide +kernel), runs on _ (by decide +kernel) (by decide +kernel),
   runs (bge (fun b => { b with sweeping := true })) _ (by decide +kernel) (by decide +kernel),
   runs (core (fun c => { c with phase := .sweeping }) (bge (fun b => { b with sweeping := true }))) _ (by decide +kernel)
     (by decide +kernel)⟩

/-! ### Groups, legs, lanes -/

/-- A device with group `g` in a state. -/
def grp (g : Nat) (st : GroupState) (d : Dev := on) : Dev := d.modGroup g (fun x => { x with state := st })
/-- A device with several fields (register offset, low bit, width, value) set. -/
def fields (l : List (Nat × Nat × Nat × Nat)) (d : Dev := on) : Dev :=
  forAll (fun f d => d.setField f.1 f.2.1 f.2.2.1 f.2.2.2) l d
/-- Group 15 has legs 22 and 23. -/
def legged (d : Dev := on) : Dev := fields [(0x21E8, 0, 24, 0xC00000)] d

/-- The group as its sample for the next instant is complete. -/
def sampled (d : Dev) : Dev := ((d.takeInstant 15 ((d.completeInstant 15).getD 0)).missingSamples 15).preSample 15

/-- Group 15's output and input voltage converters run, and have delivered for instant 0. -/
def fed (d : Dev := on) : Dev :=
  forAll (fun n d => (fields [(0x0800 + 4 * n, 31, 1, 1), (0x0800 + 4 * n, 23, 1, 1), (0x0800 + 4 * n, 24, 4, 15),
    (0x0800 + 4 * n, 20, 3, 2 + n), (0x0800 + 4 * n, 15, 5, 15)] d).modSar n (fun c => { c with instant := some 0 })) [0, 1] d

theorem witness_GroupSamples :
    Runs (fun d => d.completeInstant 15 = none) ∧
    Runs (fun d => (d.completeInstant 15).isSome = true ∧ ((sampled d).group 15).state.stopped = true) ∧
    Runs (fun d => (d.completeInstant 15).isSome = true ∧ ((sampled d).group 15).state = .starting
      ∧ (((sampled d).boundary 15).group 15).state = .starting ∧ (((sampled d).boundary 15).group 15).waiting = true
      ∧ 8 ≤ (((sampled d).boundary 15).group 15).samples.length) ∧
    Runs (fun d => (d.completeInstant 15).isSome = true ∧ ((sampled d).group 15).state = .starting
      ∧ (((sampled d).boundary 15).group 15).waiting = false) ∧
    Runs (fun d => (d.completeInstant 15).isSome = true ∧ ((sampled d).group 15).state = .run
      ∧ (((sampled d).boundary 15).group 15).state.stopped = false) ∧
    Runs (fun d => (d.completeInstant 15).isSome = true ∧ ((sampled d).group 15).state = .stopping) :=
  ⟨runs (fields [(0x08BC, 31, 1, 1), (0x08BC, 23, 1, 1), (0x08BC, 24, 4, 15)]) _ (by decide +kernel) (by decide +kernel),
   runs on _ (by decide +kernel) (by decide +kernel),
   runs (fed ((grp 15 .starting).modGroup 15 (fun x =>
     { x with waiting := true, samples := List.replicate 7 ⟨0, 0, []⟩ }))) _ (by decide +kernel) (by decide +kernel),
   runs (grp 15 .starting) _ (by decide +kernel) (by decide +kernel),
   runs (grp 15 .run) _ (by decide +kernel) (by decide +kernel),
   runs (legged ((grp 15 .stopping).modLeg 23 (fun l => { l with state := .discharging }))) _ (by decide +kernel)
     (by decide +kernel)⟩

/-- Group 15 with part of its watches changed. -/
def watching (f : GroupWatch → GroupWatch) (d : Dev := on) : Dev := d.modWatch 15 f

/-- Every lane scheduled. -/
def manned (d : Dev := on) : Dev :=
  forAll (fun l d => d.modLane l (fun x => { x with state := .scheduled })) (indices 6) d

/-- Group 15's model enabled, with a model item due. -/
def modelReady (d : Dev) : Dev :=
  fields [(0x25E0, 30, 2, 2)] (d.modGroup 15 (fun x => { x with model := { x.model with ready := true } }))

theorem witness_ModelsAndLimits :
    Runs (fun d => d.computes 15 = true ∧ (d.group 15).model.ready = true ∧ d.il.slw = false
      ∧ ELE_MDL_CFG.model_en d 15 = 1 ∧ ELE_MDL_CFG.fe_mode d 15 = 0 ∧ 5 ∈ d.scheduledLanes) ∧
    Runs (fun d => d.computes 15 = true ∧ (d.group 15).model.ready = true ∧ d.il.slw = false
      ∧ ELE_MDL_CFG.model_en d 15 = 1 ∧ ELE_MDL_CFG.fe_mode d 15 = 0 ∧ 0 ∉ d.scheduledLanes
      ∧ d.scheduledLanes.head? = some 1) ∧
    Runs (fun d => d.groupOfLeg 23 = some 15 ∧ (d.leg 23).model.inside = some 9 ∧ (d.leg 23).health = .saturated) ∧
    Runs (fun d => (d.group 15).watch.feSince = some 9 ∧ (d.group 15).watch.feTold = false) ∧
    Runs (fun d => 0 < ELE_GRP_RATIO.limit_report d 15 ∧ (d.group 15).watch.limiting = false
      ∧ (d.group 15).watch.nonVreg = some 9) ∧
    Runs (fun d => 0 < ELE_GRP_RATIO.limit_report d 15 ∧ (d.group 15).watch.limiting = true
      ∧ (d.group 15).watch.vregSince = some 9) :=
  ⟨runs (modelReady (manned (grp 15 .run))) _ (by decide +kernel) (by decide +kernel),
   runs ((modelReady (manned (grp 15 .stopping))).modLane 0 (fun l => { l with state := .retired })) _ (by decide +kernel)
     (by decide +kernel),
   runs (legged (on.modLeg 23 (fun l => { l with health := .saturated, model := { l.model with inside := some 9 } }))) _
     (by decide +kernel) (by decide +kernel),
   runs (watching (fun w => { w with feSince := some 9 })) _ (by decide +kernel) (by decide +kernel),
   runs (fields [(0x21F4, 24, 8, 255)] (watching (fun w => { w with nonVreg := some 9 }))) _ (by decide +kernel)
     (by decide +kernel),
   runs (fields [(0x21F4, 24, 8, 1)] (watching (fun w => { w with vregSince := some 9, limiting := true }))) _
     (by decide +kernel) (by decide +kernel)⟩

theorem witness_GroupTimers :
    Runs (fun d => (d.group 15).state = .softStart) ∧
    Runs (fun d => (d.group 15).watch.restartAt = some 9 ∧ (d.group 15).state = .starting) ∧
    Runs (fun d => (d.group 15).watch.restartAt = some 9 ∧ (d.group 15).state = .faulted
      ∧ ((d.until 9).modWatch 15 (fun w => { w with restartAt := none })).noAutoStart 15 = false) ∧
    Runs (fun d => (d.group 15).state = .run) ∧ Runs (fun d => d.discharging 15 = true) :=
  ⟨runs (grp 15 .softStart) _ (by decide +kernel) (by decide +kernel),
   runs (watching (fun w => { w with restartAt := some 9 }) (grp 15 .starting)) _ (by decide +kernel) (by decide +kernel),
   runs (watching (fun w => { w with restartAt := some 9 }) (grp 15 .faulted)) _ (by decide +kernel) (by decide +kernel),
   runs (grp 15 .run) _ (by decide +kernel) (by decide +kernel),
   runs (legged (on.modLeg 23 (fun l => { l with state := .discharging }))) _ (by decide +kernel) (by decide +kernel)⟩

theorem witness_PhaseTiming :
    Runs (fun d => (d.group 15).state = .run ∧ PTU_GRP_SHED.shed_en d 15 = 1 ∧
      PTU_GRP_SHED.min_ph d 15 + ((d.phasesOf 15).filter (fun p => (d.leg p).next == .shed)).length
        < (d.activePhases 15).length ∧ d.lightLoad 15 = true ∧ d.shedChoice 15 = some 23) ∧
    Runs (fun d => d.groupOfLeg 23 = some 15 ∧ (d.leg 23).absent = some 9 ∧ (d.leg 23).state = .idle
      ∧ PTU_LEG_CFG.park_auto d 23 = 1) ∧
    Runs (fun d => 23 ≠ d.phaseOfLeg 23) ∧
    Runs (fun d => d.groupOfLeg 23 = some 15 ∧ 23 = d.phaseOfLeg 23 ∧ 0 < (d.group 15).rate.switchPeriod
      ∧ PTU_GRP_TIM.load d 15 = 1 ∧ (d.leg 23).startAt.isSome = true ∧ (d.leg 23).half = false) :=
  ⟨runs (fields [(0x30F4, 31, 1, 1), (0x30F4, 26, 5, 1), (0x30F4, 10, 8, 255)]
     (legged (((grp 15 .run).modLeg 22 (fun l => { l with state := .switching })).modLeg 23
       (fun l => { l with state := .switching })))) _ (by decide +kernel) (by decide +kernel),
   runs (fields [(0x3270, 29, 1, 1)] (legged (on.modLeg 23 (fun l => { l with absent := some 9 })))) _ (by decide +kernel)
     (by decide +kernel),
   runs (fields [(0x21E4, 30, 2, 2)] legged) _ (by decide +kernel) (by decide +kernel),
   runs ((fields [(0x30F0, 17, 1, 1)] (legged (on.modLeg 23 (fun l => { l with startAt := some 0 })))).modGroup 15 (fun x =>
     { x with rate := { x.rate with period := 200, spp := 1, pps := 1 } })) _ (by decide +kernel) (by decide +kernel)⟩

/-- The vote of group 15 on lane 0, checked by lane 1. -/
def vote : Vote := ⟨15, 0, 1, 9, false⟩

/-- A sample item of group 15 that lane 0 ran, as its record keeps it. -/
def ranItem : WorkRecord := .sample ⟨15, 0, default, (default : ItemInput).run⟩

theorem witness_ChecksAndVotes :
    Runs (fun d => d.il.slw = false ∧ d.checkRecord 15 false = some ranItem ∧ d.checkerFor ranItem.lane 5 = some 5
      ∧ d.computes ranItem.group = true ∧ d.il.laneCorrupt = none ∧ ranItem.differs false = false
      ∧ 3 ≤ d.healthyLanes.length ∧ (d.group 15).watch.lateTold = false) ∧
    Runs (fun d => d.il.slw = false ∧ d.checkRecord 15 true = some ranItem ∧ d.checkerFor ranItem.lane 5 = some 1
      ∧ d.computes ranItem.group = true ∧ d.il.laneCorrupt = none ∧ d.healthyLanes.length < 3) ∧
    Runs (fun d => d.sup.votes = [vote] ∧ d.il.slw = false ∧ 5 ≠ vote.ran ∧ 5 ≠ vote.checker
      ∧ (d.lane 5).state = .scheduled ∧ vote.forced = false) ∧
    Runs (fun d => (d.lane 5).strikes.getLast? = some 9) :=
  ⟨runs ((manned (grp 15 .run)).modGroup 15 (fun x => { x with item := some ⟨15, 0, default, (default : ItemInput).run⟩ })) _
     (by decide +kernel) (by decide +kernel),
   runs (forAll (fun l d => d.modLane l (fun x => { x with state := .retired })) [2, 3, 4, 5]
     { manned (grp 15 .run) with sup := { (manned (grp 15 .run)).sup with queue := [ranItem] } }) _ (by decide +kernel)
     (by decide +kernel),
   runs ({ on with sup := { on.sup with votes := [vote] } }.modLane 5 (fun l => { l with state := .scheduled })) _
     (by decide +kernel) (by decide +kernel),
   runs (on.modLane 5 (fun l => { l with strikes := [9] })) _ (by decide +kernel) (by decide +kernel)⟩

theorem witness_LaneTestsAndOverrunSteps :
    Runs (fun d => (d.lane 5).state = .testing ∧ (d.lane 5).back = .spare ∧ d.healthyLanes.length = 6
      ∧ (d.lane 5).health = 0) ∧
    Runs (fun d => (d.lane 0).state = .testing ∧ (d.lane 0).back = .scheduled ∧ (d.lane 0).health ≠ 0) ∧
    Runs (fun d => d.il.slw = false ∧ d.sup.overrunAt = none ∧ d.sup.highSince = some 9 ∧ d.sup.lowSince = some 9) :=
  ⟨runs (manned.modLane 5 (fun l => { l with state := .testing, back := .spare })) _ (by decide +kernel) (by decide +kernel),
   runs (on.modLane 0 (fun l => { l with state := .testing, back := .scheduled, health := 3 })) _ (by decide +kernel)
     (by decide +kernel),
   runs { on with sup := { on.sup with highSince := some 9, lowSince := some 9 } } _ (by decide +kernel) (by decide +kernel)⟩

/-! ### Feeds, branches, strings -/

/-- Feed 3 changed. -/
def feed (f : Feed → Feed) (d : Dev := on) : Dev := d.modFeed 3 f
/-- Branch 23 changed. -/
def branch (f : Branch → Branch) (d : Dev := on) : Dev := d.modBranch 23 f
/-- String 3 changed. -/
def str (f : BString → BString) (d : Dev := on) : Dev := d.modStr 3 f

theorem witness_FeedTimers :
    Runs (fun d => (d.feed 3).state = .inrush) ∧
    Runs (fun d => (d.feed 3).hold.live = true ∧ (d.feed 3).state = .tripped) ∧
    Runs (fun d => (d.feed 3).state = .on ∧ (d.feed 3).clearAt = some 9 ∧ (d.feed 3).warnMask = 0) ∧
    Runs (fun d => d.supplier 3 = some 15 ∧ (d.group 15).watch.warnSince = some 9 ∧ FC_SOA_T.lim_warn d 3 ≠ 0) ∧
    Runs (fun d => d.il.slw = false ∧ FC_SHARE.en d 1 = 0) ∧
    Runs (fun d => d.il.slw = false ∧ FC_SHARE.en d 1 = 1 ∧ ((d.members 1).filter d.participates).length < 2) :=
  ⟨runs (feed (fun x => { x with state := .inrush })) _ (by decide +kernel) (by decide +kernel),
   runs (feed (fun x => { x with state := .tripped, hold := { x.hold with live := true } })) _ (by decide +kernel)
     (by decide +kernel),
   runs (feed (fun x => { x with state := .on, clearAt := some 9 })) _ (by decide +kernel) (by decide +kernel),
   runs (fields [(0x21E4, 22, 3, 7), (0x38E0, 0, 8, 1)] (watching (fun w => { w with warnSince := some 9 }))) _
     (by decide +kernel) (by decide +kernel),
   runs on _ (by decide +kernel) (by decide +kernel),
   runs (fields [(0x3904, 31, 1, 1)]) _ (by decide +kernel) (by decide +kernel)⟩

theorem witness_BranchTimers :
    (∀ st : BranchState, st = .ramp ∨ st = .on ∨ st = .limiting → Runs (fun d => (d.branch 23).state = st)) ∧
    (∀ st, Runs (fun d => ((((d.branchMissing 23).branchModel 23).branchExits 23).branch 23).state = st)) ∧
    Runs (fun d => let x := (((d.branchMissing 23).branchModel 23).branchExits 23).branch 23
      x.state = .on ∧ x.lim = true) ∧
    Runs (fun d => (d.branch 23).state.conducts = true ∧ (d.branch 23).lim = true) ∧
    Runs (fun d => (d.branch 23).state = .limiting ∧ (d.branch 23).letGo = some 9) ∧
    Runs (fun d => (d.branch 23).hold.live = true ∧ (d.branch 23).state = .tripped) ∧
    Runs (fun d => (d.branch 23).hold.live = true ∧ (d.branch 23).state = .locked ∧ (d.branch 23).wanted = true) ∧
    Runs (fun d => BC_BANK_CFG.en d 3 = 1 ∧
      let c := BC_BANK_CFG.sum_conv d 3
      let whole : Int := (d.sar c).filtered * 2 * (d.fsOf c : Int)
      let parts := (((indices 24).filter (fun n => BC_CTRL.bank d n == 3 && (d.branch n).state != .off)).map d.branchI).sum
      (whole - (parts : Int)).natAbs ≤ BC_BANK_CFG.tol d 3 * 64 * d.fsOf c) := by
  refine ⟨fun st h => runs (branch (fun x => { x with state := st })) _ ?_ ?_,
    fun st => runs (branch (fun x => { x with state := st })) _ ?_ ?_,
    runs (branch (fun x => { x with state := .on, lim := true })) _ (by decide +kernel) (by decide +kernel),
    runs (branch (fun x => { x with state := .on, lim := true })) _ (by decide +kernel) (by decide +kernel),
    runs (branch (fun x => { x with state := .limiting, letGo := some 9 })) _ (by decide +kernel) (by decide +kernel),
    runs (branch (fun x => { x with state := .tripped, hold := { x.hold with live := true } })) _ (by decide +kernel)
      (by decide +kernel),
    runs (branch (fun x => { x with state := .locked, wanted := true, hold := { x.hold with live := true } })) _
      (by decide +kernel) (by decide +kernel),
    runs (fields [(0x4230, 31, 1, 1)]) _ (by decide +kernel) (by decide +kernel)⟩
  · rcases h with rfl | rfl | rfl <;> decide +kernel
  · rcases h with rfl | rfl | rfl <;> decide +kernel
  · cases st <;> decide +kernel
  · cases st <;> decide +kernel

theorem witness_StringTimers :
    Runs (fun d => (d.str 3).state = .starting ∧ (d.str 3).gapping = true) ∧
    Runs (fun d => (d.str 3).state = .precharge) ∧
    Runs (fun d => (d.str 3).state = .closing ∧ (d.str 3).kas = false) ∧
    Runs (fun d => (d.str 3).kd = true ∧ (d.str 3).held = false) ∧
    Runs (fun d => (d.str 3).shut = some 9) ∧
    Runs (fun d => (d.str 3).state = .connected ∧ (d.str 3).cutFrom = some 9 ∧ (d.str 3).wait = some 9) ∧
    Runs (fun d => (d.str 3).state = .opening ∧ (d.str 3).kas = true) :=
  ⟨runs (str (fun x => { x with state := .starting, gapping := true })) _ (by decide +kernel) (by decide +kernel),
   runs (str (fun x => { x with state := .precharge })) _ (by decide +kernel) (by decide +kernel),
   runs (str (fun x => { x with state := .closing, kas := false })) _ (by decide +kernel) (by decide +kernel),
   runs (str (fun x => { x with kd := true })) _ (by decide +kernel) (by decide +kernel),
   runs (str (fun x => { x with shut := some 9 })) _ (by decide +kernel) (by decide +kernel),
   runs (str (fun x => { x with state := .connected, cutFrom := some 9, wait := some 9 })) _ (by decide +kernel)
     (by decide +kernel),
   runs (str (fun x => { x with state := .opening, kas := true })) _ (by decide +kernel) (by decide +kernel)⟩

theorem witness_EstimatorAnchors :
    Runs (fun d => d.shelf.since = some 9 ∧ d.shelf.lowFrom = some 10) ∧
    Runs (fun d => (d.str 3).est.full = some 9) ∧ Runs (fun d => (d.str 3).est.empty = some 9) :=
  ⟨runs { on with shelf := { on.shelf with since := some 9, lowFrom := some 10 } } _ (by decide +kernel) (by decide +kernel),
   runs (on.modEst 3 (fun x => { x with full := some 9 })) _ (by decide +kernel) (by decide +kernel),
   runs (on.modEst 3 (fun x => { x with empty := some 9 })) _ (by decide +kernel) (by decide +kernel)⟩

/-! ### Timetable, masters, offices, Interlocking, Train Register -/

/-- A device with its Timetable changed. -/
def tt (f : Timetable → Timetable) (d : Dev := on) : Dev := d.modTt f
/-- Rail 15 changed. -/
def rail (f : Rail → Rail) (d : Dev := on) : Dev := d.modRail 15 f

theorem witness_TimetableTimers :
    Runs (fun d => d.tt.state = .rising ∧ d.tt.gap = some 9) ∧ Runs (fun d => d.tt.state = .falling ∧ d.tt.gap = some 9) ∧
    Runs (fun d => d.tt.state = .up ∧ d.tt.shedGap = some 9 ∧ d.tt.shedStep = some 15) ∧
    Runs (fun d => (d.rail 15).state = .ramping) ∧ Runs (fun d => (d.rail 15).state = .falling) ∧
    Runs (fun d => (d.rail 15).dis = some 9) ∧ Runs (fun d => d.tt.state = .down) ∧ Runs (fun d => d.tt.state = .halted) :=
  ⟨runs (tt (fun t => { t with state := .rising, gap := some 9 })) _ (by decide +kernel) (by decide +kernel),
   runs (tt (fun t => { t with state := .falling, gap := some 9 })) _ (by decide +kernel) (by decide +kernel),
   runs (tt (fun t => { t with state := .up, shedGap := some 9, shedStep := some 15 })) _ (by decide +kernel)
     (by decide +kernel),
   runs (rail (fun r => { r with state := .ramping })) _ (by decide +kernel) (by decide +kernel),
   runs (rail (fun r => { r with state := .falling })) _ (by decide +kernel) (by decide +kernel),
   runs (rail (fun r => { r with dis := some 9 })) _ (by decide +kernel) (by decide +kernel),
   runs on _ (by decide +kernel) (by decide +kernel),
   runs (tt (fun t => { t with state := .halted })) _ (by decide +kernel) (by decide +kernel)⟩

theorem witness_HaltAndBellLine :
    Runs (fun d => d.tt.level = true ∧ TT_CTRL.halt_in d = 1) ∧ Runs (fun d => TT_CTRL.halt_in d = 0 ∧ d.tt.drive = false) ∧
    Runs (fun d => TT_BELL.en d = 1 ∧ badCell 0x7F = some 0 ∧ badCell 0x80 = some 6 ∧ badCell 0x83 = some 7
      ∧ badCell 0x82 = none ∧ badCell 0xFC = none ∧ TT_BELL.head d = 1) ∧
    Runs (fun d => TT_BELL.en d = 1 ∧ TT_BELL.head d = 0) ∧ Runs (fun d => d.tt.ringEnd = some 9) :=
  ⟨runs (fields [(0x4800, 21, 1, 1)] (tt (fun t => { t with level := true }))) _ (by decide +kernel) (by decide +kernel),
   runs (fields [(0x4800, 21, 1, 0)] (tt (fun t => { t with drive := false }))) _ (by decide +kernel) (by decide +kernel),
   runs (fields [(0x4804, 30, 2, 3)]) _ (by decide +kernel) (by decide +kernel),
   runs (fields [(0x4804, 30, 2, 2)]) _ (by decide +kernel) (by decide +kernel),
   runs (tt (fun t => { t with ringEnd := some 9 })) _ (by decide +kernel) (by decide +kernel)⟩

/-- A transaction of the host's, sent for the first time. -/
def item : BusItem := ⟨.user 5, 3, 0x40, none, 0x20, [], 1, false, 0⟩
/-- A frame of the host's, sent for the first time, and again. -/
def frame (again : Bool) : AvsItem := ⟨.user 5, 2, 0, 0, 0, again⟩

theorem witness_BusMasters :
    Runs (fun d => PB_CFG.en d 3 = 1 ∧ PB_CFG.tele_ms d 3 ≠ 0 ∧ PB_CFG.alert_en d 3 = 1 ∧ (d.pb 3).current = none
      ∧ (d.pb 3).queue = []) ∧
    Runs (fun d => (d.pb 3).current = some item ∧ PB_CFG.pec d 3 = 0 ∧ (4 : Fin 5) ≠ 0 ∧ item.tries < PB_CFG.retries d 3) ∧
    Runs (fun d => PB_CFG.en d 3 = 1 ∧ (d.pb 3).current = some item ∧ PB_CFG.pec d 3 ≠ 0
      ∧ item.tries < PB_CFG.retries d 3) ∧
    Runs (fun d => (d.pb 3).current = some item ∧ PB_CFG.retries d 3 ≤ item.tries) ∧
    (∀ again, Runs (fun d => (d.av 1).current = some (frame again) ∧ (frame again).again = again)) ∧
    Runs (fun d => AV_CFG.en d 1 = 1) :=
  ⟨runs (fields [(0x4C30, 31, 1, 1), (0x4C30, 27, 1, 1), (0x4C30, 8, 8, 1)]) _ (by decide +kernel) (by decide +kernel),
   runs (fields [(0x4C30, 24, 3, 7)] (on.modPb 3 (fun m => { m with current := some item }))) _ (by decide +kernel)
     (by decide +kernel),
   runs (fields [(0x4C30, 31, 1, 1), (0x4C30, 28, 1, 1), (0x4C30, 24, 3, 7)] (on.modPb 3 (fun m =>
     { m with current := some item }))) _ (by decide +kernel) (by decide +kernel),
   runs (fields [(0x4C30, 24, 3, 0)] (on.modPb 3 (fun m => { m with current := some item }))) _ (by decide +kernel)
     (by decide +kernel),
   fun again => runs (on.modAv 1 (fun m => { m with current := some (frame again) })) _
     (by cases again <;> decide +kernel) (by cases again <;> decide +kernel),
   runs (fields [(0x4C50, 31, 1, 1)]) _ (by decide +kernel) (by decide +kernel)⟩

/-- Slot 78 of the Token Office changed, and the second request of the PROG users beside it. -/
def slot (f : Slot → Slot) (d : Dev := on) : Dev := d.modSlot 78 f
def second (f : Slot → Slot) (d : Dev := on) : Dev := d.modSlot slotSecond f

theorem witness_TokenTimers :
    Runs (fun d => firstDue d.office.recovering ≠ none) ∧
    Runs (fun d => (d.slot 78).state = .waiting ∧ d.slotBusy slotSecond = false) ∧
    Runs (fun d => d.slotBusy slotSecond = true ∧ (d.slot slotSecond).state = .waiting) ∧
    Runs (fun d => (d.slot 78).state = .holding ∧ (d.slot 78).lapses ≠ 0) :=
  ⟨runs { on with office := { on.office with recovering := [⟨1000, 9⟩] } } _ (by decide +kernel) (by decide +kernel),
   runs (slot (fun x => { x with state := .waiting })) _ (by decide +kernel) (by decide +kernel),
   runs (second (fun x => { x with state := .waiting }) (slot (fun x => { x with state := .holding }))) _ (by decide +kernel)
     (by decide +kernel),
   runs (slot (fun x => { x with state := .holding, lapses := 9 })) _ (by decide +kernel) (by decide +kernel)⟩

/-- An observation of a forced comparator. -/
def watched : Injection := ⟨2, 5, 0, 400000, false, 0, 7, 5⟩

theorem witness_InterlockingTimers :
    Runs (fun d => d.il.faults = [fault]) ∧
    Runs (fun d => d.il.slw = true ∧ d.il.shedAt = some 9) ∧
    Runs (fun d => IL_HB.hb_timeout d ≠ 0 ∧ d.il.hostSilent = false ∧ IL_HB.hb_act d = 1) ∧
    Runs (fun d => IL_HB.sp_timeout d ≠ 0 ∧ d.il.spSilent = false ∧ IL_HB.sp_act d = 1) ∧
    Runs (fun d => d.il.armedUntil = some 9) ∧ Runs (fun d => d.il.watched = [watched]) :=
  ⟨runs (il (fun x => { x with faults := [fault] })) _ (by decide +kernel) (by decide +kernel),
   runs (il (fun x => { x with slw := true, shedAt := some 9 })) _ (by decide +kernel) (by decide +kernel),
   runs (fields [(0x5404, 0, 16, 65535), (0x5404, 30, 2, 1)]) _ (by decide +kernel) (by decide +kernel),
   runs (fields [(0x5404, 16, 12, 1), (0x5404, 28, 2, 1)]) _ (by decide +kernel) (by decide +kernel),
   runs (il (fun x => { x with armedUntil := some 9 })) _ (by decide +kernel) (by decide +kernel),
   runs (il (fun x => { x with watched := [watched] })) _ (by decide +kernel) (by decide +kernel)⟩

/-- A device with its Train Register changed. -/
def tr (f : TrainRegister → TrainRegister) (d : Dev := on) : Dev := { d with tr := f d.tr }
/-- A record with a sequence number. -/
def recOf (seq : Nat) : Rec := { (default : Rec) with seq := seq }

theorem witness_TrainRegisterTimers :
    Runs (fun d => d.tr.scanning = false ∧ d.tr.flushTo = some 4 ∧ d.tr.buffer = [recOf 3, recOf 4] ∧ (recOf 3).seq ≤ 4
      ∧ d.tr.clearing = none ∧ (recOf 4).seq ≤ 4) ∧
    Runs (fun d => d.tr.scanning = false ∧ d.tr.flushTo = some 4 ∧ d.tr.buffer = [recOf 4] ∧ (recOf 4).seq ≤ 4
      ∧ d.tr.clearing = none) ∧
    Runs (fun d => d.tr.scanning = true ∧ ringTorn d.tr.ring = 0 ∧ d.tr.log = []) ∧
    Runs (fun d => d.tr.flushTo = none ∧ d.tr.clearing = some ⟨true, 0, 7, 5, 0, none⟩) ∧
    Runs (fun d => d.tr.nonce.isSome = true) ∧ Runs (fun d => d.core.uptime < d.tr.lockEnd) :=
  ⟨runs (tr (fun t => { t with flushTo := some 4, buffer := [recOf 3, recOf 4] })) _ (by decide +kernel) (by decide +kernel),
   runs (tr (fun t => { t with flushTo := some 4, buffer := [recOf 4] })) _ (by decide +kernel) (by decide +kernel),
   runs (tr (fun t => { t with scanning := true })) _ (by decide +kernel) (by decide +kernel),
   runs (tr (fun t => { t with clearing := some ⟨true, 0, 7, 5, 0, none⟩ })) _ (by decide +kernel) (by decide +kernel),
   runs (tr (fun t => { t with nonce := some 0 })) _ (by decide +kernel) (by decide +kernel),
   runs (tr (fun t => { t with lockEnd := 1 })) _ (by decide +kernel) (by decide +kernel)⟩

/-- The programming of row 55 at a command's request. -/
def blowing : FuseRun := ⟨55, 1, some 5, 7⟩

theorem witness_RepairProgrammingUnknown :
    Runs (fun d => d.book.retryAt = some 9) ∧
    Runs (fun d => d.fuse.run = some blowing ∧ blowing.row < 56 ∧ blowing.fetch = some 5) ∧
    Stills (fun d => opcodeOf (0x05 : BitVec 8).toNat = none ∧ opcodeOf (0xFF : BitVec 8).toNat = none
      ∧ d.fetchTurn = some 0 ∧ d.hqi.staged = []) :=
  ⟨runs { on with book := { on.book with retryAt := some 9 } } _ (by decide +kernel) (by decide +kernel),
   runs { on with fuse := { on.fuse with run := some blowing } } _ (by decide +kernel) (by decide +kernel),
   stills linked _ (by decide +kernel) rfl (by decide +kernel)⟩

theorem witness_TestAccessPort : Stills (fun d => d.core.supplies.vddio = true) :=
  stills on _ (by decide +kernel) rfl (by decide +kernel)

/-! ### A configured group, and the commands of its family -/

/-- Converters 0 to 3 and 40 to 43 run, with a full scale of 60,000. -/
def scaled : Dev :=
  forAll (fun n d => fields [(0x0800 + 4 * n, 31, 1, 1), (0x0980 + 4 * n, 0, 31, 60000)] d) [0, 1, 2, 3, 40, 41, 42, 43] linked

/-- GROUP_CONFIGURE of group 0: a buck of legs 0 and 1, output at converter 0, input at converter 1, phases at 2 and 3,
a period of 200 ticks and 200 kHz. -/
def configure : Desc :=
  std specGroupConfigure 0
    (leBytes 3 3 ++ [0x20, 0, 0, 1, 2, 0, 1] ++ leBytes 200 2 ++ leBytes 1000000 4 ++ leBytes 1000 4 ++ [1, 1, 0, 1]
      ++ leBytes 200000 4 ++ leBytes 0 2 ++ [1, 1] ++ leBytes 0 4)
    ([2, 3] ++ List.replicate 22 0xFF)

/-- The device after it, in the model's own words. -/
def plant : Dev := scaled.groupPlaced configure 1 1 0

/-- The registers of group 0 as they stand, as an Expert buffer. -/
def image (rs : List Nat) (d : Dev := plant) : List Byte := rs.flatMap (fun r => leBytes (d.reg r) 4)

/-- GROUP_LIMITS that sets the current limit alone. -/
def limit : Desc := std specGroupLimits 0 (leBytes 5000 4 ++ List.replicate 40 0xFF)

theorem witness_GroupSettings_configure :
    Admitted specGroupConfigure configure (fun d => let e := d.started specGroupConfigure configure
      (e.group 0).state.stopped = true ∧ e.groupOk configure = true ∧ e.spreadInstants 0 200 = [(0, 0)]
      ∧ splitRate (configure.num 30 2) (configure.num 44 4) = some (1, 1) ∧ periodOk (configure.num 30 2) 1 1 = true) ∧
    (let c := xp specGroupConfigure 0 [] (image (groupRegs 0))
     Admitted specGroupConfigure c (fun d => let e := d.started specGroupConfigure c
      let e1 := (e.setImages (c.images (groupRegs 0))).setField (ELE_GRP_CTRL.reg 0) 16 1 1
      (e.group 0).state.stopped = true ∧ 36 ≤ c.length.toNat ∧ imagesOk (c.images (groupRegs 0)) = true
      ∧ e1.groupRegsOk 0 = true)) :=
  ⟨admitted scaled _ _ _ (by decide +kernel) rfl (by decide +kernel) (by decide +kernel),
   admittedExpert plant _ _ _ (by decide +kernel) rfl (by decide +kernel) (by decide +kernel) (by decide +kernel)⟩

/-- GROUP_LIMITS that sets a current limit of -2 A, and voltage limits of 0 to 50 V. -/
def limitBelow : Desc :=
  std specGroupLimits 0 (leBytes 0xFFFFF830 4 ++ List.replicate 8 0xFF ++ leBytes 0 4 ++ leBytes 50000 4 ++ List.replicate 24 0xFF)

/-- What a GROUP_LIMITS writes fits, and the present target of VREG lies in its voltage window. -/
def limitsFit (e : Dev) (w : LimitWords) : Bool :=
  imageOk (ELE_GRP_DLIM.reg 0) w.dlim && imageOk (ELE_GRP_VWIN.reg 0) w.vwin && imageOk (ELE_GRP_SLEW.reg 0) w.slew
    && bitsOf w.dlim 0 16 ≤ bitsOf w.dlim 16 16 && bitsOf w.vwin 0 16 ≤ bitsOf w.vwin 16 16
    && sat48 w.t1 == w.t1 && sat48 w.t2 == w.t2 && sat48 w.t3 == w.t3
    && (bitsOf w.vwin 0 16 * 4096 : Nat) ≤ e.target 0 0 && e.target 0 0 ≤ (bitsOf w.vwin 16 16 * 4096 : Nat)

theorem witness_GroupSettings_limits :
    Admitted specGroupLimits limit (fun d => let e := d.started specGroupLimits limit
      limit.optI 20 4 = some 5000 ∧ e.icapFs 0 ≠ none ∧ limit.opt 24 4 = none ∧ limit.optI 28 4 = none
      ∧ limit.optI 32 4 = none ∧ limit.optI 36 4 = none ∧ limit.opt 40 2 = none ∧ limit.opt 42 2 = none
      ∧ e.waitingWord 0 (ELE_GRP_VWIN.reg 0) = 0 ∧ bitsOf (e.waitingWord 0 (ELE_GRP_SLEW.reg 0)) 16 16 ≤ 65535
      ∧ bitsOf (e.waitingWord 0 (ELE_GRP_SLEW.reg 0)) 0 16 ≤ 65535 ∧ (e.limitWords limit).any (limitsFit e) = true) ∧
    Admitted specGroupLimits limitBelow (fun d => let e := d.started specGroupLimits limitBelow
      limitBelow.optI 20 4 = some (-2000) ∧ limitBelow.optI 32 4 = some 0 ∧ limitBelow.optI 36 4 = some 50000
      ∧ e.icapFs 0 ≠ none ∧ e.voutFs 0 = some 60000 ∧ (e.limitWords limitBelow).any (limitsFit e) = true) ∧
    (let c := xp specGroupLimits 0 (leBytes 0x80000000 4 ++ leBytes 0x80000000 4 ++ leBytes 0 4)
     Admitted specGroupLimits c (fun d => limitsFit (d.started specGroupLimits c)
      ⟨c.num 20 4, c.num 24 4, c.num 28 4, c.int 32 8 * 256, c.int 40 8 * 256, c.int 48 8 * 256⟩ = true)) :=
  ⟨admitted plant _ _ _ (by decide +kernel) rfl (by decide +kernel) (by decide +kernel),
   admitted plant _ _ _ (by decide +kernel) rfl (by decide +kernel) (by decide +kernel),
   admittedExpert plant _ _ _ (by decide +kernel) rfl (by decide +kernel) (by decide +kernel) (by decide +kernel)⟩

theorem witness_GroupSettings_shed :
    (let c := std specShedPolicy 0 ([1, 1, 10, 0] ++ leBytes 1000 4 ++ leBytes 2000 4)
     Admitted specShedPolicy c (fun d => let e := d.started specShedPolicy c
      let fs := (e.icapFs 0).getD 0
      let code := fun (off : Nat) => c.int off 4 * 256 * (e.phaseCount 0 : Int) / (fs : Int)
      let v := place 31 1 (c.byte 20) + place 26 5 (c.byte 21) + place 18 8 (code 28).toNat + place 10 8 (code 24).toNat
        + place 2 8 (c.byte 22)
      e.icapFs 0 = some fs ∧ fs ≠ 0 ∧ e.phaseCount 0 ≠ 0 ∧ 0 ≤ c.int 24 4 ∧ c.int 24 4 < c.int 28 4 ∧ 0 ≤ code 24
      ∧ code 24 ≤ 255 ∧ 0 ≤ code 28 ∧ code 28 ≤ 255 ∧ 1 ≤ c.byte 21 ∧ c.byte 21 ≤ 24 ∧ c.byte 20 ≤ 1 ∧ c.byte 22 ≠ 0
      ∧ imageOk (PTU_GRP_SHED.reg 0) v = true
      ∧ bitsOf v 10 8 < bitsOf v 18 8)) ∧
    (let c := xp specShedPolicy 0 (leBytes (1 * 2 ^ 26 + 255 * 2 ^ 18 + 254 * 2 ^ 10 + 4) 4)
     Admitted specShedPolicy c (fun _ => imageOk (PTU_GRP_SHED.reg 0) (c.num 20 4) = true
      ∧ bitsOf (c.num 20 4) 10 8 < bitsOf (c.num 20 4) 18 8)) :=
  ⟨admitted plant _ _ _ (by decide +kernel) rfl (by decide +kernel) (by decide +kernel),
   admittedExpert plant _ _ _ (by decide +kernel) rfl (by decide +kernel) (by decide +kernel) (by decide +kernel)⟩

/-- COEFF_LOAD of a Type II design for VREG: integrator 5 kHz, zero 2 kHz, pole 50 kHz. -/
def design : Desc :=
  std specCoeffLoad 0 ([0, 2, 0, 0] ++ leBytes 5000 4 ++ leBytes 2000 4 ++ leBytes 0 4 ++ leBytes 50000 4)

theorem witness_GroupLoads_coeffs :
    Admitted specCoeffLoad design (fun d => let e := d.started specCoeffLoad design
      let x : Design := ⟨design.byte 21 == 3, design.num 24 4, design.num 28 4, design.num 32 4, design.num 36 4, design.num 40 4⟩
      bitOf (ELE_GRP_CTRL.order e 0) (design.byte 20) = (design.byte 21 == 3) ∧ x.fits 200 = true
      ∧ (x.codes 200).isSome = true) ∧
    Admitted specCoeffLoad (xp specCoeffLoad 0 [3]) :=
  ⟨admitted plant _ _ _ (by decide +kernel) rfl (by decide +kernel) (by decide +kernel),
   admittedExpert plant _ _ _ (by decide +kernel) rfl (by decide +kernel) (by decide +kernel) trivial⟩

/-- MODEL_LOAD: 10 µH in nH, 10 mΩ in µΩ, 100 µF, bands, persist 8, obs 4. -/
def model : Desc :=
  std specModelLoad 0
    (leBytes 10000 4 ++ leBytes 10000 4 ++ leBytes 100 4 ++ leBytes 100 4 ++ leBytes 50000 4 ++ leBytes 500 4
      ++ leBytes 500 4 ++ leBytes 50 2 ++ [8, 4, 1] ++ [0] ++ leBytes 100 2 ++ leBytes 1000 4)

theorem witness_GroupLoads_model :
    Admitted specModelLoad model (fun d => let e := d.started specModelLoad model
      e.voutFs 0 = some 60000 ∧ e.phaseFs 0 = some 60000 ∧ e.vinConv 0 = some 1
      ∧ (modelImages e 0 model 60000 60000 (e.fsOf 1)).isSome = true ∧ (e.group 0).state.stopped = true) ∧
    (let c := xp specModelLoad 0 (image (modelRegs 0))
     Admitted specModelLoad c (fun d => ((d.started specModelLoad c).group 0).state.stopped = true)) :=
  ⟨admitted plant _ _ _ (by decide +kernel) rfl (by decide +kernel) (by decide +kernel),
   admittedExpert plant _ _ _ (by decide +kernel) rfl (by decide +kernel) (by decide +kernel) (by decide +kernel)⟩

/-- GROUP_TARGET of 0 V at 1 V per ms. -/
def aim : Desc := std specGroupTarget 0 (leBytes 0 4 ++ leBytes 1000 4)

theorem witness_GroupLoads_target :
    Admitted specGroupTarget aim (fun d => let e := d.started specGroupTarget aim
      let w := e.waitingWord 0 (ELE_GRP_VWIN.reg 0)
      e.voutFs 0 = some 60000 ∧ (bitsOf w 0 16 * 4096 : Nat) ≤ ofScaleI (aim.int 20 4) 60000 28
      ∧ ofScaleI (aim.int 20 4) 60000 28 ≤ (bitsOf w 16 16 * 4096 : Nat)
      ∧ rateStep (aim.num 24 4) (e.livePeriod 0) 60000 < 2 ^ 32) ∧
    (let c := xp specGroupTarget 0 (leBytes 0 8 ++ leBytes 1 4)
     Admitted specGroupTarget c (fun d => let e := d.started specGroupTarget c
      let w := e.waitingWord 0 (ELE_GRP_VWIN.reg 0)
      (bitsOf w 0 16 * 4096 : Nat) ≤ c.int 20 8 * 256 ∧ c.int 20 8 * 256 ≤ (bitsOf w 16 16 * 4096 : Nat) ∧ c.num 28 4 < 2 ^ 32)) :=
  ⟨admitted plant _ _ _ (by decide +kernel) rfl (by decide +kernel) (by decide +kernel),
   admittedExpert plant _ _ _ (by decide +kernel) rfl (by decide +kernel) (by decide +kernel) (by decide +kernel)⟩

/-- Group 0 of the plant in a state. -/
def plantIn (st : GroupState) : Dev := grp 0 st plant

theorem witness_GroupAndLegCommands_group :
    (∀ st, Admitted specGroupEnable (std specGroupEnable 0 [1]) (fun d =>
      ((d.started specGroupEnable (std specGroupEnable 0 [1])).group 0).state = st)) ∧
    (∀ st, Admitted specGroupEnable (std specGroupEnable 0 [0]) (fun d =>
      ((d.started specGroupEnable (std specGroupEnable 0 [0])).group 0).state = st)) ∧
    Admitted specGroupEnable (std specGroupEnable 0 [1]) (fun d => let e := d.started specGroupEnable (std specGroupEnable 0 [1])
      (e.group 0).state = .off ∧ e.il.stopAll = false ∧ e.canStart 0 = true ∧ e.slotBusy (slotGroup 0) = false) := by
  refine ⟨fun st => ?_, fun st => ?_, ?_⟩
  · exact admitted (plantIn st) _ _ _ (by cases st <;> decide +kernel) rfl (by cases st <;> decide +kernel)
      (by cases st <;> decide +kernel)
  · exact admitted (plantIn st) _ _ _ (by cases st <;> decide +kernel) rfl (by cases st <;> decide +kernel)
      (by cases st <;> decide +kernel)
  · exact admitted (fields [(0x2004, 26, 2, 1)] plant) _ _ _ (by decide +kernel) rfl (by decide +kernel) (by decide +kernel)

/-- Leg 0 of the plant in a state. -/
def legIn (st : LegState) (d : Dev := plant) : Dev := d.modLeg 0 (fun l => { l with state := st })

theorem witness_GroupAndLegCommands_leg :
    (let c := std specLegConfigure 0 ([0, 0, 1, 1] ++ leBytes 100 2 ++ leBytes 100 2 ++ leBytes 100 2)
     Admitted specLegConfigure c (fun d => let e := d.started specLegConfigure c
      let cfg := place 31 1 (c.byte 21) + place 30 1 (c.byte 21 / 2) + place 29 1 (c.byte 21 / 4) + place 16 8 (c.byte 22)
        + place 8 8 (roundDivN (c.num 28 2) 5) + place 0 8 (c.byte 23)
      let dt := place 8 8 (roundDivN (c.num 24 2) 5) + place 0 8 (roundDivN (c.num 26 2) 5)
      roundDivN (c.num 24 2) 5 ≤ 254 ∧ roundDivN (c.num 26 2) 5 ≤ 254 ∧ roundDivN (c.num 28 2) 5 ≤ 255
      ∧ imageOk (PTU_LEG_CFG.reg 0) cfg = true ∧ imageOk (PTU_LEG_DT.reg 0) dt = true
      ∧ e.offsetOk 0 (bitsOf (PTU_LEG_OFS.ofs e 0) 0 20) = true ∧ (e.leg 0).state = .idle)) ∧
    (let c := xp specLegConfigure 0 ([0, 0, 0, 0] ++ image [0x3100, 0x3104, 0x3108])
     Admitted specLegConfigure c (fun d => let e := d.started specLegConfigure c
      imageOk (PTU_LEG_CFG.reg 0) (c.num 24 4) = true ∧ imageOk (PTU_LEG_DT.reg 0) (c.num 28 4) = true
      ∧ e.offsetOk 0 (bitsOf (c.num 32 4) 0 20) = true ∧ (e.leg 0).state = .parked)) ∧
    (∀ st, let c := std specLegConfigure 0 [1]
     Admitted specLegConfigure c (fun d => let e := d.started specLegConfigure c
      e.groupOfLeg 0 = some 0 ∧ e.upperLeg 0 = false ∧ (e.leg 0).state = st)) ∧
    (let c := std specLegConfigure 0 [2]
     Admitted specLegConfigure c (fun d => let e := d.started specLegConfigure c
      e.groupOfLeg 0 = some 0 ∧ e.upperLeg 0 = false ∧ (e.leg 0).state = .parked ∧ (e.leg 0).health ≠ .legOpen
      ∧ (e.group 0).state = .off)) ∧
    (let c := std specLegConfigure 0 [2]
     Admitted specLegConfigure c (fun d => let e := d.started specLegConfigure c
      e.groupOfLeg 0 = some 0 ∧ e.upperLeg 0 = false ∧ (e.leg 0).state = .parked ∧ (e.leg 0).health ≠ .legOpen
      ∧ (e.group 0).state = .run ∧ e.slotBusy (slotLeg 0) = false ∧ (e.leg 0).unpark = none)) ∧
    (let c := std specLegConfigure 0 [3]
     Admitted specLegConfigure c (fun d => let e := d.started specLegConfigure c
      e.groupOfLeg 0 = some 0 ∧ e.upperLeg 0 = false ∧ (e.group 0).state.stopped = true)) := by
  refine ⟨?_, ?_, fun st => ?_, ?_, ?_, ?_⟩
  · exact admitted plant _ _ _ (by decide +kernel) rfl (by decide +kernel) (by decide +kernel)
  · exact admittedExpert (legIn .parked) _ _ _ (by decide +kernel) rfl (by decide +kernel) (by decide +kernel)
      (by decide +kernel)
  · exact admitted (legIn st) _ _ _ (by cases st <;> decide +kernel) rfl (by cases st <;> decide +kernel)
      (by cases st <;> decide +kernel)
  · exact admitted (legIn .parked) _ _ _ (by decide +kernel) rfl (by decide +kernel) (by decide +kernel)
  · exact admitted (legIn .parked (plantIn .run)) _ _ _ (by decide +kernel) rfl (by decide +kernel) (by decide +kernel)
  · exact admitted plant _ _ _ (by decide +kernel) rfl (by decide +kernel) (by decide +kernel)

/-! ### Branch 23, feed 3, string 3 and the bus masters configured -/

/-- Both voltage converters, the current converter and the coulomb stage of the last resources have their roles; their
registers keep the limits between fields; the housekeeping sequence converts their inputs; one master of each bus runs. -/
def yard : Dev :=
  fields
    [(0x0800, 20, 3, 5), (0x0800, 15, 5, 3), (0x0804, 20, 3, 5), (0x0804, 15, 5, 7), (0x08AC, 20, 3, 4), (0x08AC, 15, 5, 3),
     (0x0808, 20, 3, 6), (0x0808, 15, 5, 3), (0x0C80, 0, 7, 4), (0x0B00, 0, 8, 0x80 + 23), (0x0B04, 0, 8, 0x80 + 47),
     (0x0B08, 0, 8, 0x80 + 59), (0x0B0C, 0, 8, 0x80 + 60), (0x41C8, 22, 10, 100), (0x41E8, 24, 8, 150),
     (0x41E8, 16, 8, 100), (0x38C4, 16, 16, 1000), (0x38C4, 0, 16, 2000), (0x38CC, 24, 8, 1), (0x38CC, 8, 8, 1),
     (0x38E0, 24, 8, 150), (0x38E0, 16, 8, 100), (0x44D4, 16, 16, 3000), (0x44D4, 0, 16, 2000), (0x44D8, 16, 16, 1000),
     (0x44EC, 0, 8, 50), (0x44EC, 8, 8, 0), (0x4C30, 31, 1, 1), (0x4C50, 31, 1, 1)] scaled

/-- Words of all ones: each leaves its field unchanged. -/
def unchanged (n : Nat) : List Byte := List.replicate (4 * n) 0xFF

theorem given_unchanged (c : Desc) (n j : Nat) (hd : c.data = unchanged n) (h : j < n) : c.given j = .unchanged := by
  have h1 : c.bufWord j = 0xFFFFFFFF := by
    unfold Desc.bufWord leAt slice unchanged at *
    rw [hd, List.drop_replicate, List.take_replicate]
    have : min 4 (4 * n - 4 * j) = 4 := by omega
    rw [this]
    decide
  unfold Desc.given; rw [h1]; rfl

theorem images_unchanged (conv : Nat → Field → Nat → Option Int) (reg : Nat → Nat) (word : Nat → Given)
    (l : List (Nat × Field)) (i : Nat) (acc : List (Nat × Nat))
    (h : ∀ j, i ≤ j → j < i + l.length → word j = .unchanged) : standardImages conv reg i word l acc = some acc := by
  induction l generalizing i with
  | nil => rfl
  | cons p l ih =>
    obtain ⟨off, f⟩ := p
    unfold standardImages
    rw [h i (Nat.le_refl i) (by simp)]
    exact ih (i + 1) (fun j h1 h2 => h j (by omega) (by simp only [List.length_cons]; omega))

/-- An all-ones field list changes no register. -/
theorem no_images (c : Desc) (n : Nat) (conv : Nat → Field → Nat → Option Int) (reg : Nat → Nat) (l : List (Nat × Field))
    (hd : c.data = unchanged n) (hl : l.length = n) : standardImages conv reg 0 c.given l [] = some [] :=
  images_unchanged conv reg c.given l 0 [] (fun j _ h => given_unchanged c n j hd (by omega))

theorem witness_BranchCommands_configure :
    (let c := xp specBranchConfigure 23 [] (image (branchRegs 23) yard)
     Admitted specBranchConfigure c (fun d => let e := d.started specBranchConfigure c
      (e.branch 23).state.stopped = true ∧ 4 * 11 ≤ c.length.toNat ∧ imagesOk (c.images (branchRegs 23)) = true
      ∧ (e.setImages (c.images (branchRegs 23))).branchRegsOk 23 (c.gives (fieldList (branchRegs 23))) = true)) ∧
    (let c := std specBranchConfigure 23 [] (unchanged 26)
     Admitted specBranchConfigure c (fun d => let e := d.started specBranchConfigure c
      (e.branch 23).state.stopped = true ∧ 4 * (fieldList (branchRegs 0)).length ≤ c.length.toNat ∧ standardImages (branchConv (e.branchFs 23 c)) e.reg 0 c.given
        (fieldList (branchRegs 23)) [] = some [] ∧ (e.setImages []).branchRegsOk 23 (c.gives (fieldList (branchRegs 23))) = true)) :=
  ⟨admittedExpert yard _ _ _ (by decide +kernel) rfl (by decide +kernel) (by decide +kernel) (by decide +kernel),
   admitted yard _ _ _ (by decide +kernel) rfl (by decide +kernel) (by decide +kernel)⟩

theorem witness_BranchCommands_switch :
    (∀ st, let c := std specBranchSwitch 23 [1]
     Admitted specBranchSwitch c (fun d => ((d.started specBranchSwitch c).branch 23).state = st)) ∧
    (∀ st, let c := std specBranchSwitch 23 [0]
     Admitted specBranchSwitch c (fun d => ((d.started specBranchSwitch c).branch 23).state = st)) ∧
    (let c := std specBranchSwitch 23 [1]
     Admitted specBranchSwitch c (fun d => let e := d.started specBranchSwitch c
      (e.branch 23).state = .off ∧ e.branchReady 23 = true ∧ e.slotBusy (slotBranch 23) = false ∧ e.noStarts = false)) ∧
    (∀ st, st = .tripped ∨ st = .locked → let c := std specBranchRetry 23 []
     Admitted specBranchRetry c (fun d => let e := d.started specBranchRetry c
      (e.branch 23).state = st ∧ e.branchReady 23 = true ∧ e.slotBusy (slotBranch 23) = false ∧ e.noStarts = false)) := by
  refine ⟨fun st => ?_, fun st => ?_, ?_, fun st h => ?_⟩
  · exact admitted (branch (fun x => { x with state := st }) yard) _ _ _ (by cases st <;> decide +kernel) rfl
      (by cases st <;> decide +kernel) (by cases st <;> decide +kernel)
  · exact admitted (branch (fun x => { x with state := st }) yard) _ _ _ (by cases st <;> decide +kernel) rfl
      (by cases st <;> decide +kernel) (by cases st <;> decide +kernel)
  · exact admitted yard _ _ _ (by decide +kernel) rfl (by decide +kernel) (by decide +kernel)
  · rcases h with rfl | rfl
    · exact admitted (branch (fun x => { x with state := .tripped }) yard) _ _ _ (by decide +kernel) rfl
        (by decide +kernel) (by decide +kernel)
    · exact admitted (branch (fun x => { x with state := .locked }) yard) _ _ _ (by decide +kernel) rfl
        (by decide +kernel) (by decide +kernel)

theorem witness_FeedCommands_configure :
    (let c := xp specFeedConfigure 3 [] (image (feedRegs 3) yard ++ leBytes 1023 4)
     Admitted specFeedConfigure c (fun d => let e := d.started specFeedConfigure c
      (e.feed 3).state.stopped = true ∧ 4 * (9 + 1) ≤ c.length.toNat ∧ imagesOk (c.images (feedRegs 3)) = true
      ∧ (e.setImages (c.images (feedRegs 3))).feedRegsOk 3 (c.gives (fieldList (feedRegs 3))) = true ∧ 1 ≤ c.bufWord 9 ∧ c.bufWord 9 ≤ 1023)) ∧
    (let c := std specFeedConfigure 3 [] (unchanged 30 ++ leBytes 30000 4)
     Admitted specFeedConfigure c (fun d => let e := d.started specFeedConfigure c
      let code := c.bufWord (fieldList (feedRegs 3)).length * 1024 / e.fsOf 43
      (e.feed 3).state.stopped = true ∧ 4 * ((fieldList (feedRegs 0)).length + 1) ≤ c.length.toNat ∧ e.fsOf 43 ≠ 0 ∧ standardImages (e.feedConv 3) e.reg 0 c.given
        (fieldList (feedRegs 3)) [] = some [] ∧ (e.setImages []).feedRegsOk 3 (c.gives (fieldList (feedRegs 3))) = true ∧ 1 ≤ code ∧ code ≤ 1023)) :=
  ⟨admittedExpert yard _ _ _ (by decide +kernel) rfl (by decide +kernel) (by decide +kernel) (by decide +kernel),
   admitted yard _ _ _ (by decide +kernel) rfl (by decide +kernel) (by decide +kernel)⟩

theorem witness_FeedCommands_switch :
    (∀ st, let c := std specFeedSwitch 3 [1]
     Admitted specFeedSwitch c (fun d => let e := d.started specFeedSwitch c
      (e.feed 3).state = st ∧ e.feedReady 3 = true ∧ e.noStarts = false ∧ e.slotBusy (slotFeed 3) = false)) ∧
    (∀ st, let c := std specFeedSwitch 3 [0]
     Admitted specFeedSwitch c (fun d => ((d.started specFeedSwitch c).feed 3).state = st)) := by
  refine ⟨fun st => ?_, fun st => ?_⟩
  · exact admitted (feed (fun x => { x with state := st }) yard) _ _ _ (by cases st <;> decide +kernel) rfl
      (by cases st <;> decide +kernel) (by cases st <;> decide +kernel)
  · exact admitted (feed (fun x => { x with state := st }) yard) _ _ _ (by cases st <;> decide +kernel) rfl
      (by cases st <;> decide +kernel) (by cases st <;> decide +kernel)

theorem witness_FeedCommands_share :
    (let c := std specFeedShare 1 ([1, 8, 0, 0] ++ leBytes 2550 4 ++ leBytes 1000 4 ++ leBytes 1000 4)
     Admitted specFeedShare c (fun d => let e := d.started specFeedShare c
      let ms := bitsIn 4 (bitsOf (c.byte 21) 0 4)
      let i := (ms.map (fun f => e.scaleOf (some (40 + f)))).headD 0
      let v := (ms.map e.shareVfs).headD 0
      let per := roundDivN (c.num 24 4) 10
      let ki := e.orFree (if ms.isEmpty then none else some (roundDivN (c.num 28 4 * per * i * 4096) (100000000 * v)))
      let st := ki.2.orFree (if ms.isEmpty then none else some (roundDivN (c.num 32 4 * per * 65536) (100000 * v)))
      allSame (ms.map (fun f => e.scaleOf (some (40 + f)))) = true ∧ allSame (ms.map e.shareVfs) = true
      ∧ (ms.map e.shareVfs).contains 0 = false ∧ per ≤ 255
      ∧ imageOk (FC_SHARE.reg 1) (putBit (per * 65536 + oneToByte ki.1 * 256 + oneToByte st.1) 31 (c.byte 20 == 1)) = true)) ∧
    (let c := xp specFeedShare 1 ([1, 0, 0, 0] ++ leBytes 0x010101 4)
     Admitted specFeedShare c (fun _ => bitsIn 4 (bitsOf (c.byte 21) 0 4) = []
      ∧ imageOk (FC_SHARE.reg 1) (putBit (c.num 24 4) 31 (c.byte 20 == 1)) = true)) :=
  ⟨admitted yard _ _ _ (by decide +kernel) rfl (by decide +kernel) (by decide +kernel),
   admittedExpert yard _ _ _ (by decide +kernel) rfl (by decide +kernel) (by decide +kernel) (by decide +kernel)⟩

theorem witness_StringAndDepotCommands_string :
    (let c := xp specStringConfigure 3 [] (image (stringRegs 3) yard)
     Admitted specStringConfigure c (fun d => let e := d.started specStringConfigure c
      (e.str 3).state.stopped = true ∧ 4 * 13 ≤ c.length.toNat ∧ imagesOk (c.images (stringRegs 3)) = true
      ∧ (e.setImages (c.images (stringRegs 3))).stringRegsOk 3 (c.gives (stringFields 3)) = true)) ∧
    (let c := std specStringConfigure 3 [] (unchanged 41)
     Admitted specStringConfigure c (fun d => let e := d.started specStringConfigure c
      (e.str 3).state.stopped = true ∧ 4 * (stringFields 0).length ≤ c.length.toNat ∧ standardImages (stringConvert 3) (fun off => if off = 0x20003 then (e.str 3).ofs
        else e.reg off) 0 c.given (stringFields 3) [] = some [] ∧ (e.setImages []).stringRegsOk 3 (c.gives (stringFields 3)) = true)) ∧
    (∀ st, let c := std specStringConnect 3 [0]
     Admitted specStringConnect c (fun d => ((d.started specStringConnect c).str 3).state = st)) ∧
    (let c := std specStringConnect 3 [1]
     Admitted specStringConnect c (fun d => ((d.started specStringConnect c).str 3).state = .connected)) ∧
    (let c := std specStringConnect 3 [1]
     Admitted specStringConnect c (fun d => let e := d.started specStringConnect c
      (e.str 3).state.stopped = true ∧ e.strReady 3 = true ∧ e.slotBusy (slotString 3) = false ∧ e.noStarts = false)) := by
  refine ⟨?_, ?_, fun st => ?_, ?_, ?_⟩
  · exact admittedExpert yard _ _ _ (by decide +kernel) rfl (by decide +kernel) (by decide +kernel) (by decide +kernel)
  · exact admitted yard _ _ _ (by decide +kernel) rfl (by decide +kernel) (by decide +kernel)
  · exact admitted (str (fun x => { x with state := st }) yard) _ _ _ (by cases st <;> decide +kernel) rfl
      (by cases st <;> decide +kernel) (by cases st <;> decide +kernel)
  · exact admitted (str (fun x => { x with state := .connected }) yard) _ _ _ (by decide +kernel) rfl (by decide +kernel)
      (by decide +kernel)
  · exact admitted yard _ _ _ (by decide +kernel) rfl (by decide +kernel) (by decide +kernel)

theorem witness_StringAndDepotCommands_depot :
    Admitted specEstimatorSet (std specEstimatorSet 3 (leBytes 1000 4 ++ leBytes 10000 2 ++ leBytes 0 2)) ∧
    Admitted specEstimatorSet (std specEstimatorSet 3 (leBytes 0xFFFFFFFF 4 ++ leBytes 0xFFFF 2 ++ leBytes 0xFFFF 2)) ∧
    Admitted specEnterDepot (std specEnterDepot 0 [1]) (fun d =>
      (d.started specEnterDepot (std specEnterDepot 0 [1])).mayDepart = true) :=
  ⟨admitted yard _ _ _ (by decide +kernel) rfl (by decide +kernel) trivial,
   admitted yard _ _ _ (by decide +kernel) rfl (by decide +kernel) trivial,
   admitted yard _ _ _ (by decide +kernel) rfl (by decide +kernel) (by decide +kernel)⟩

theorem witness_TimetableAndBusCommands_load :
    (let c := xp specTimetableLoad 0 [] (image timetableRegs yard)
     Admitted specTimetableLoad c (fun d => let e := d.started specTimetableLoad c
      e.tt.state = .down ∧ 4 * timetableRegs.length ≤ c.length.toNat ∧ imagesOk (c.images timetableRegs) = true
      ∧ (indices 16).all ((e.setImages (c.images timetableRegs)).railRegsOk (c.gives (fieldList timetableRegs))) = true)) :=
  admittedExpert yard _ _ _ (by decide +kernel) rfl (by decide +kernel) (by decide +kernel) (by decide +kernel)

/-- A TIMETABLE_LOAD that leaves every field unchanged. -/
def loadNothing : Desc := std specTimetableLoad 0 [] (unchanged 425)

theorem loadNothing_gives : (indices 16).all (fun n => !(loadNothing.gives (fieldList timetableRegs) (TT_RAIL_VLIM.reg n) 16
    || loadNothing.gives (fieldList timetableRegs) (TT_RAIL_VLIM.reg n) 0)) = true := by decide +kernel

theorem loadNothing_rails (d : Dev) : (indices 16).all (d.railRegsOk (loadNothing.gives (fieldList timetableRegs))) = true := by
  have h := loadNothing_gives
  rw [List.all_eq_true] at h ⊢
  intro n hn
  unfold Dev.railRegsOk
  rw [h n hn]; rfl

theorem witness_TimetableAndBusCommands_loadStandard :
    Admitted specTimetableLoad loadNothing (fun d => let e := d.started specTimetableLoad loadNothing
      e.tt.state = .down ∧ 4 * (fieldList timetableRegs).length ≤ loadNothing.length.toNat
      ∧ standardImages (e.timetableConv loadNothing) e.reg 0 loadNothing.given (fieldList timetableRegs) [] = some []
      ∧ (indices 16).all ((e.setImages []).railRegsOk (loadNothing.gives (fieldList timetableRegs))) = true) :=
  admitted yard _ _ _ (by decide +kernel) rfl (by decide +kernel)
    ⟨by decide +kernel, by decide +kernel, no_images _ 425 _ _ _ rfl (by decide +kernel), loadNothing_rails _⟩

theorem witness_TimetableAndBusCommands :
    (∀ st, let c := std specTimetableRun 0 [1]
     Admitted specTimetableRun c (fun d => let e := d.started specTimetableRun c
      e.tt.state = st ∧ e.leadsBell = true ∧ e.noStarts = false ∧ e.tt.level = true ∧ e.tt.queued = none)) ∧
    (∀ st, let c := std specTimetableRun 0 [0]
     Admitted specTimetableRun c (fun d => let e := d.started specTimetableRun c
      e.leadsBell = true ∧ (e.ttUnqueue stSuperseded).tt.state = st)) ∧
    (let c := std specPolTransaction 3 [0, 0x40, 0x03, 0]
     Admitted specPolTransaction c (fun d => PB_CFG.en (d.started specPolTransaction c) 3 ≠ 0)) ∧
    (let c := std specAvsTransaction 1 [2, 0xF, 15, 0]
     Admitted specAvsTransaction c (fun d => AV_CFG.en (d.started specAvsTransaction c) 1 ≠ 0)) := by
  refine ⟨fun st => ?_, fun st => ?_, ?_, ?_⟩
  · exact admitted (tt (fun t => { t with state := st, level := true }) yard) _ _ _ (by cases st <;> decide +kernel) rfl
      (by cases st <;> decide +kernel) (by cases st <;> decide +kernel)
  · exact admitted (tt (fun t => { t with state := st }) yard) _ _ _ (by cases st <;> decide +kernel) rfl
      (by cases st <;> decide +kernel) (by cases st <;> decide +kernel)
  · exact admitted yard _ _ _ (by decide +kernel) rfl (by decide +kernel) (by decide +kernel)
  · exact admitted yard _ _ _ (by decide +kernel) rfl (by decide +kernel) (by decide +kernel)

/-! ### Commands that ask for leave, and maintenance -/

/-- The device in Commissioning, with VPP in its window at 25 °C, and key rows of its own. -/
def keyed : Dev :=
  { linked with
    fuse := { linked.fuse with
      lifecycle := lifeCommissioning, vppOk := true,
      rows := [40, 41, 42, 43].foldl (fun v r => fileMod v r (fun x => { x with shadow := 1 })) linked.fuse.rows }
    house := { linked.house with junction := 250 } }

/-- `keyed` with a nonce in force. -/
def nonced : Dev := { keyed with tr := { keyed.tr with nonce := some 5 } }

/-- RECORDER_CLEAR with the tag that R353 gives for that nonce. -/
def clear : Desc := std specRecorderClear 0 (nonced.clearTag 5)

theorem witness_CommandsThatAskForLeave_modes :
    (let c := std specRulebookCommit 0 (leBytes 0xFFFFFFFF 4)
     Admitted specRulebookCommit c (fun d => let e := d.started specRulebookCommit c
      c.num 20 4 = 0xFFFFFFFF ∧ e.slotBusy slotCommit = false)) ∧
    (let c := std specRulebookCommit 0 (leBytes 0 4)
     Admitted specRulebookCommit c (fun d => let e := d.started specRulebookCommit c
      c.num 20 4 = e.bookGeneration ∧ e.slotBusy slotCommit = false)) ∧
    (let c := std specSetPattern 0 [2]
     Admitted specSetPattern c (fun d => let e := d.started specSetPattern c
      e.addedExpress ((indices 128).map (fun i => (i, e.patternMode (c.byte 20) i))) = 0)) ∧
    (let c := std specSetPattern 0 [0]
     Admitted specSetPattern c (fun d => let e := d.started specSetPattern c
      e.addedExpress ((indices 128).map (fun i => (i, e.patternMode (c.byte 20) i))) ≠ 0 ∧ e.slotBusy slotMode = false)) ∧
    (let c := std specComparatorMode 0 (leBytes (2 ^ 127) 16 ++ [1])
     Admitted specComparatorMode c (fun d => let e := d.started specComparatorMode c
      e.addedExpress ((bitsIn 128 (c.num 20 16)).map (fun i => (i, c.byte 36))) = 0)) ∧
    (let c := std specComparatorMode 0 (leBytes (2 ^ 127) 16 ++ [2])
     Admitted specComparatorMode c (fun d => let e := d.started specComparatorMode c
      e.addedExpress ((bitsIn 128 (c.num 20 16)).map (fun i => (i, c.byte 36))) ≠ 0 ∧ e.slotBusy slotMode = false)) := by
  refine ⟨?_, ?_, ?_, ?_, ?_, ?_⟩
  · exact admitted linked _ _ _ (by decide +kernel) rfl (by decide +kernel) (by decide +kernel)
  · exact admitted linked _ _ _ (by decide +kernel) rfl (by decide +kernel) (by decide +kernel)
  · exact admitted linked _ _ _ (by decide +kernel) rfl (by decide +kernel) (by decide +kernel)
  · exact admitted linked _ _ _ (by decide +kernel) rfl (by decide +kernel) (by decide +kernel)
  · exact admitted linked _ _ _ (by decide +kernel) rfl (by decide +kernel) (by decide +kernel)
  · exact admitted linked _ _ _ (by decide +kernel) rfl (by decide +kernel) (by decide +kernel)

theorem witness_CommandsThatAskForLeave_fuses :
    Admitted specRecorderClear clear (fun d => let e := d.started specRecorderClear clear
      let e1 := { e with tr := { e.tr with nonce := none } }
      e.tr.log.length < 64 ∧ e1.keyBlank = false ∧ e.tr.nonce = some 5 ∧ e1.clearTag 5 = slice clear.params 0 16
      ∧ e1.slotBusy slotClear = false ∧ e1.tr.clearing = none) ∧
    (let c := std specFuseProgram 55 (leBytes 1 8)
     Admitted specFuseProgram c (fun d => let e := d.started specFuseProgram c
      let v := BitVec.ofNat 64 (c.num 20 8)
      v ≠ 0 ∧ reservedRow 55 v = false ∧ (e.fuse.row 55).copyA.strays v = false ∧ (e.fuse.row 55).copyB.strays v = false
      ∧ e.progOk = true ∧ e.slotBusy slotFuse = false ∧ e.slotBusy slotSecond = false)) ∧
    (let c := std specAdvance 0 ([lifeInTraffic].map (BitVec.ofNat 8) ++ [0, 0, 0] ++ leBytes (keyed.serial % 2 ^ 32) 4)
     Admitted specAdvance c (fun d => let e := d.started specAdvance c
      c.num 24 4 = e.serial % 2 ^ 32 ∧ e.progOk = true ∧ e.slotBusy slotFuse = false ∧ e.slotBusy slotSecond = false)) ∧
    (let c := std specBgeConfigure 1 [1]
     Admitted specBgeConfigure c (fun d => let e := d.started specBgeConfigure c
      (e.slot slotSweep).state = .empty ∧ e.bge.sweeping = false)) := by
  refine ⟨?_, ?_, ?_, ?_⟩
  · exact admitted nonced _ _ _ (by decide +kernel) rfl (by decide +kernel) (by decide +kernel)
  · exact admitted keyed _ _ _ (by decide +kernel) rfl (by decide +kernel) (by decide +kernel)
  · exact admitted keyed _ _ _ (by decide +kernel) rfl (by decide +kernel) (by decide +kernel)
  · exact admitted linked _ _ _ (by decide +kernel) rfl (by decide +kernel) (by decide +kernel)

/-- FAULT_RESUME of lane 5. -/
def resumeLane : Desc := std specFaultResume 0 [0x20]

theorem witness_MaintenanceCommands :
    Admitted specInjectArm (xp specInjectArm 0 (leBytes 1000 4)) ∧
    (let c := std specInject 0 ([5, 0, 0, 0] ++ leBytes 0x10 4 ++ leBytes 0 4)
     Admitted specInject c (fun d => let e := d.started specInject c
      e.il.armedUntil = some 9 ∧ e.injectOk (c.byte 20) (c.num 24 4) (c.num 28 4) = true)) ∧
    Admitted specFaultResume resumeLane (fun d => let e := d.started specFaultResume resumeLane
      e.mayResume = true ∧ e.sup.resuming.bind (·.fetch) = none ∧ e.core.phase = .running
      ∧ (bitsIn 6 (resumeLane.byte 20)).filter (fun l => (e.lane l).state == .retired) = [5]) ∧
    (let c := xp specThresholdSet 127 (leBytes 1023 2 ++ [0, 0, 0xFF])
     Admitted specThresholdSet c (fun _ => ¬ (96 ≤ c.idx ∧ c.idx ≤ 123) ∧ c.num 20 2 ≤ 1023)) ∧
    (let c := std specThresholdSet 0 (leBytes 0xFFFFFFF6 4 ++ [7])
     Admitted specThresholdSet c (fun d => let e := d.started specThresholdSet c
      ¬ (96 ≤ c.idx ∧ c.idx ≤ 123) ∧ 0 ≤ e.thresholdCode 0 (-10) ∧ e.thresholdCode 0 (-10) ≤ 1023 ∧ c.int 20 4 = -10
      ∧ FTA_CP_CFG.en e 0 ≠ 1)) := by
  refine ⟨?_, ?_, ?_, ?_, ?_⟩
  · exact admittedExpert linked _ _ _ (by decide +kernel) rfl (by decide +kernel) (by decide +kernel) trivial
  · exact admitted (il (fun x => { x with armedUntil := some 9 }) linked) _ _ _ (by decide +kernel) rfl
      (by decide +kernel) (by decide +kernel)
  · exact admitted (linked.modLane 5 (fun l => { l with state := .retired })) _ _ _ (by decide +kernel) rfl
      (by decide +kernel) (by decide +kernel)
  · exact admittedExpert linked _ _ _ (by decide +kernel) rfl (by decide +kernel) (by decide +kernel) (by decide +kernel)
  · exact admitted scaled _ _ _ (by decide +kernel) rfl (by decide +kernel) (by decide +kernel)

/-! ### The fetch path -/

theorem witness_StepRunsTheFrontCommand : ∃ t : State, exec .paceLowClear ⟨on, []⟩ = .next t := ⟨_, rfl⟩

theorem witness_EveryStepHoldsDrivenColumns :
    (∀ r, r < 152 → on.rowDrives r = true → ∀ col, (on.rowLatches r).testBit col = true → on.trip.latches.testBit col = true)
    ∧ (on.modCp 0 (fun c => { c with side := .fault })).rowDrives 0 = true := by
  constructor
  · have h : ∀ r : Fin 152, on.rowDrives r.val = false := by decide +kernel
    intro r hr hx
    rw [h ⟨r, hr⟩] at hx; cases hx
  · decide +kernel

theorem witness_OnlyTheTurnsRingIsFetched :
    Stills (fun d => hostCommand (.nop { desc false 0 0 [] [] with ring := 3 }) = some (specNop, { desc false 0 0 [] [] with ring := 3 })
      ∧ d.fetchTurn ≠ some 3) ∧
    (∃ d : Dev, d.still ∧ d.coreRuns = false) ∧ Stills (fun d => d.hqi.speed = 0) ∧ Stills (fun d => d.hqi.d3hot = true) :=
  ⟨stills linked _ (by decide +kernel) rfl ⟨rfl, by decide +kernel⟩,
   ⟨core (fun c => { c with phase := .off }), still_of _ (by decide +kernel) rfl, by decide +kernel⟩,
   stills on _ (by decide +kernel) rfl (by decide +kernel),
   stills asleep _ (by decide +kernel) rfl (by decide +kernel)⟩

/-- A device in Withdrawn. -/
def withdrawn : Dev := { linked with fuse := { linked.fuse with lifecycle := lifeWithdrawn } }
/-- A device in Single-Line Working. -/
def single : Dev := il (fun x => { x with slw := true }) linked

theorem witness_FetchChecksInOrder :
    Runs (fun d => d.fetchTurn = some 0 ∧ (∀ n, specGroupTarget.wrongTarget (desc n 0 0 [] []) ∧
      specGroupTarget.wrongTarget (std specGroupTarget 16 []))) ∧
    Runs (fun d => let c := xp specGroupEnable 15 [1]
      d.fetchTurn = some 0 ∧ ¬ specGroupEnable.wrongTarget c ∧ ¬ specGroupEnable.wrongLevel c (d.takeOff 0)
      ∧ (c.expert = true ∧ specGroupEnable.expOk = false)) ∧
    Runs (fun d => let c := std specInjectArm 0 [1]
      d.fetchTurn = some 0 ∧ ¬ specInjectArm.wrongTarget c ∧ specInjectArm.wrongLevel c (d.takeOff 0)) ∧
    Runs (fun d => let c := std specGroupEnable 15 [2]
      d.fetchTurn = some 0 ∧ ¬ specGroupEnable.wrongTarget c ∧ ¬ specGroupEnable.wrongLevel c (d.takeOff 0) ∧ c.resume = false
      ∧ (if (d.takeOff 0).withdrawn then specGroupEnable.inWithdrawn else specGroupEnable.life c (d.takeOff 0)) = true
      ∧ (d.takeOff 0).il.slw = false ∧ specGroupEnable.params c (d.takeOff 0) = false) ∧
    Runs (fun d => let c := std specGroupEnable 15 [1]
      d.fetchTurn = some 0 ∧ (if (d.takeOff 0).withdrawn then specGroupEnable.inWithdrawn
        else specGroupEnable.life c (d.takeOff 0)) = false) ∧
    Runs (fun d => let c := std specGroupEnable 15 [1]
      d.fetchTurn = some 0 ∧ (if (d.takeOff 0).withdrawn then specGroupEnable.inWithdrawn
        else specGroupEnable.life c (d.takeOff 0)) = true ∧ (d.takeOff 0).il.slw = true ∧ specGroupEnable.inSlw c = false) := by
  refine ⟨runs linked _ ?_ ?_, runs linked _ ?_ ?_, runs linked _ ?_ ?_, runs linked _ ?_ ?_, runs withdrawn _ ?_ ?_,
    runs single _ ?_ ?_⟩ <;>
    first
    | decide +kernel
    | exact ⟨by decide +kernel, fun n => ⟨.inl (by cases n <;> decide +kernel), .inr (by decide +kernel)⟩⟩
    | exact ⟨by decide +kernel, by unfold OpSpec.wrongTarget; decide +kernel, by unfold OpSpec.wrongLevel; decide +kernel,
        by decide +kernel⟩
    | exact ⟨by decide +kernel, by unfold OpSpec.wrongTarget; decide +kernel, by unfold OpSpec.wrongLevel; decide +kernel⟩

/-- A RESUME descriptor of GROUP_ENABLE on for group 0. -/
def again : Desc := { std specGroupEnable 0 [1] with resume := true }
/-- A ledger entry with its tag. -/
def entry (op : Nat) (opened : Bool) (status : Nat) : LedgerEntry :=
  ⟨7, op, 0, opened, false, false, again.target, status, 0, 3, 5, again.pcrc, 0⟩

theorem witness_ResumeOutcomes :
    (∀ op opened, op = 0x13 ∨ op = 0x11 →
      Runs (fun d => hostCommand (.groupEnableOn again) = some (specGroupEnable, again) ∧ d.fetchTurn = some 0
        ∧ ¬ specGroupEnable.wrongTarget again ∧ ¬ specGroupEnable.wrongLevel again (d.takeOff 0) ∧ again.resume = true
        ∧ (d.takeOff 0).entryOf again.tag.toNat = some (entry op opened stDone)
        ∧ ((entry op opened stDone).op = specGroupEnable.code ↔ op = 0x13)
        ∧ (entry op opened stDone).target = again.target ∧ (entry op opened stDone).pcrc = again.pcrc)) := by
  intro op opened h
  refine runs { linked with ledger := [entry op opened stDone] } _
    (by rcases h with rfl | rfl <;> cases opened <;> decide +kernel) ?_
  refine ⟨rfl, ?_, ?_, ?_, rfl, ?_, Iff.rfl, by simp only [entry], by simp only [entry]⟩
  · rcases h with rfl | rfl <;> cases opened <;> decide +kernel
  · unfold OpSpec.wrongTarget; decide +kernel
  · unfold OpSpec.wrongLevel
    have h1 : again.expert = false := rfl
    have h2 : specGroupEnable.stdOk = true := rfl
    rw [h1, h2]
    rintro (⟨h, -⟩ | ⟨-, h⟩) <;> cases h
  · rcases h with rfl | rfl <;> cases opened <;> decide +kernel

theorem witness_WithdrawnAdmitsSixOpcodes :
    Runs (fun d => let c := std specGroupEnable 15 [1]
      hostCommand (.groupEnableOn c) = some (specGroupEnable, c) ∧ d.withdrawn = true ∧ d.fetchTurn = some 0 ∧ c.resume = false
      ∧ specGroupEnable.code ∉ [0x00, 0x01, 0x02, 0x70, 0x90, 0xA1]) :=
  runs withdrawn _ (by decide +kernel) ⟨rfl, by decide +kernel, by decide +kernel, rfl, by decide +kernel⟩

theorem witness_SingleLineWorkingAdmits :
    Runs (fun d => let c := std specGroupEnable 15 [1]
      hostCommand (.groupEnableOn c) = some (specGroupEnable, c) ∧ d.il.slw = true ∧ d.fetchTurn = some 0 ∧ c.resume = false
      ∧ specGroupEnable.inSlw c = false ∧ specGroupEnable.inSlw (std specGroupEnable 15 [0]) = true) :=
  runs single _ (by decide +kernel) ⟨rfl, by decide +kernel, by decide +kernel, rfl, by decide +kernel, by decide +kernel⟩

theorem witness_CompensatorSumsItsTerms :
    (compensate true [2 ^ 20, 0, 0, 0, 2 ^ 20, 0, 0] 5 0 0 0 7 0 0).2 = 0
    ∧ (compensate true [2 ^ 20, 0, 0, 0, 2 ^ 20, 0, 0] (2 ^ 39 - 1) 0 0 0 1 0 0).2 ≠ 0 := by decide +kernel

/-- Every command of the table has a next state, so a frame speaks of every run. -/
theorem witness_ReadingAndSettingFrames : ∃ t : State, exec (.nop (desc false 0 0 [] [])) ⟨linked, []⟩ = .next t := ⟨_, rfl⟩

theorem witness_GrantedCommitWritesTheOtherCopy :
    ∃ d : Dev, (d.slot slotCommit).tagged = true ∧ (d.slot slotCommit).state = .holding ∧ d.committing = some 5
      ∧ d.bookGeneration + 1 < 2 ^ 32 :=
  ⟨{ linked with
      hqi := { linked.hqi with staged := [{ staged with op := 0x03 }] }
      office := { linked.office with slots := fileMod linked.office.slots slotCommit (fun x =>
        { x with state := .holding, tagged := true }) } }, by decide +kernel⟩

/-! ### Further clauses -/

/-- `linked` with an enabled EQ that has lost an event. -/
def lossy : Dev :=
  { linked.modRing 8 (fun r => { r with en := true, log2n := 6 }) with
    hqi := { (linked.modRing 8 (fun r => { r with en := true, log2n := 6 })).hqi with eqLost := 1 } }

theorem witness_DoorbellWrites_head :
    Stills (fun d => (d.ring 4).en = true ∧ (d.ring 4).entries ≤ 16 ∧ d.mayTell (0x017C * 256 + 166) = true ∧ d.roomFor 2) ∧
    Stills (fun d => d.hqi.eqLost ≠ 0 ∧ (d.ring 8).room = true ∧ d.hqi.d3hot = false ∧ d.roomFor 1) :=
  ⟨stills linked _ (by decide +kernel) rfl
     ⟨by decide +kernel, by decide +kernel, by decide +kernel, roomy _ _ (by decide +kernel)⟩,
   stills lossy _ (by decide +kernel) rfl
     ⟨by decide +kernel, by decide +kernel, by decide +kernel, roomy _ _ (by decide +kernel)⟩⟩

theorem witness_RingSetup_refused :
    Stills (fun d => d.roomFor 1 ∧ (d.ring 10).en = false ∧ sizeLegal 10 13 = false ∧ sizeLegal 10 (d.ring 10).log2n = false
      ∧ (d.ring 5).en = false ∧ sizeLegal 5 (d.ring 5).log2n = false) ∧
    Stills (fun d => d.roomFor 1 ∧ (d.ring 7).en = false ∧ sizeLegal 7 (d.ring 7).log2n = true
      ∧ (d.ring 7).base + 2 ^ (d.ring 7).log2n * entrySize 7 ≤ 2 ^ 64) :=
  ⟨stills linked _ (by decide +kernel) rfl ⟨roomy _ _ (by decide +kernel), by decide +kernel⟩,
   stills (linked.modRing 7 (fun r => { r with log2n := 12 })) _ (by decide +kernel) rfl
     ⟨roomy _ _ (by decide +kernel), by decide +kernel⟩⟩

theorem witness_HostReadFailuresAndModeration_late :
    Stills (fun d => d.core.uptime < 2 ^ 64 ∧ d.hqi.msix[31].hushed < 2 ^ 64 ∧ d.hqi.msix[31].owed = true
      ∧ d.hqi.d3hot = false) :=
  stills { linked with hqi := { linked.hqi with msix := fileMod linked.hqi.msix 31 (fun v =>
    { v with owed := true, hushed := 2 ^ 64 - 1 }) } } _ (by decide +kernel) rfl (by decide +kernel)

/-- The accesses of each clause: a write at the first mirror word, an 8-byte one that is no MSI-X entry's, a doorbell
byte, the last byte of a word, a read across words. -/
theorem witness_ReadsAndLatches_widths :
    0x01000 ≤ (0x01000 : BitVec 20).toNat ∧ (0x07FF8 : BitVec 20).toNat < 0x8000 ∧ (0x08004 : BitVec 20).toNat % 8 ≠ 0 ∧
    (3 : Nat) % 4 + ((0 : Fin 8).val + 1) ≤ 4 ∧ 4 < 3 % 4 + ((1 : Fin 8).val + 1) ∧ (1 : Fin 8).val ≠ 7 := by decide

/-- A write at `off` of `v` meets what R441 asks, and the register's cross-field limits admit it as `ok` says. -/
def ordinary (off v : Nat) (ok : Bool) (d : Dev) : Bool :=
  (regAt off).any (fun r => (takeFields r off v (d.ownerStopped r off) r.fields d).registerAdmits off v == ok)
    && (sampledGroup off).isNone && gated off && d.hqi.expertEn && d.cfg.wf

theorem witness_RegisterWriteGates_fields :
    Stills (fun d => ordinary 0x2220 0x70800101 false d = true ∧ ordinary 0x2220 0xC8800808 true d = true) ∧
    (regAt 0x38C0).any (fun r => r.fields.any (fun f => f.access == .rws) && linked.ownerStopped r 0x38C0) = true ∧
    (regAt 0x38C0).any (fun r => !(feed (fun x => { x with state := .on }) linked).ownerStopped r 0x38C0) = true ∧
    (regAt 0x6000).any (fun r => r.fields.all (fun f => !f.ok 0)) = true := by
  refine ⟨stills linked _ (by decide +kernel) rfl (by decide +kernel), ?_, ?_, ?_⟩ <;> decide +kernel

theorem witness_PowerAndReset_release :
    (core (fun c => { c with phase := .held })).silent.core.supplies = ⟨true, true, true, true, true⟩ ∧
    (core (fun c => { c with phase := .held, supplies := { c.supplies with vgd := false } })).silent.core.supplies.all
      = false := by decide +kernel

theorem witness_ReferencesAndTrim_waiting :
    Stills (fun d => d.ka.loading = some ⟨5, 7, 1, 40000000⟩ ∧ d.ka.x32Runs = true ∧ d.roomFor 1) ∧
    Stills (fun d => d.ka.loading = none ∧ d.ka.ticks = true ∧ d.ka.trim ≠ 0) :=
  ⟨stills (ka (fun k => { ticking k with loading := some ⟨5, 7, 1, 40000000⟩ })) _ (by decide +kernel) rfl
     ⟨rfl, rfl, roomy _ _ (by decide +kernel)⟩,
   stills (ka (fun k => { ticking k with trim := 500 })) _ (by decide +kernel) rfl (by decide +kernel)⟩

theorem witness_PaceAndStalls_floor :
    Stills (fun d => ELE_PACE.pace_floor d = 4000 ∧ d.core.paceLow = false ∧ d.roomFor 1) ∧
    Stills (fun d => ELE_PACE.pace_floor d = 0 ∧ d.roomFor 1) :=
  ⟨stills (on.setField 0x2228 0 12 4000) _ (by decide +kernel) rfl
     ⟨by decide +kernel, by decide +kernel, roomy _ _ (by decide +kernel)⟩,
   stills (on.setField 0x2228 0 12 0) _ (by decide +kernel) rfl ⟨by decide +kernel, roomy _ _ (by decide +kernel)⟩⟩

theorem witness_CatchPointsAndDriverFaults_settling :
    Runs (fun d => (d.cp 127).settling = true ∧ (d.cp 127).side = .good) ∧
    Runs (fun d => (d.cp 127).moving = some 2 ∧ (d.cp 127).owner = none ∧ (d.cp 127).settling = true
      ∧ bitOf d.trip.charged 127 = false) :=
  ⟨runs (on.modCp 127 (fun c => { c with side := .good, settling := true })) _ (by decide +kernel) (by decide +kernel),
   runs (on.modCp 127 (fun c => { c with side := .deciding, settling := true, moving := some 2 })) _ (by decide +kernel)
     (by decide +kernel)⟩

theorem witness_HousekeepingCoulombsAndSweeps_background :
    Runs (fun d => d.hkUse.1 = .background) ∧ Runs (fun d => (d.str 3).est.live = true) ∧
    Runs (fun d => (d.str 3).est.live = false) :=
  ⟨runs { on with house := { on.house with position := 63 } } _ (by decide +kernel) (by decide +kernel),
   runs (on.modEst 3 (fun x => { x with live := true })) _ (by decide +kernel) (by decide +kernel),
   runs (on.modEst 3 (fun x => { x with live := false })) _ (by decide +kernel) (by decide +kernel)⟩

theorem witness_EstimatorAnchors_live :
    Runs (fun d => (d.str 3).est.live = true ∧ (d.str 3).est.full = some 9) ∧
    Runs (fun d => (d.str 3).est.live = true ∧ (d.str 3).est.empty = some 9) :=
  ⟨runs (on.modEst 3 (fun x => { x with live := true, full := some 9 })) _ (by decide +kernel) (by decide +kernel),
   runs (on.modEst 3 (fun x => { x with live := true, empty := some 9 })) _ (by decide +kernel) (by decide +kernel)⟩

theorem witness_PhaseTiming_park :
    Runs (fun d => d.groupOfLeg 23 = some 15 ∧ (d.leg 23).absent = some 9 ∧ (d.leg 23).state = .idle
      ∧ (d.leg 23).parkAuto = true) :=
  runs (legged (on.modLeg 23 (fun l => { l with absent := some 9, parkAuto := true }))) _ (by decide +kernel)
    (by decide +kernel)

/-- Bank 3 sums at a converter of a full scale of 60,000 whose filtered value is the largest. -/
def apart : Dev := (fields [(0x4230, 31, 1, 1), (0x4230, 25, 6, 0), (0x0980, 0, 31, 60000)]).modSar 0 (fun c =>
  { c with filtered := 32752 })

theorem witness_BranchTimers_bank :
    Runs (fun d => BC_BANK_CFG.en d 3 = 1 ∧
      let c := BC_BANK_CFG.sum_conv d 3
      let whole : Int := (d.sar c).filtered * 2 * (d.fsOf c : Int)
      let parts := (((indices 24).filter (fun n => BC_CTRL.bank d n == 3 && (d.branch n).state != .off)).map d.branchI).sum
      BC_BANK_CFG.tol d 3 * 64 * d.fsOf c < (whole - (parts : Int)).natAbs) :=
  runs apart _ (by decide +kernel) (by decide +kernel)

theorem witness_BusMasters_waiting :
    Runs (fun d => PB_CFG.en d 3 = 1 ∧ (d.pb 3).current.isSome = true) ∧
    Runs (fun d => AV_CFG.en d 1 = 1 ∧ (d.av 1).current = none) ∧
    Runs (fun d => AV_CFG.en d 1 = 1 ∧ (d.av 1).current.isSome = true) :=
  ⟨runs (fields [(0x4C30, 31, 1, 1)] (on.modPb 3 (fun m => { m with current := some item }))) _ (by decide +kernel)
     (by decide +kernel),
   runs (fields [(0x4C50, 31, 1, 1)]) _ (by decide +kernel) (by decide +kernel),
   runs (fields [(0x4C50, 31, 1, 1)] (on.modAv 1 (fun m => { m with current := some (frame false) }))) _ (by decide +kernel)
     (by decide +kernel)⟩

/-- The programming of a marker row at a command's request. -/
def marking : FuseRun := ⟨57, BitVec.allOnes 64, some 5, 7⟩

/-- The bank after the programming of `marking`, with some of each copy's bits missed. -/
def marked (missed : BitVec 72) : FuseBank := ({ on.fuse.blow marking missed 0 missed 0 with run := none } : FuseBank).resolve 57

/-- What every reference reads of a copy of that row then. -/
def markedRead (missed : BitVec 72) : FuseRead := FuseRead.blow ⟨0, 0⟩ (BitVec.allOnes 64) (BitVec.allOnes 8) missed

theorem marked_data (m : BitVec 72) : (markedRead m).data = BitVec.allOnes 64 &&& ~~~(dataMask m) := by
  unfold markedRead FuseRead.blow readOf
  split
  · rename_i h
    simp only [Bool.and_eq_true, decide_eq_true_eq] at h
    rw [h.1.1]; decide
  · simp

theorem marked_isSet (m : BitVec 72) : (marked m).isSet 57 = decide (96 ≤ popcount 64 (markedRead m).data.toNat
    + popcount 64 (markedRead m).data.toNat) := by
  have h : on.fuse.row 57 = (fuseRowOf 0) := by decide +kernel
  unfold FuseBank.row fileGet at h
  simp only [show (57:Nat) < 64 from by decide, dite_true] at h
  simp only [marked, FuseBank.isSet, FuseBank.row, FuseBank.resolve, FuseBank.blow, fileGet, fileMod, marking, h,
    show (57:Nat) < 64 from by decide, dite_true, Vector.getElem_set_self, resolveRow, show 56 ≤ (57 : Nat) from by decide, if_true]
  simp [FuseCopy.blow, FuseCopy.raw, FuseCopy.marginal, fuseRowOf, fuseCopyOf, FuseRun.check, markerBits, markedRead]
  rfl

theorem marked_sets : (marked 0).isSet 57 = true ∧ (marked (BitVec.allOnes 72)).isSet 57 = false := by
  rw [marked_isSet, marked_isSet, marked_data, marked_data]; decide +kernel

theorem witness_RepairProgrammingUnknown_marker :
    Runs (fun d => d.fuse.run = some marking ∧ 56 ≤ marking.row ∧ marking.fetch = some 5) ∧
    (marked 0).isSet 57 = true ∧ (marked (BitVec.allOnes 72)).isSet 57 = false :=
  ⟨runs { on with fuse := { on.fuse with run := some marking } } _ (by decide +kernel) (by decide +kernel), marked_sets⟩

/-- GROUP_ENABLE on for group 0 as the fourth fetched command finds it staged, with a number of stages done. -/
def earlier (done : Nat) (fence : Bool) : OpenCmd :=
  ⟨3, some 3, 0x13, { std specGroupEnable 0 [1] with fence := fence }, true, 3, done, false, []⟩
/-- GROUP_ENABLE on for group `g`, staged and not begun. -/
def later (fetch g : Nat) : OpenCmd := ⟨fetch, some fetch, 0x13, std specGroupEnable g [1], false, 3, 0, false, []⟩

/-- An earlier command keeps back another with its target until it has committed a stage, and a FENCE keeps back all of
its ring; the first waiting command that may begin does. -/
theorem witness_FetchChecksInOrder_waiting :
    (let x := earlier 0 false
     x.desc.target = (later 4 0).desc.target ∧ x.done = 0 ∧ (later 5 1).desc.target ≠ x.desc.target
      ∧ x.desc.ring = (later 5 1).desc.ring ∧ x.desc.fence = false ∧ (later 5 1).desc.fence = false) ∧
    (1 ≤ (earlier 1 false).done ∧ (earlier 1 true).desc.fence = true) ∧
    (∃ d : Dev, d.hqi.staged.filter (fun x => !x.begun) = [later 4 0] ++ later 5 1 :: []
      ∧ (opcodeOf (later 4 0).op).isSome = true ∧ (d.hqi.staged.takeWhile (fun y => y.fetch != (later 4 0).fetch)) = [earlier 0 false]
      ∧ d.hqi.staged.takeWhile (fun y => y.fetch != (later 5 1).fetch) = [earlier 0 false, later 4 0]) ∧
    Runs (fun d => d.fetchTurn = some 0 ∧ ∀ x ∈ d.hqi.staged, x.fetch ≠ d.hqi.fetches) := by
  refine ⟨by decide +kernel, by decide +kernel,
    ⟨{ linked with hqi := { linked.hqi with staged := [earlier 0 false, later 4 0, later 5 1] } }, by decide +kernel⟩,
    runs { linked with hqi := { linked.hqi with staged := [earlier 0 false], fetches := 4 } } _ (by decide +kernel)
      (by decide +kernel)⟩

/-- An entry that a link event has closed after its second stage. -/
def cut : LedgerEntry := { entry 0x13 false stLinkReset with done := 2 }

theorem witness_ResumeOutcomes_goesOn :
    (∀ st, Runs (fun d => let e := d.takeOff 0
      d.fetchTurn = some 0 ∧ again.resume = true ∧ e.entryOf again.tag.toNat = some cut ∧ cut.opened = false
        ∧ cut.op = specGroupEnable.code ∧ cut.target = again.target ∧ cut.pcrc = again.pcrc ∧ 1 ≤ cut.done
        ∧ cut.status ∈ [stLinkReset, stAborted, stTokenTimeout, stRejected] ∧ e.withdrawn = false
        ∧ specGroupEnable.life again e = true ∧ e.il.slw = false ∧ again.expert = false
        ∧ again.buffer.toNat % 8 = 0 ∧ specGroupEnable.params again e = true ∧ e.hqi.staged = [] ∧ (e.group 0).state = st)) :=
  fun st => runs ({ linked with ledger := [cut] }.modGroup 0 (fun x => { x with state := st })) _
    (by cases st <;> decide +kernel) (by cases st <;> decide +kernel)

/-! ### Words that spell commands -/

/-- Table 14-4: a descriptor of GROUP_TARGET (0x11), EXPERT and NOTIFY, tag 0x1234, class 0x01, index 5. -/
theorem test_descriptor :
    decodeDescriptor 2 ([0x11, 0x0A, 0x34, 0x12, 0x05, 0x00, 0x00, 0x01] ++ leBytes 0x1000 8 ++ leBytes 64 4
      ++ List.replicate 44 0xAB) [] =
      .groupTarget ⟨2, false, true, false, true, 0x1234, 0x01, 5, 0x1000, 64, List.replicate 44 0xAB, []⟩ := by
  decide +kernel
/-- Table 15-1: byte 20 selects the row, and an opcode that is not listed is unknown. -/
theorem test_descriptor_rows :
    decodeDescriptor 0 (encodeDescriptor 0x13 (std specGroupEnable 3 [0])) [] = .groupEnableOff (std specGroupEnable 3 [0])
    ∧ decodeDescriptor 0 (encodeDescriptor 0x18 (std specLegConfigure 3 [2])) [] = .legUnpark (std specLegConfigure 3 [2])
    ∧ decodeDescriptor 0 (encodeDescriptor 0x05 (desc false 0 0 [] [])) [] = .unknownOpcode 0x05 (desc false 0 0 [] []) := by
  decide +kernel
/-- R389, R390: a HEARTBEAT frame, the same with one bit inverted, and with a clock missing. -/
theorem test_frames :
    decodeFrame 32 (encodeFrame 0x3 0x10001) = .spHeartbeat 0x10001
    ∧ decodeFrame 32 (encodeFrame 0x3 0x10001 ^^^ 0x100) = .spBadFrame .crc 0x3
    ∧ decodeFrame 31 (encodeFrame 0x3 0x10001) = .spBadFrame .length 0x3
    ∧ decodeFrame 32 (encodeFrame 0xF 0) = .spBadFrame .unknown 0xF := by decide +kernel

/-! ### Check values and worked examples of the manual -/

/-- The device after a command; commands have a next state alone. -/
def after (i : Instr) (d : Dev) : Dev :=
  match exec i ⟨d, []⟩ with
  | .next t => t.dev
  | _ => d

/-- R339: the check value of CRC-32C over "123456789". -/
theorem test_crc32c : crc32c ((indices 9).map (fun n => BitVec.ofNat 8 (0x31 + n))) = 0xE3069283 := by decide +kernel
/-- R390: the check value of the CRC with polynomial 0x2F over "123456789". -/
theorem test_crc8 : crc8 ((indices 9).map (fun n => BitVec.ofNat 8 (0x31 + n))) = 0xDF := by decide +kernel
/-- R6: 1.25 and -0.5 as Q4.20 codes. -/
theorem test_signed_codes : unsignedOf 24 1310720 = 0x140000 ∧ unsignedOf 24 (-524288) = 0xF80000 := by decide
/-- R354: SHA-256 of "abc" (FIPS 180-4). -/
theorem test_sha256 : sha256 [0x61, 0x62, 0x63] =
    [0xba, 0x78, 0x16, 0xbf, 0x8f, 0x01, 0xcf, 0xea, 0x41, 0x41, 0x40, 0xde, 0x5d, 0xae, 0x22, 0x23,
     0xb0, 0x03, 0x61, 0xa3, 0x96, 0x17, 0x7a, 0x9c, 0xb4, 0x10, 0xff, 0x61, 0xf2, 0x00, 0x15, 0xad] := by decide +kernel

/-- Table 4-14: the coefficients of G0. -/
theorem test_design_codes : designCodes false 200 2000 [800] [20000] =
    some [0x09EEA8, 0x003F1D, 0xF65076 - 2 ^ 24, 0, 0x182704, 0xF7D8FC - 2 ^ 24, 0] := by decide +kernel
/-- The soft-start step of the example of spec/04: 10 V/ms of 80 V at 5 µs. -/
theorem test_soft_start_step :
    (fields [(0x0A40, 19, 10, 200)]).stepOf 0 0x2000 = 167772 := by decide +kernel
/-- The model codes and bands of the example of spec/05; of gv see log entry 31. -/
theorem test_model_codes :
    (modelImages (fields [(0x0A40, 19, 10, 200), (0x2014, 0, 24, 94372)]) 0
      (std specModelLoad 0 (leBytes 4700 4 ++ leBytes 200 4 ++ leBytes 10000 4 ++ leBytes 25600 4 ++ leBytes 420000 4
        ++ leBytes 26214 4 ++ leBytes 800 4 ++ leBytes 125 2 ++ [8, 0x54, 1, 0] ++ leBytes 100 2 ++ leBytes 1000 4))
      80000 512000 1000000).map (fun l => [1, 2, 3, 5].map (fun i => (l.map (·.2)).getD i 0))
      = some [0x02A8DA, 0xDF, 0xD1B, 52 * 2 ^ 22 + 8 * 2 ^ 16 + 41 * 2 ^ 6] := by decide +kernel
/-- The thresholds of CP40 and CP41 in the example of spec/03: 80 A and -30 A at 125 A. -/
theorem test_threshold_codes :
    (fields [(0x09D0, 0, 31, 125000)]).thresholdCode 40 80000 = 839
    ∧ (fields [(0x09D0, 0, 31, 125000)]).thresholdCode 41 (-30000) = 390 := by decide +kernel
/-- The derived codes of BC0 in the example of spec/08. -/
theorem test_branch_codes :
    tripCode 512 14 = 896
    ∧ (fieldList (branchRegs 0)).filterMap (fun p => if p.1 = BC_TH_R.reg 0 then branchConv 400000 p.1 p.2 150 else none)
      = [614, 614]
    ∧ (fieldList (branchRegs 0)).filterMap (fun p => if p.1 = BC_TH_K1.reg 0 then branchConv 400000 p.1 p.2 20 else none)
      = [134218] := by decide +kernel
/-- Free slots of R64: period 40 with OS 4 leaves one, period 64 with OS 8 none. -/
theorem test_free_slots :
    (fields [(0x0800, 11, 2, 2), (0x0800, 0, 8, 4)]).freeSlots 0 = 1
    ∧ (fields [(0x0800, 11, 2, 3), (0x0800, 0, 8, 7)]).freeSlots 0 = 0 := by decide +kernel
/-- R173: the offsets of five phases in a period of 160,000 codes, full bridges of legs 0 to 9. -/
theorem test_phase_offsets :
    (let d := (fields [(0x2008, 0, 24, 0x3FF), (0x2004, 30, 2, 2)]).placeOffsets 0 0 160000
     [0, 2, 4, 6, 8].map (fun k => PTU_LEG_OFS.ofs d k)) = [6400, 38400, 70400, 102400, 134400] := by decide +kernel
/-- SHED_POLICY of G2 in spec/06: 20 A and 40 A at 125 A per phase give the codes 40 and 81. -/
theorem test_shed_codes :
    (let d := fields ([20, 21, 22, 23].flatMap (fun k => [(0x0800 + 4 * k, 31, 1, 1), (0x0800 + 4 * k, 23, 5, 5),
        (0x0800 + 4 * k, 15, 8, 1 * 32 + k), (0x0980 + 4 * k, 0, 31, 125000)]) ++ [(0x2048, 0, 24, 0xF00000)]) linked
     let e := after (.shedPolicy (std specShedPolicy 2 ([1, 1, 10, 0] ++ leBytes 20000 4 ++ leBytes 40000 4))) d
     (PTU_GRP_SHED.shed_thr e 2, PTU_GRP_SHED.add_thr e 2, PTU_GRP_SHED.min_ph e 2, PTU_GRP_SHED.shed_dwell e 2))
      = (40, 81, 1, 10) := by decide +kernel
/-- FEED_SHARE of set A in spec/07: gain 10 and step 2. -/
theorem test_share_codes :
    (let d := fields ([(0x08A0, 20, 3, 4), (0x08A0, 15, 5, 0), (0x08A4, 20, 3, 4), (0x08A4, 15, 5, 1), (0x0800, 20, 3, 5),
        (0x0800, 15, 5, 4), (0x0804, 20, 3, 5), (0x0804, 15, 5, 5), (0x0980, 0, 31, 80000), (0x0984, 0, 31, 80000),
        (0x0A20, 0, 31, 2048000), (0x0A24, 0, 31, 2048000)]) linked
     let e := after (.feedShare (std specFeedShare 0 ([1, 3, 0, 0] ++ leBytes 100 4 ++ leBytes 1000 4 ++ leBytes 20000 4))) d
     (FC_SHARE.period e 0, FC_SHARE.ki e 0, FC_SHARE.step e 0, FC_CTRL.share_set e 1)) = (10, 10, 2, 1) := by decide +kernel

/-! ### Single commands, with results from the rules -/

/-- R381, R368: NOP takes no ledger entry; its completion takes the first slot of CC0. -/
theorem test_nop : (let e := after (.nop (desc false 0 0 [] [])) linked
    (e.ledger, (e.ring 0).devIdx, (e.ring 4).devIdx, e.hqi.staged)) = ([], 1, 1, []) := by decide +kernel
/-- R370 (Table 14-6): an opcode that Table 15-1 does not list ends with BAD_PARAM. -/
theorem test_unknown_opcode : ((after (.unknownOpcode 0x05 (desc false 0 0 [] [])) linked).ledger.map (fun l => (l.status, l.done)))
    = [(4, 0)] := by decide +kernel
/-- R100: GROUP_ENABLE of a group without converters is refused. -/
theorem test_group_enable_refused :
    ((after (.groupEnableOn (std specGroupEnable 0 [1])) linked).ledger.map (·.status)) = [3] := by decide +kernel
/-- R387, the worked example of spec/14: GROUP_ENABLE on, closed by a link event after two stages, is resumed: with the
group in RUN its third stage commits at once, with the group FAULTED it is refused with the stages it had. -/
theorem test_resume_example :
    (let d := { linked with ledger := [{ entry 0x13 false stLinkReset with done := 2 }] }
     let go := fun st => (after (.groupEnableOn again) (d.modGroup 0 (fun x => { x with state := st }))).ledger.map
       (fun l => (l.status, l.done, l.resumed, l.opened))
     (go .run, go .faulted)) = ([(0, 3, true, false)], [(3, 2, true, false)]) := by decide +kernel
/-- R40: CALENDAR_SET loads the word, increments the epoch and makes the calendar valid at the next X32 edge. -/
theorem test_calendar_set : (let e := after (.calendarSet (std specCalendarSet 0 (leBytes (5 * 2 ^ 30 + 7 * 2 ^ 15) 8))) linked
    let k := e.ka.count 1
    (e.ka.valid, k.seconds, k.subsec, k.epoch, k.valid)) = (false, 5, 7, 1, true) := by decide +kernel
/-- R389: the first frame after power-up answers PREVIOUS missing, and the next one the frame before it. -/
theorem test_safety_port : (let e := after (.spNop 0) on
    (e.out, e.sp.response)) = ([.spi (spResponse 6 0 0)], spResponse 0 0 0) := by decide +kernel
/-- R388: a frame with a wrong CRC is counted and discarded. -/
theorem test_bad_frame : (let e := after (.spBadFrame .crc 0) on
    (e.sp.crcErr, e.sp.lenErr, e.sp.discarded)) = (1, 0, 1) := by decide +kernel
/-- R363: a malformed write is counted. -/
theorem test_malformed : (after (.malformedAccess (.write true 0x01000 [0, 0, 0, 0])) on).hqi.badAccess = 1 := by decide +kernel
/-- R366: a doorbell at the ring's size is counted and does not move it. -/
theorem test_bad_doorbell : (let e := after (.dbCqWrite 0 16) linked
    (e.hqi.dbErr, (e.ring 0).dbIdx)) = (1, 1) := by decide +kernel
/-- R384: PERST_N disables the rings and takes the link down. -/
theorem test_perst : (let e := after .perstN linked
    ((e.ring 0).en, e.hqi.speed, e.hqi.expertEn)) = (false, 0, false) := by decide +kernel
/-- R82, R88: a good-side channel that crosses latches the column its row names; returning leaves the latch. -/
theorem test_trip : (let d := (fields [(0x1800, 0, 32, 1)]).modCp 0 (fun c => { c with side := .good })
    let e := after (.cpCrossToFault 0) d
    (bitOf e.trip.latches 0, bitOf (after (.cpReturnGood 0) e).trip.latches 0, (after (.cpReturnGood 0) e).cp 0 |>.side))
      = (true, true, .good) := by decide +kernel
/-- R94: a DRVFLT input that is not enabled drives no row. -/
theorem test_driver_fault : (let d := fields [(0x1C00, 0, 32, 1)]
    (after (.drvfltAssert 0) d).trip.latches) = 0 := by decide +kernel
/-- R67, R68: four codes at OS 4 give their sum times 4; a code of -2048 is over-range. -/
theorem test_converter : (let d := fields [(0x0800, 31, 1, 1), (0x0800, 11, 2, 2)]
    let e := (after (.converterResult 0 [-2048, 1, 2, 3]) d).sar 0
    (e.result, e.exceeds)) = (-8168, true) := by decide +kernel
/-- R156: the same result on both lanes counts towards a lane's passes. -/
theorem test_check_item : (let d := ((manned (grp 15 .run)).modLane 0 (fun l => { l with toPass := 3 })).modGroup 15 (fun x =>
      { x with item := some ⟨15, 0, default, (default : ItemInput).run⟩ })
    ((after (.checkItem 15 1 false false) d).lane 0).toPass) = 2 := by decide +kernel
/-- R105: an item of a group that is OFF does not run. -/
theorem test_sample_off : ((after (.groupSampleComplete 0 ⟨0, none⟩ false) on).group 0).state = .off := by decide +kernel
/-- R121: a soft start that has timed out faults its group. -/
theorem test_soft_start_timeout : ((after (.softStartTimeout 15) (grp 15 .softStart)).group 15).state = .faulted := by
  decide +kernel
/-- Table 7-1: an inrush that has timed out trips its feed with cause 4. -/
theorem test_inrush_timeout : (let e := (after (.inrushTimeout 3) (feed (fun x => { x with state := .inrush }))).feed 3
    (e.state, e.cause)) = (.tripped, 4) := by decide +kernel
/-- Table 8-1: the limit amplifier takes a branch from ON to LIMITING. -/
theorem test_branch_limit : (let e := (after (.branchLimitEngage 23) (branch (fun x => { x with state := .on }))).branch 23
    (e.state, e.limits)) = (.limiting, 1) := by decide +kernel
/-- Table 9-1: a contact that stays closed faults its string with cause 6. -/
theorem test_welded : (let e := (after (.contactorWelded 3) (str (fun x => { x with state := .opening, kas := true }))).str 3
    (e.state, e.cause)) = (.faulted, 6) := by decide +kernel
/-- R284: a Bell frame with a wrong parity cell is counted. -/
theorem test_bell_frame : (after (.bellFrameReceived 0x80) (fields [(0x4804, 31, 1, 1)])).tt.frameErr = 1 := by decide +kernel
/-- Table 10-1: a rail not off in off_timeout counts as off. -/
theorem test_off_timeout : ((after (.offTimeout 15) (rail (fun r => { r with state := .falling }))).rail 15).state = .off := by
  decide +kernel
/-- R303: a request that has waited its limit is given up. -/
theorem test_wait_limit : ((after (.tokenWaitLimit 79) (slot (fun x => { x with state := .waiting }))).slot 79).state = .empty := by
  decide +kernel
/-- R331: the host's silence is remembered. -/
theorem test_host_silent : (after .hostSilent (fields [(0x5404, 0, 16, 1)])).il.hostSilent = true := by decide +kernel
/-- R352: a nonce lapses. -/
theorem test_nonce : (after .nonceExpiry (tr (fun t => { t with nonce := some 0 }))).tr.nonce = none := by decide +kernel
/-- R292: a POL_TRANSACTION on a master that is not enabled is refused. -/
theorem test_pol_refused : ((after (.polTransaction (std specPolTransaction 3 [0, 0x40, 0x03, 0])) linked).ledger.map (·.status))
    = [3] := by decide +kernel
/-- R43: a count 1,000 periods above 40,000,000 is 25 ppm. -/
theorem test_trim : (after (.x32MeasurementDone 40001000) (core (fun c => { c with xrefOk := true, autoEn := true }) (ka ticking))).ka.trim
    = 25 := by decide +kernel
/-- R416, R424: valid supplies start the core domain, whose START record enters the Train Register. -/
theorem test_power_on : (let e := after .corePowerOn State.reset.dev
    (e.coreRuns, e.tr.buffer.head?.map (·.typ))) = (true, some 0x01) := by decide +kernel
/-- Table 19-9: with TMS high, Run-Test/Idle leads to Select-DR-Scan. -/
theorem test_tap : (after (.tapTckEdge true false 0) { on with tap := { on.tap with state := .idle } }).tap.state
    = .selectDr := by decide +kernel
/-- Log entry 9: an idle step passes one tick. -/
theorem test_idle : (match step ⟨on, []⟩ with | .next t => t.dev.core.uptime | _ => 0) = 1 := by decide +kernel
/-- A step takes the front command off the queue. -/
theorem test_step : (match step ⟨on, [.malformedAccess (.write false 0x00002 [0, 0]), .paceLowClear]⟩ with
    | .next t => (t.pending, t.dev.hqi.badAccess) | _ => ([], 0)) = ([.paceLowClear], 1) := by decide +kernel
/-- No row of the opcode table gives its command bits. -/
theorem test_no_row_has_bits (nbits w : Nat) (s : State) : decodeTableWord nbits w = none ∧ s.withFetchWord nbits w = s :=
  ⟨rfl, rfl⟩

/-! ### Ill-formed commands, one for each check of WellFormed, beside a well-formed one -/

/-- A descriptor whose parameters are not 44 bytes, and one whose buffer is shorter than its bytes. -/
theorem test_wf_descriptor :
    (Instr.nop (desc false 0 0 [] [])).wellFormed = true ∧ (Instr.nop { desc false 0 0 [] [] with params := [] }).wellFormed = false
    ∧ (Instr.nop { desc false 0 0 [] [1] with length := 0 }).wellFormed = false := by decide +kernel
/-- A descriptor whose selecting byte is another row's. -/
theorem test_wf_selector :
    (Instr.groupEnableOn (std specGroupEnable 0 [1])).wellFormed = true
    ∧ (Instr.groupEnableOn (std specGroupEnable 0 [0])).wellFormed = false
    ∧ (Instr.legPark (std specLegConfigure 0 [2])).wellFormed = false := by decide +kernel
/-- A failed buffer read of an opcode that Table 15-1 does not list, or of an empty buffer. -/
theorem test_wf_read_failure :
    (Instr.dmaError (.buffer 0x14 (desc false 0 0 [] [])) 0).wellFormed = true
    ∧ (Instr.dmaError (.buffer 0x05 (desc false 0 0 [] [])) 0).wellFormed = false
    ∧ (Instr.dmaError (.buffer 0x14 { desc false 0 0 [] [] with length := 0 }) 0).wellFormed = false := by decide +kernel
/-- An unknown command of the safety port that the port knows. -/
theorem test_wf_safety_port :
    (Instr.spBadFrame .unknown 0x7).wellFormed = true ∧ (Instr.spBadFrame .unknown 0x6).wellFormed = false := by decide +kernel
/-- A stall of a master, or on a block, that does not exist. -/
theorem test_wf_stall :
    (Instr.coreStall 0x23 0 ⟨0x2000, false⟩).wellFormed = true ∧ (Instr.coreStall 0x24 0 ⟨0x2000, false⟩).wellFormed = false
    ∧ (Instr.coreStall 0x23 0 ⟨0x2001, false⟩).wellFormed = false := by decide +kernel
/-- A result of three conversions. -/
theorem test_wf_converter :
    (Instr.converterResult 0 [1, 2]).wellFormed = true ∧ (Instr.converterResult 0 [1, 2, 3]).wellFormed = false := by decide +kernel
/-- A readback of fewer codes than channels. -/
theorem test_wf_readback :
    (Instr.thresholdReadback (List.replicate 128 0)).wellFormed = true ∧ (Instr.thresholdReadback []).wellFormed = false := by
  decide +kernel
/-- A host write of no byte, and one of nine. -/
theorem test_wf_access :
    (Instr.malformedAccess (.write true 0x01000 [0])).wellFormed = true
    ∧ (Instr.malformedAccess (.write true 0x01000 [])).wellFormed = false
    ∧ (Instr.malformedAccess (.write true 0x01000 (List.replicate 9 0))).wellFormed = false := by decide +kernel
/-- A word of no memory of Table 12-4, or of a source that has no word there. -/
theorem test_wf_scrub :
    (Instr.bge0ScrubWord 0x03 0 .sound ⟨21, none, false⟩ false).wellFormed = true
    ∧ (Instr.bge0ScrubWord 0x07 0 .sound ⟨160, none, false⟩ false).wellFormed = false
    ∧ (Instr.bge0ScrubWord 0x03 0 .sound ⟨22, none, false⟩ false).wellFormed = false := by decide +kernel
/-- A transaction that returns more than a block. -/
theorem test_wf_transaction :
    (Instr.pmbusTransactionDone 0 ⟨0, false⟩ (List.replicate 256 0)).wellFormed = true
    ∧ (Instr.pmbusTransactionDone 0 ⟨0, false⟩ (List.replicate 257 0)).wellFormed = false := by decide +kernel
/-- An unknown opcode that is known. -/
theorem test_wf_opcode :
    (Instr.unknownOpcode 0x05 (desc false 0 0 [] [])).wellFormed = true
    ∧ (Instr.unknownOpcode 0x00 (desc false 0 0 [] [])).wellFormed = false := by decide +kernel

end Sys2Proof.Tests
end

section
/-! The safety port's frames (O6) and the values of reset (O51). -/
namespace Sys2Proof.Machine

/-! ### Frames of the safety port -/

/-- A change of the safety port alone leaves a still device still. -/
theorem Dev.still_modSp (d : Dev) (f : SafetyPort → SafetyPort) (h : d.still) : (d.modSp f).still :=
  Dev.still_congr d _ h rfl rfl rfl rfl rfl rfl rfl rfl rfl rfl rfl

/-- The end of a frame leaves a still device still. -/
theorem Dev.still_spFrame (d e : Dev) (status cmd data : Nat) (h : e.still) : (d.spFrame e status cmd data).still :=
  Dev.still_congr e _ h rfl rfl rfl rfl rfl rfl rfl rfl rfl rfl rfl

/-- A command that ends a frame over the still device `e` leaves the state with that frame. -/
theorem run_spFrame (f : Dev → Dev) (s : State) (e : Dev) (status cmd data : Nat) (he : e.still)
    (h : f s.dev.silent = s.dev.silent.spFrame e status cmd data) :
    run f s = .next (s.put (s.dev.silent.spFrame e status cmd data)) :=
  run_is f s _ h (Dev.still_spFrame _ e _ _ _ he)

theorem spNop_runs (p : BitVec 20) (d : Dev) (h : d.coreRuns = true) : spNop p d = d.spFrame d 0 0x0 0 := if_pos h

theorem spReadHi_runs (p : BitVec 20) (d : Dev) (h : d.coreRuns = true) :
    spReadHi p d = d.spFrame d 0 0x2 d.sp.readLatch := if_pos h

theorem spStatus_runs (p : BitVec 20) (d : Dev) (h : d.coreRuns = true) :
    spStatus p d = d.spFrame d 0 0x6 d.spStatusWord := if_pos h

/-- A READ_LO below the State Mirror is answered BAD_ADDRESS. -/
theorem spReadLo_below (p : BitVec 20) (d : Dev) (h : d.coreRuns = true) (hi : bitsOf p.toNat 0 18 < 0x400) :
    spReadLo p d = d.spFrame d 4 0x1 0 := by
  simp [spReadLo, h, hi, spBadAddress]

/-- A READ_LO in the State Mirror answers with the low half of the word read and latches its high half. -/
theorem spReadLo_mirror (p : BitVec 20) (d : Dev) (h : d.coreRuns = true) (hi : 0x400 ≤ bitsOf p.toNat 0 18) :
    spReadLo p d =
      let r := d.spRead (4 * bitsOf p.toNat 0 18)
      d.spFrame (r.2.modSp (fun x => { x with readLatch := r.1 / 2 ^ 16 % 2 ^ 16 })) 0 0x1 r.1 := by
  simp [spReadLo, h, Nat.not_lt.mpr hi, spOk]

/-- The low word of a 64-bit item is read, and the item's high word latched (R406). -/
theorem Dev.spRead_wide (d : Dev) (a : Nat) (hw : (d.wide a).isSome = true) (ha : a % 8 = 0) :
    d.spRead a = (d.mirror a, d.modSp (fun x => { x with wordAt := a + 4, wordHi := d.mirror (a + 4) })) :=
  if_pos ⟨ha, hw⟩

/-- A word that is neither a low word of a 64-bit item nor the latched high word is read as it stands. -/
theorem Dev.spRead_narrow (d : Dev) (a : Nat) (hw : ¬ (a % 8 = 0 ∧ (d.wide a).isSome = true)) (ha : a ≠ d.sp.wordAt) :
    d.spRead a = (d.mirror a, d) := (if_neg hw).trans (if_neg ha)

/-- The Interlocking after a HEARTBEAT with payload `p`: the heartbeat counts anew, bit 17 consents to the end of the
hold, and with bit 16 the fault number in bits [15:0] is acknowledged (R323, R330, R332). -/
def Interlocking.beaten (il : Interlocking) (up p : Nat) : Interlocking :=
  { il with spBeat := up, spSilent := false, spHold := il.spHold && !bitOf p 17,
            sirq := if bitOf p 16 then il.sirq.filter (· != bitsOf p 0 16) else il.sirq }

theorem spHeartbeat_runs (p : BitVec 20) (d : Dev) (h : d.coreRuns = true) :
    spHeartbeat p d =
      let il := d.il.beaten d.core.uptime p.toNat
      d.spFrame { d with il := il } 0 0x3 (il.sirq.headD 0) :=
  if_neg (by simp [h])

theorem spHalt_badPattern (p : BitVec 20) (d : Dev) (h : d.coreRuns = true) (hp : p ≠ 0x5A5A5) :
    spHalt p d = d.spFrame d 5 0x4 0 :=
  (if_neg (by simp [h])).trans (if_pos hp)

theorem spEnterSingleLine_badPattern (p : BitVec 20) (d : Dev) (h : d.coreRuns = true) (hp : p ≠ 0xA5A5A) :
    spEnterSingleLine p d = d.spFrame d 5 0x5 0 :=
  (if_neg (by simp [h])).trans (if_pos hp)

/-- An event told about within the last second is not raised again. -/
theorem Dev.raiseLimited_told (d : Dev) (code cls src w0 w1 : Nat) (h : d.mayTell (code * 256 + src) = false) :
    d.raiseLimited code cls src w0 w1 = d := by
  simp [Dev.raiseLimited, h]

/-- A frame with a failing CRC, told about within the last second, is counted and nothing more. -/
theorem spBadFrame_crc_told (cmd : BitVec 4) (d : Dev) (h : d.coreRuns = true)
    (ht : d.mayTell (0x017F * 256 + 167) = false) :
    spBadFrame .crc cmd d = d.spFrame (d.modSp (fun x =>
      { x with discarded := (x.discarded + 1) % 2 ^ 32, crcErr := held 255 (x.crcErr + 1) })) 1 cmd.toNat 0 := by
  refine (if_neg (by simp [h])).trans ?_
  exact congrArg (fun e => d.spFrame e 1 cmd.toNat 0) (Dev.raiseLimited_told _ _ _ _ _ _ ht)

/-- A frame of another length, told about within the last second, is counted and nothing more. -/
theorem spBadFrame_length_told (cmd : BitVec 4) (d : Dev) (h : d.coreRuns = true)
    (ht : d.mayTell (0x017F * 256 + 167) = false) :
    spBadFrame .length cmd d = d.spFrame (d.modSp (fun x =>
      { x with discarded := (x.discarded + 1) % 2 ^ 32, lenErr := held 255 (x.lenErr + 1) })) 2 cmd.toNat 0 := by
  refine (if_neg (by simp [h])).trans ?_
  exact congrArg (fun e => d.spFrame e 2 cmd.toNat 0) (Dev.raiseLimited_told _ _ _ _ _ _ ht)

/-- Settles O6: each command's equation on a running core, and a still device stays still over a frame. -/
theorem safetyPortFrames : Obligations.SafetyPortFrames := by
  intro s hstill hrun d
  have hs : d.still := Dev.still_silent s.dev hstill
  have hr : d.coreRuns = true := hrun
  refine ⟨fun p => ?nop, fun p hi => ?below, fun p hi hw ha => ?wide, fun p hi hw ha => ?narrow, fun p => ?readHi,
    fun p => ?heartbeat, fun p => ?status, fun p hp => ?halt, fun p hp => ?singleLine, fun cmd ht => ?crc,
    fun cmd ht => ?length⟩
  case nop => exact run_spFrame (spNop p) s d _ _ _ hs (spNop_runs p d hr)
  case below => exact run_spFrame (spReadLo p) s d _ _ _ hs (spReadLo_below p d hr hi)
  case wide =>
    refine run_spFrame (spReadLo p) s _ _ _ _ (Dev.still_modSp d _ hs) ?_
    rw [spReadLo_mirror p d hr hi, Dev.spRead_wide d _ hw ha]; rfl
  case narrow =>
    refine run_spFrame (spReadLo p) s _ _ _ _ (Dev.still_modSp d _ hs) ?_
    rw [spReadLo_mirror p d hr hi, Dev.spRead_narrow d _ hw ha]
  case readHi => exact run_spFrame (spReadHi p) s d _ _ _ hs (spReadHi_runs p d hr)
  case heartbeat =>
    exact run_spFrame (spHeartbeat p) s _ _ _ _ (Dev.still_congr d _ hs rfl rfl rfl rfl rfl rfl rfl rfl rfl rfl rfl)
      (spHeartbeat_runs p d hr)
  case status => exact run_spFrame (spStatus p) s d _ _ _ hs (spStatus_runs p d hr)
  case halt => exact run_spFrame (spHalt p) s d _ _ _ hs (spHalt_badPattern p d hr hp)
  case singleLine => exact run_spFrame (spEnterSingleLine p) s d _ _ _ hs (spEnterSingleLine_badPattern p d hr hp)
  case crc =>
    exact run_spFrame (spBadFrame .crc cmd) s _ _ _ _ (Dev.still_modSp d _ hs) (spBadFrame_crc_told cmd d hr ht)
  case length =>
    exact run_spFrame (spBadFrame .length cmd) s _ _ _ _ (Dev.still_modSp d _ hs) (spBadFrame_length_told cmd d hr ht)

/-! ### The values of reset -/

/-- Every entry of a resource file filled with `a` is `a`. -/
theorem fileGet_replicate {α : Type} {n : Nat} (a dflt : α) (i : Fin n) :
    fileGet (Vector.replicate n a) i.val dflt = a := by
  simp [fileGet]

/-- No vendor default names a column in a row of the trip matrix. -/
theorem vendorWord_row (r : Fin 152) :
    vendorWord (FTA_TM_ROW_LO.reg r.val) = 0 ∧ vendorWord (FTA_TM_ROW_HI.reg r.val) = 0 := by
  revert r; decide +kernel

/-- A register that the live configuration does not list, and whose vendor default is 0, has every field 0. -/
theorem Dev.field_blank (d : Dev) (off lo w : Nat) (hc : d.cfg = []) (hv : vendorWord off = 0) : d.field off lo w = 0 := by
  simp [Dev.field, Dev.reg, hc, Regs.get, hv, bitsOf]

/-- With no register set, no row of the trip matrix names a column. -/
theorem Dev.rowMask_blank (d : Dev) (hc : d.cfg = []) (r : Nat) (hr : r < 152) : d.rowMask r = 0 := by
  obtain ⟨hlo, hhi⟩ := vendorWord_row ⟨r, hr⟩
  have h : d.rowConfigured r = 0 := by
    simp [Dev.rowConfigured, FTA_TM_ROW_LO.col_lo, FTA_TM_ROW_HI.col_hi, Dev.field_blank d _ _ _ hc hlo,
      Dev.field_blank d _ _ _ hc hhi]
  simp [Dev.rowMask, without, h]

/-- Where no row names a column, every driven column is latched. -/
theorem Dev.columnsHeld_unmasked (d : Dev) (h : ∀ r, r < 152 → d.rowMask r = 0) : d.columnsHeld := by
  rw [Dev.columnsHeld_iff]
  intro r hr _
  have hl : d.rowLatches r = 0 := by simp [Dev.rowLatches, h r (List.mem_range.mp hr)]
  rw [hl]
  exact Nat.or_zero _

/-- At reset every slot of the Token Office is empty, the second request of slot 78 too. -/
theorem State.reset_slot (i : Fin 80) : (State.reset.dev.slot i.val).state = .empty := by
  revert i; decide +kernel

/-- Table 14-26: at reset the completion rings and the event and record rings have their vectors, the command rings 0. -/
theorem State.reset_ringVec (r : Fin 11) : (State.reset.dev.hqi.rings.get r).vec =
    if 4 ≤ r.val ∧ r.val < 8 then r.val - 4 else if 9 ≤ r.val then r.val - 5 else 0 := by
  revert r; decide +kernel

/-- Settles O51: the scalars as the reset records list them, each resource file filled with one entry, and the trip
matrix blank because the live configuration is. -/
theorem resetValuesOfTheSpec : Obligations.ResetValuesOfTheSpec := by
  have hmask : ∀ r, r < 152 → State.reset.dev.rowMask r = 0 := Dev.rowMask_blank _ rfl
  exact ⟨⟨rfl, rfl, rfl, rfl, rfl, rfl, rfl, rfl, rfl, rfl, State.reset_slot, rfl, State.reset_ringVec,
    fun n => congrArg CatchPoint.neverGood (fileGet_replicate cpReset _ n),
    fun g => congrArg Group.state (fileGet_replicate groupReset _ g),
    fun k => congrArg Leg.state (fileGet_replicate legReset _ k),
    fun f => congrArg Feed.state (fileGet_replicate feedReset _ f),
    fun n => congrArg Branch.state (fileGet_replicate branchReset _ n),
    fun n => congrArg BString.state (fileGet_replicate stringReset _ n), rfl, rfl, rfl⟩,
    rfl, Dev.columnsHeld_unmasked _ hmask, hmask⟩

end Sys2Proof.Machine
end

section
/-! Converter results (O21). -/
namespace Sys2Proof.Machine

/-- An entry of a resource file that is changed. -/
theorem fileGet_fileMod_same {α : Type} {n : Nat} (v : Vector α n) (i : Nat) (f : α → α) (dflt : α) (h : i < n) :
    fileGet (fileMod v i f) i dflt = f (fileGet v i dflt) := by
  simp [fileGet, fileMod, h]

/-- A change of one entry of a resource file leaves the others. -/
theorem fileGet_fileMod_other {α : Type} {n : Nat} (v : Vector α n) (i j : Nat) (f : α → α) (dflt : α) (h : j ≠ i) :
    fileGet (fileMod v i f) j dflt = fileGet v j dflt := by
  by_cases hi : i < n <;> by_cases hj : j < n <;> simp [fileGet, fileMod, hi, hj, Ne.symm h]

/-! ### The converter's sum -/

/-- OS is one of 1, 2, 4 and 8 (Table 3-3). -/
theorem Dev.osOf_cases (d : Dev) (n : Nat) : d.osOf n = 1 ∨ d.osOf n = 2 ∨ d.osOf n = 4 ∨ d.osOf n = 8 := by
  have h : MA_CH_CFG.os d n < 4 := bitsOf_lt _ _ _
  unfold Dev.osOf
  interval_cases MA_CH_CFG.os d n <;> simp

/-- A running sum moves by the sum of what follows. -/
theorem foldl_codes_from (codes : List (BitVec 12)) (a : Int) :
    codes.foldl (fun a c => a + c.toInt) a = a + codes.foldl (fun a c => a + c.toInt) 0 := by
  induction codes generalizing a with
  | nil => simp
  | cons c cs ih => rw [List.foldl_cons, List.foldl_cons, ih, ih (0 + c.toInt)]; omega

/-- The sum of 12-bit codes lies between as many least and as many greatest codes. -/
theorem codesSum_bounds (codes : List (BitVec 12)) :
    -2048 * (codes.length : Int) ≤ codes.foldl (fun a c => a + c.toInt) 0
      ∧ codes.foldl (fun a c => a + c.toInt) 0 ≤ 2047 * (codes.length : Int) := by
  induction codes with
  | nil => simp
  | cons c cs ih =>
    have hlo : -2048 ≤ c.toInt := by have := BitVec.le_toInt c; omega
    have hhi : c.toInt < 2048 := by have := BitVec.toInt_lt (x := c); omega
    rw [List.foldl_cons, foldl_codes_from, List.length_cons]
    push_cast
    omega

/-- The result is 16 / OS times the sum, exactly, and in range at every OS (R67). -/
theorem sampleResult_exact_bounded (codes : List (BitVec 12)) (os : Nat)
    (hos : os = 1 ∨ os = 2 ∨ os = 4 ∨ os = 8) (hl : codes.length = os) :
    sampleResult codes os * (os : Int) = codes.foldl (fun a c => a + c.toInt) 0 * 16
      ∧ -32768 ≤ sampleResult codes os ∧ sampleResult codes os ≤ 32752 := by
  obtain ⟨hlo, hhi⟩ := codesSum_bounds codes
  rw [hl] at hlo hhi
  unfold sampleResult
  rcases hos with rfl | rfl | rfl | rfl <;> norm_num at hlo hhi ⊢ <;> omega

/-! ### What a converter's sample changes -/

/-- A running converter takes the result of its next instant's sample, and its feed is evaluated. -/
theorem converterResult_running (n : Fin 48) (codes : List (BitVec 12)) (d : Dev) (hr : d.coreRuns = true)
    (he : MA_CH_CFG.en d n.val = 1) (hl : codes.length = d.osOf n.val) :
    converterResult n codes d = ((d.takeHold n (d.converterInstant n)).takeResult n codes).evaluateFeedOf n := by
  simp [converterResult, hr, he, hl]

/-- A stopped converter has no result, and where it measures a feed's current the feed is evaluated. -/
theorem converterResult_stopped (n : Fin 48) (codes : List (BitVec 12)) (d : Dev) (hr : d.coreRuns = true)
    (he : MA_CH_CFG.en d n.val = 0) :
    converterResult n codes d = match d.feedOfConv n with
      | some f => (d.takeHold n (d.stoppedInstant n f)).feedEvaluate f
      | none => d := by
  simp only [converterResult, hr, he]
  rfl

/-- Taking a result leaves the registers alone. -/
theorem Dev.overCheck_cfg (d : Dev) (n : Nat) (far : Bool) : (d.overCheck n far).cfg = d.cfg := by
  unfold Dev.overCheck
  rw [apply_ite Dev.cfg, Dev.raise_cfg]
  exact ite_self _

/-- Which feed a converter measures rests on the registers alone. -/
theorem Dev.feedOfConv_congr (d e : Dev) (n : Nat) (h : e.cfg = d.cfg) : e.feedOfConv n = d.feedOfConv n := by
  unfold Dev.feedOfConv MA_CH_CFG.role MA_CH_CFG.role_idx Dev.field Dev.reg
  rw [h]

/-- The instant of a sample, and its hold as the converter's line places it (R35, R66). -/
theorem Dev.takeHold_sar (d : Dev) (n : Fin 48) (t : Int) (ht : 0 ≤ t) :
    ((d.takeHold n.val t).sar n.val).instant = some t ∧ ((d.takeHold n.val t).sar n.val).hold =
      ⟨t.toNat / 400, roundDivN (t.toNat % 400 * (fileGet d.bge.lines (64 + n.val) default).taps) 400⟩ := by
  have h : (d.takeHold n.val t).sar n.val = { d.sar n.val with instant := some t, hold := d.placeEdge (converterLine n) t } :=
    fileGet_fileMod_same _ _ _ _ n.isLt
  have hq : (t / 400).toNat = t.toNat / 400 := by omega
  have hm : (t % 400).toNat = t.toNat % 400 := by omega
  rw [h]
  exact ⟨rfl, by simp [Dev.placeEdge, placedAt, converterLine, hq, hm]⟩

/-- Settles O21: the bounds of the sum, and `converterResult` with the converter running and stopped. -/
theorem converterResults : Obligations.ConverterResults := by
  intro s n codes hrun d os sum x far
  have hr : d.coreRuns = true := hrun
  refine ⟨fun hl => ?exact, fun he hl => ?running, fun t ht => ?hold, fun he f hf => ?stopped, fun hs he hf => ?idle⟩
  case exact => exact sampleResult_exact_bounded codes os (d.osOf_cases n) hl
  case running =>
    have hfeed : ((d.takeHold n (d.converterInstant n)).takeResult n codes).feedOfConv n = d.feedOfConv n :=
      Dev.feedOfConv_congr _ _ _ (Dev.overCheck_cfg _ _ _)
    show Host.Outcome.next (s.put (converterResult n codes d).settle) = _
    rw [converterResult_running n codes d hr he hl]
    unfold Dev.evaluateFeedOf
    rw [hfeed]
    cases d.feedOfConv n <;> rfl
  case hold => exact d.takeHold_sar n t ht
  case stopped =>
    show Host.Outcome.next (s.put (converterResult n codes d).settle) = _
    rw [converterResult_stopped n codes d hr he, hf]
  case idle =>
    refine run_is (converterResult n codes) s d ?_ (Dev.still_silent s.dev hs)
    rw [converterResult_stopped n codes d hr he, hf]

end Sys2Proof.Machine
end

section
/-! The commands that ask for leave (O48). -/
namespace Sys2Proof.Machine

/-! ### What the first stage of each does -/

/-- RULEBOOK_COMMIT with the generation it names, or with none, asks for MRAM leave (R411). -/
theorem specRulebookCommit_asks (o : OpenCmd) (d : Dev) (hr : o.resumed = false)
    (hg : o.desc.num 20 4 = 0xFFFFFFFF ∨ o.desc.num 20 4 = d.bookGeneration) (hb : d.slotBusy slotCommit = false) :
    specRulebookCommit.begin o d =
      d.request slotCommit { rank := ringRank o.desc.ring.val, mram := 4, span := 4000000, tagged := true } := by
  have hn : ¬ ((o.desc.num 20 4 ≠ 0xFFFFFFFF ∧ o.desc.num 20 4 ≠ d.bookGeneration) ∨ d.slotBusy slotCommit = true) := by
    rw [hb]; rintro (⟨h1, h2⟩ | h)
    · exact hg.elim h1 h2
    · cases h
  exact (if_neg (by simp [hr])).trans (if_neg hn)

/-- A mode command that adds no Express channel moves its channels at once (R86). -/
theorem Dev.modeStage_moves (d : Dev) (o : OpenCmd) (h : d.addedExpress (d.modesFor o.op o.desc) = 0) :
    d.modeStage o = d.modeMoves o := if_pos h

/-- A mode command that adds Express channels asks for CORE leave, 1.1 mA for each (R86). -/
theorem Dev.modeStage_asks (d : Dev) (o : OpenCmd) (h : d.addedExpress (d.modesFor o.op o.desc) ≠ 0)
    (hb : d.slotBusy slotMode = false) :
    d.modeStage o = ({ d with trip := { d.trip with asking := some o.fetch } } : Dev).request slotMode
      { rank := ringRank o.desc.ring.val, core := 11 * d.addedExpress (d.modesFor o.op o.desc), tagged := true } :=
  (if_neg h).trans (if_neg (by simp [hb]))

/-- A RECORDER_CLEAR whose nonce stands and whose tag is right commits its first stage and asks for MRAM leave (R354). -/
theorem specRecorderClear_asks (o : OpenCmd) (d : Dev) (n : Nat) (hl : d.tr.log.length < 64)
    (hk : ({ d with tr := { d.tr with nonce := none } } : Dev).keyBlank = false) (hn : d.tr.nonce = some n)
    (ht : ({ d with tr := { d.tr with nonce := none } } : Dev).clearTag n = slice o.desc.params 0 16)
    (hb : d.slotBusy slotClear = false) (hc : d.tr.clearing = none) :
    specRecorderClear.begin o d = (({ d with tr := { d.tr with
        nonce := none, clearing := some ⟨false, 0, o.desc.tag.toNat, o.fetch, 0, none⟩ } } : Dev).commit o.fetch 1).request
      slotClear { rank := ringRank o.desc.ring.val, mram := 4, span := 40000000, tagged := true } := by
  have hbegin : specRecorderClear.begin o d = ({ d with tr := { d.tr with nonce := none } } : Dev).clearAsks o := by
    show (if 64 ≤ d.tr.log.length then _ else _) = _
    rw [if_neg (by omega), if_neg (by simp [hk]), hn]
    exact if_pos ht
  rw [hbegin]
  have hfree : ¬ (({ d with tr := { d.tr with nonce := none } } : Dev).slotBusy slotClear = true
      ∨ d.tr.clearing.isSome = true) := by
    rw [hc]; rintro (h | h)
    · exact Bool.false_ne_true (hb.symm.trans h)
    · cases h
  exact if_neg hfree

/-- With no request waiting on either part of slot 78, a programming command asks for PROG there (R436). -/
theorem Dev.askProg_asks (d : Dev) (o : OpenCmd) (h1 : d.slotBusy slotFuse = false) (h2 : d.slotBusy slotSecond = false) :
    d.askProg o = (d.progAsks o.fetch).request (if (d.slot slotFuse).state = .empty then slotFuse else slotSecond)
      { rank := ringRank o.desc.ring.val, prog := 1, span := 4000000, tagged := true } :=
  if_neg (by simp [h1, h2])

/-- FUSE_PROGRAM of a value its row can take, within VPP and temperature, asks for PROG (R437). -/
theorem specFuseProgram_asks (o : OpenCmd) (d : Dev) (v : BitVec 64) (hv : v = BitVec.ofNat 64 (o.desc.num 20 8))
    (h0 : v ≠ 0) (hr : reservedRow o.desc.idx v = false) (ha : (d.fuse.row o.desc.idx).copyA.strays v = false)
    (hb : (d.fuse.row o.desc.idx).copyB.strays v = false) (hp : d.progOk = true) :
    specFuseProgram.begin o d = d.askProg o := by
  subst hv
  exact (if_neg (by simpa [hr] using h0)).trans (if_neg (by simp [ha, hb, hp]))

/-- LIFECYCLE_ADVANCE with the device's serial number, within VPP and temperature, asks for PROG (R430). -/
theorem specAdvance_asks (o : OpenCmd) (d : Dev) (hs : o.desc.num 24 4 = d.serial % 2 ^ 32) (hp : d.progOk = true) :
    specAdvance.begin o d = d.askProg o :=
  (if_neg (by simp [hs])).trans (if_neg (by simp [hp]))

/-- BGE_CONFIGURE for a sweep, with none under way, asks for CORE leave (R53). -/
theorem specBgeConfigure_asksSweep (o : OpenCmd) (d : Dev) (hm : o.desc.byte 20 = 1)
    (hs : (d.slot slotSweep).state = .empty) (hw : d.bge.sweeping = false) :
    specBgeConfigure.begin o d = ({ d with bge := { d.bge with sweepCmd := some o.fetch } } : Dev).request slotSweep
      { rank := ringRank o.desc.ring.val, core := TO_DECL.sweep d, span := 400000, tagged := true } :=
  (if_neg (by omega)).trans (if_neg (by simp [hs, hw]))

/-- Settles O48: each accepted command runs its first stage, by the equation of that stage. -/
theorem commandsThatAskForLeave : Obligations.CommandsThatAskForLeave := by
  intro s c d k rank asks ends
  refine ⟨fun e ha he hg hb => ?commit, fun e ha he => ?pattern, fun e ha he => ?mode,
    fun e e1 n ha he hl h1 hk hn ht hb hc => ?clear, fun e v ha he hv h0 hr hA hB hp h1 h2 => ?program,
    fun e ha he hs hp h1 h2 => ?advance, fun e ha he hm hs hw => ?sweep⟩ <;> subst he
  case commit =>
    exact run_accepted specRulebookCommit c s _ ha (fun _ _ _ _ => rfl)
      (specRulebookCommit_asks (d.opened specRulebookCommit c) _ rfl hg hb)
  case pattern =>
    exact ⟨fun h0 => run_accepted specSetPattern c s _ ha (fun _ _ _ _ => rfl) (Dev.modeStage_moves _ _ h0),
      fun h0 hb => run_accepted specSetPattern c s _ ha (fun _ _ _ _ => rfl) (Dev.modeStage_asks _ _ h0 hb)⟩
  case mode =>
    exact ⟨fun h0 => run_accepted specComparatorMode c s _ ha (fun _ _ _ _ => rfl) (Dev.modeStage_moves _ _ h0),
      fun h0 hb => run_accepted specComparatorMode c s _ ha (fun _ _ _ _ => rfl) (Dev.modeStage_asks _ _ h0 hb)⟩
  case clear =>
    subst h1
    exact run_accepted specRecorderClear c s _ ha (fun _ _ _ _ => rfl)
      (specRecorderClear_asks (d.opened specRecorderClear c) _ n hl hk hn ht hb hc)
  case program =>
    exact run_accepted specFuseProgram c s _ ha (fun _ _ _ _ => rfl)
      ((specFuseProgram_asks (d.opened specFuseProgram c) _ v hv h0 hr hA hB hp).trans (Dev.askProg_asks _ _ h1 h2))
  case advance =>
    exact run_accepted specAdvance c s _ ha (fun _ _ _ _ => rfl)
      ((specAdvance_asks (d.opened specAdvance c) _ hs hp).trans (Dev.askProg_asks _ _ h1 h2))
  case sweep =>
    exact run_accepted specBgeConfigure c s _ ha (fun _ _ _ _ => rfl)
      (specBgeConfigure_asksSweep (d.opened specBgeConfigure c) _ hm hs hw)

end Sys2Proof.Machine
end

section
/-! What the setting and reading commands rest on: frames of a completion, of works done in turn, and of registers that
the trip matrix does not read. -/
namespace Sys2Proof.Machine

/-! ### Works done in turn -/

/-- What no work of a list changes is as it was before them. -/
theorem forAll_keeps {α σ β : Type} (f : α → σ → σ) (p : σ → β) (h : ∀ a s, p (f a s) = p s) (l : List α) (s : σ) :
    p (forAll f l s) = p s := by
  induction l generalizing s with
  | nil => rfl
  | cons a l ih => exact (ih _).trans (h a s)

/-- What every work of a list keeps holds after them. -/
theorem forAll_induction {α σ : Type} (f : α → σ → σ) (P : σ → Prop) (l : List α) (s : σ)
    (h : ∀ a ∈ l, ∀ s, P s → P (f a s)) (hs : P s) : P (forAll f l s) := by
  induction l generalizing s with
  | nil => exact hs
  | cons a l ih =>
    exact ih _ (fun b hb => h b (List.mem_cons_of_mem _ hb)) (h a (List.mem_cons_self ..) s hs)

/-! ### What the watches and the latches look at -/

/-- Two devices alike in what the watches and the trip matrix look at, in the registers and in the Train Register. -/
structure Dev.Alike (d e : Dev) : Prop where
  due : e.due = d.due
  stopAll : e.il.stopAll = d.il.stopAll
  run : e.fuse.run = d.fuse.run
  leaving : e.shelf.leaving = d.shelf.leaving
  queued : e.tt.queued = d.tt.queued
  resuming : e.sup.resuming = d.sup.resuming
  slw : e.il.slw = d.il.slw
  cps : e.cps = d.cps
  drv : e.drv = d.drv
  trip : e.trip = d.trip
  cfg : e.cfg = d.cfg
  tr : e.tr = d.tr

theorem Dev.Alike.refl (d : Dev) : d.Alike d := ⟨rfl, rfl, rfl, rfl, rfl, rfl, rfl, rfl, rfl, rfl, rfl, rfl⟩

theorem Dev.Alike.trans {d e f : Dev} (h : d.Alike e) (k : e.Alike f) : d.Alike f :=
  ⟨k.due.trans h.due, k.stopAll.trans h.stopAll, k.run.trans h.run, k.leaving.trans h.leaving, k.queued.trans h.queued,
    k.resuming.trans h.resuming, k.slw.trans h.slw, k.cps.trans h.cps, k.drv.trans h.drv, k.trip.trans h.trip,
    k.cfg.trans h.cfg, k.tr.trans h.tr⟩

/-- A device alike to a still one is still. -/
theorem Dev.Alike.still {d e : Dev} (h : d.Alike e) (hs : d.still) : e.still :=
  Dev.still_congr d e hs h.due h.stopAll h.run h.leaving h.queued h.resuming h.slw h.cps h.drv h.trip h.cfg

theorem Dev.Alike.symm {d e : Dev} (h : d.Alike e) : e.Alike d :=
  ⟨h.due.symm, h.stopAll.symm, h.run.symm, h.leaving.symm, h.queued.symm, h.resuming.symm, h.slw.symm, h.cps.symm,
    h.drv.symm, h.trip.symm, h.cfg.symm, h.tr.symm⟩

/-- Alike devices have the same room in the Train Register. -/
theorem Dev.Alike.roomFor {d e : Dev} (h : d.Alike e) {n : Nat} (hr : d.roomFor n) : e.roomFor n :=
  Dev.roomFor_congr d e n h.tr h.cfg hr

/-- An event for which there is room, raised in a device alike to a still one, leaves it still. -/
theorem Dev.Alike.still_raise {d e : Dev} (h : d.Alike e) {code cls src a b : Nat} (hs : d.still) (hr : d.roomFor 1) :
    (e.raise code cls src a b).still :=
  Dev.still_raise e code cls src a b (h.still hs) (h.roomFor hr)

/-- Alike devices are still together. -/
theorem Dev.Alike.still_eq {d e : Dev} (h : d.Alike e) : e.still = d.still := propext ⟨h.symm.still, h.still⟩

/-- Works of which each leaves an alike device leave one together. -/
theorem Dev.Alike.forAll {α : Type} (f : α → Dev → Dev) (h : ∀ a (d : Dev), d.Alike (f a d)) (l : List α) (d : Dev) :
    d.Alike (forAll f l d) :=
  forAll_induction f (fun e => d.Alike e) l d (fun a _ e he => he.trans (h a e)) (Dev.Alike.refl d)

/-! ### Registers outside the trip matrix -/

/-- The trip matrix reads its own registers and the DRVFLT settings, between 0x1800 and 0x1FFF, the catch points' sides
and the DRVFLT inputs. -/
theorem Dev.columnsHeld_regs (d e : Dev) (hs : ∀ r, (fileGet e.cps r default).side = (fileGet d.cps r default).side)
    (hd : e.drv = d.drv) (ht : e.trip = d.trip) (hr : ∀ o, 0x1800 ≤ o → o < 0x2000 → e.reg o = d.reg o)
    (h : d.columnsHeld) : e.columnsHeld := by
  rw [Dev.columnsHeld_iff] at *
  intro r hm hdrive
  have hlt : r < 152 := List.mem_range.mp hm
  have hlo : e.reg (FTA_TM_ROW_LO.reg r) = d.reg (FTA_TM_ROW_LO.reg r) :=
    hr _ (by unfold FTA_TM_ROW_LO.reg; omega) (by unfold FTA_TM_ROW_LO.reg; omega)
  have hhi : e.reg (FTA_TM_ROW_HI.reg r) = d.reg (FTA_TM_ROW_HI.reg r) :=
    hr _ (by unfold FTA_TM_ROW_HI.reg; omega) (by unfold FTA_TM_ROW_HI.reg; omega)
  have hdf : e.reg (FTA_DF_CFG.reg (r - 128)) = d.reg (FTA_DF_CFG.reg (r - 128)) :=
    hr _ (by unfold FTA_DF_CFG.reg; omega) (by unfold FTA_DF_CFG.reg; omega)
  have hdrives : e.rowDrives r = d.rowDrives r := by
    simp only [Dev.rowDrives, Dev.inputAsserted, FTA_DF_CFG.en, FTA_DF_CFG.pol, Dev.field, hdf, hs, hd]
  have hcycles : e.rowCycles r = d.rowCycles r := by
    simp only [Dev.rowCycles, FTA_TM_ROW_HI.cycle, Dev.field, hhi]
  have hmask : e.rowMask r = d.rowMask r := by
    simp only [Dev.rowMask, Dev.rowConfigured, Dev.rowRemoved, FTA_TM_ROW_LO.col_lo, FTA_TM_ROW_HI.col_hi, Dev.field,
      hlo, hhi, ht]
  have hlatches : e.rowLatches r = d.rowLatches r := by
    unfold Dev.rowLatches; rw [hcycles, hmask]
  rw [hlatches, ht]
  exact h r hm (hdrives ▸ hdrive)

/-- A register set outside the trip matrix leaves a still device still. -/
theorem Dev.still_setField (d : Dev) (off lo w v : Nat) (ho : off < 0x1800 ∨ 0x2000 ≤ off) (h : d.still) :
    (d.setField off lo w v).still :=
  Dev.still_held d _ h rfl rfl rfl rfl rfl rfl rfl
    (Dev.columnsHeld_regs d _ (fun _ => rfl) rfl rfl
      (fun _ h1 h2 => Dev.reg_setReg_other d off _ _ (by omega)) h.2)

/-- A change of a catch point that keeps its side leaves a still device still. -/
theorem Dev.still_modCp (d : Dev) (n : Nat) (f : CatchPoint → CatchPoint) (hf : ∀ c, (f c).side = c.side) (h : d.still) :
    (d.modCp n f).still := by
  refine Dev.still_held d _ h rfl rfl rfl rfl rfl rfl rfl (Dev.columnsHeld_regs d _ (fun r => ?_) rfl rfl
    (fun _ _ _ => rfl) h.2)
  show (fileGet (fileMod d.cps n f) r default).side = _
  by_cases hn : n < 128
  · by_cases hr : r = n
    · subst hr; rw [fileGet_fileMod_same _ _ _ _ hn]; exact hf _
    · rw [fileGet_fileMod_other _ _ _ _ _ hr]
  · simp [fileMod, hn]

/-! ### What a completion changes -/

/-- `e` is `d` but for the HQI, the ledger and what is sent outward. -/
def Dev.Answered (d e : Dev) : Prop := e = { d with hqi := e.hqi, ledger := e.ledger, out := e.out }

theorem Dev.Answered.refl (d : Dev) : d.Answered d := rfl

theorem Dev.Answered.trans {d e f : Dev} (h : d.Answered e) (k : e.Answered f) : d.Answered f :=
  Eq.trans k (congrArg (fun x : Dev => { x with hqi := f.hqi, ledger := f.ledger, out := f.out }) h)

theorem Dev.answered_message (d : Dev) (v : Nat) : d.Answered (d.message v) := by
  unfold Dev.message; dsimp only; (repeat' split) <;> rfl

theorem Dev.answered_announce (d : Dev) (v : Nat) (u : Bool) : d.Answered (d.announce v u) := by
  unfold Dev.announce
  split
  · exact d.answered_message v
  · split
    · rfl
    · exact (d.answered_message v).trans rfl

theorem Dev.answered_putCompletion (d : Dev) (n w : Nat) (b : List Byte) (a : Bool) :
    d.Answered (d.putCompletion n w b a) := by
  unfold Dev.putCompletion
  dsimp only
  split
  · split
    · refine Dev.Answered.trans ?_ (Dev.answered_announce _ _ _)
      rfl
    · rfl
  · rfl

theorem Dev.answered_postCompletion (d : Dev) (op : Nat) (c : Desc) (r : Bool) (st dn tl : Nat) (rs : List Nat) :
    d.Answered (d.postCompletion op c r st dn tl rs) := by
  unfold Dev.postCompletion
  dsimp only
  split
  · rfl
  · exact d.answered_putCompletion _ _ _ _

/-- The completion of the one staged command changes the HQI, the ledger and what is sent outward. -/
theorem Dev.answered_finish (d : Dev) (k st : Nat) (rs : List Nat)
    (h : d.hqi.staged.filter (fun e => e.fetch != k) = []) : d.Answered (d.finish k st rs) := by
  unfold Dev.finish
  cases d.cmd k with
  | none => exact Dev.Answered.refl d
  | some c =>
    cases he : c.entry with
    | none =>
      simp only [he, Dev.postCompletion_staged]
      rw [if_pos (by rw [h]; rfl)]
      refine Dev.Answered.trans ?_ (Dev.answered_postCompletion _ _ _ _ _ _ _ _)
      rfl
    | some l =>
      simp only [he, Dev.postCompletion_staged]
      rw [if_pos (by rw [Dev.modEntry_hqi]; dsimp only; rw [h]; rfl)]
      refine Dev.Answered.trans ?_ (Dev.answered_postCompletion _ _ _ _ _ _ _ _)
      rfl

/-- So does the commit of stages of the one staged command. -/
theorem Dev.answered_commit (d : Dev) (k n : Nat) (h : d.hqi.staged.length ≤ 1) : d.Answered (d.commit k n) := by
  unfold Dev.commit
  cases d.cmd k with
  | none => exact Dev.Answered.refl d
  | some c =>
    cases he : c.entry <;>
      simp only [he, Dev.modCmd, Dev.modEntry, List.length_map] <;>
      rw [if_neg (by omega)] <;> rfl

/-- So does the last commit with the completion. -/
theorem Dev.answered_commitAll (d : Dev) (k st : Nat) (rs : List Nat) (c : OpenCmd) (h : d.hqi.staged = [c])
    (hk : c.fetch = k) : d.Answered (d.commitAll k st rs) := by
  unfold Dev.commitAll
  cases hc : d.cmd k with
  | none => exact Dev.Answered.refl d
  | some c' =>
    refine (d.answered_commit k c'.total (by simp [h])).trans (Dev.answered_finish _ k st rs ?_)
    rw [Dev.commit_staged, hc]
    simp [h, hk]

theorem Dev.answered_toBuffer (d : Dev) (c : Desc) (b : List Byte) : d.Answered (d.toBuffer c b) := by
  unfold Dev.toBuffer; split <;> rfl

theorem Dev.answered_addEntry (d : Dev) (e : LedgerEntry) : d.Answered (d.addEntry e) := by
  unfold Dev.Answered
  simp only [Dev.addEntry]

theorem Dev.answered_setTotal (d : Dev) (k n : Nat) : d.Answered (d.setTotal k n) := rfl

theorem Dev.answered_setHqi (d : Dev) (h : Hqi) : d.Answered { d with hqi := h } := rfl

/-- The device that has heard a command: the host heartbeat is refreshed (R331). -/
def Dev.heard (d : Dev) : Dev := { d with il := { d.il with hostBeat := d.core.uptime, hostSilent := false } }

/-- A command that begins has been heard, and has its ledger entry and its place in the HQI. -/
theorem Dev.answered_begun (d : Dev) (sp : OpSpec) (c : Desc) : d.heard.Answered (d.begun sp c) := by
  unfold Dev.begun
  dsimp only
  split
  · refine Dev.Answered.trans (e := d.takeOff c.ring.val) rfl ?_
    exact ((Dev.answered_addEntry _ _).trans (Dev.answered_setTotal _ _ _)).trans (Dev.answered_setHqi _ _)
  · rfl

/-! ### Commands of one stage -/

/-- What goes to the host's buffer leaves the HQI alone. -/
@[simp] theorem Dev.toBuffer_hqi (d : Dev) (c : Desc) (b : List Byte) : (d.toBuffer c b).hqi = d.hqi := by
  unfold Dev.toBuffer; split <;> rfl

/-- What goes to the host's buffer leaves a still device still. -/
theorem Dev.still_toBuffer (d : Dev) (c : Desc) (b : List Byte) (h : d.still) : (d.toBuffer c b).still := by
  unfold Dev.toBuffer
  split
  · exact h
  · exact Dev.still_congr d _ h rfl rfl rfl rfl rfl rfl rfl rfl rfl rfl rfl

/-- An admitted command whose one stage leaves the still device `x`, with the command staged, and completes leaves the
state with that device and the completion. -/
theorem run_commits (sp : OpSpec) (c : Desc) (s : State) (x : Dev) (st : Nat) (rs : List Nat)
    (h : s.dev.silent.admits sp c)
    (ht : ∀ (x : Dev) (h : Hqi) (l : List LedgerEntry), sp.total c { x with hqi := h, ledger := l } = sp.total c x)
    (hb : sp.begin (s.dev.silent.opened sp c) (s.dev.silent.begun sp c)
      = x.commitAll (s.dev.silent.opened sp c).fetch st rs)
    (hq : x.hqi.staged = [s.dev.silent.opened sp c]) (hs : x.still) :
    run (fun d => d.fetch sp c) s = .next (s.put (x.commitAll (s.dev.silent.opened sp c).fetch st rs)) :=
  run_admitted sp c s _ h ht hb (Dev.still_commitAll x _ st rs _ hq rfl hs)

end Sys2Proof.Machine
end

section
/-! The setting commands (O12), and what reading and setting commands leave alone (O59). -/
namespace Sys2Proof.Machine

/-! ### THRESHOLD_SET -/

/-- Which way a channel detects rests on the registers alone. -/
theorem Dev.isAbove_congr (d e : Dev) (n : Nat) (h : e.cfg = d.cfg) : e.isAbove n = d.isAbove n := by
  unfold Dev.isAbove FTA_CP_CFG.dir Dev.field Dev.reg; rw [h]

theorem Dev.fsOf_congr (d e : Dev) (n : Nat) (h : e.cfg = d.cfg) : e.fsOf n = d.fsOf n := by
  unfold Dev.fsOf MA_CH_SCALE.fs Dev.field Dev.reg; rw [h]

/-- The code of a physical threshold rests on the registers alone. -/
theorem Dev.thresholdCode_congr (d e : Dev) (n : Nat) (v : Int) (h : e.cfg = d.cfg) :
    e.thresholdCode n v = d.thresholdCode n v := by
  unfold Dev.thresholdCode; rw [Dev.isAbove_congr d e n h, Dev.fsOf_congr d e _ h]

theorem Dev.thresholdValue_congr (d e : Dev) (n code : Nat) (h : e.cfg = d.cfg) :
    e.thresholdValue n code = d.thresholdValue n code := by
  unfold Dev.thresholdValue; rw [Dev.fsOf_congr d e _ h]

/-- The device with the hysteresis and the threshold a THRESHOLD_SET gives; 0xFF leaves the hysteresis. -/
def Dev.withThreshold (d : Dev) (n hyst code : Nat) : Dev :=
  (if hyst = 0xFF then d else d.setField (0x1000 + 4 * n) 26 3 hyst).setThreshold n code

/-- THRESHOLD_SET on a channel of the host's with a code in range sets it, where the hysteresis may change (R79). -/
theorem specThresholdSet_sets (o : OpenCmd) (d : Dev) (hx : o.desc.expert = false)
    (hn : ¬ (96 ≤ o.desc.idx ∧ o.desc.idx ≤ 123)) (h0 : 0 ≤ d.thresholdCode o.desc.idx (o.desc.int 20 4))
    (h1 : d.thresholdCode o.desc.idx (o.desc.int 20 4) ≤ 1023)
    (hh : o.desc.byte 24 = 0xFF ∨ o.desc.byte 24 = FTA_CP_CFG.hyst d o.desc.idx ∨ FTA_CP_CFG.en d o.desc.idx = 0) :
    specThresholdSet.begin o d =
      let z := (d.thresholdCode o.desc.idx (o.desc.int 20 4)).toNat
      (d.withThreshold o.desc.idx (o.desc.byte 24) z).commitAll o.fetch 0
        [z, unsignedOf 32 (d.thresholdValue o.desc.idx z)] := by
  have hg : d.thresholdGiven o.desc = d.thresholdCode o.desc.idx (o.desc.int 20 4) := if_neg (by simp [hx])
  have hfixed : ¬ (o.desc.byte 24 ≠ 0xFF ∧ o.desc.byte 24 ≠ FTA_CP_CFG.hyst d o.desc.idx
      ∧ FTA_CP_CFG.en d o.desc.idx = 1) := by omega
  refine (if_neg (by simpa [thresholdOwned] using hn)).trans ((if_neg ?_).trans ((if_neg hfixed).trans ?_))
  · rw [hg]; omega
  · rw [hg]; rfl

theorem Dev.setThreshold_hqi (d : Dev) (n code : Nat) : (d.setThreshold n code).hqi = d.hqi := by
  unfold Dev.setThreshold; split <;> rfl

theorem Dev.withThreshold_hqi (d : Dev) (n hyst code : Nat) : (d.withThreshold n hyst code).hqi = d.hqi := by
  unfold Dev.withThreshold
  rw [Dev.setThreshold_hqi]
  split <;> rfl

/-- A threshold settles without a change of side, so a still device stays still. -/
theorem Dev.still_setThreshold (d : Dev) (n code : Nat) (hn : n < 128) (h : d.still) : (d.setThreshold n code).still := by
  unfold Dev.setThreshold
  split
  · exact h
  · refine Dev.still_modCp _ n _ (fun _ => rfl) (Dev.still_setField d _ _ _ _ (Or.inl ?_) h)
    unfold FTA_CP_THRESH.reg; omega

theorem Dev.still_withThreshold (d : Dev) (n hyst code : Nat) (hn : n < 128) (h : d.still) :
    (d.withThreshold n hyst code).still := by
  refine Dev.still_setThreshold _ n code hn ?_
  split
  · exact h
  · exact Dev.still_setField d _ _ _ _ (Or.inl (by omega)) h

/-! ### CLEAR_NONCE -/

/-- The four result words of a 16-byte value. -/
theorem specClearNonce_gives (o : OpenCmd) (d : Dev) (h : d.tr.lockEnd ≤ d.core.uptime) :
    specClearNonce.begin o d =
      let n := Config.nonce d.fresh % 2 ^ 128
      ({ d with fresh := d.fresh + 1,
                tr := { d.tr with nonce := some n, nonceEnd := d.core.uptime + 60 * 40000000 } } : Dev).commitAll o.fetch 0
        [n % 2 ^ 32, n / 2 ^ 32 % 2 ^ 32, n / 2 ^ 64 % 2 ^ 32, n / 2 ^ 96 % 2 ^ 32] :=
  if_neg (Nat.not_lt.mpr h)

/-! ### BGE_CONFIGURE with intervals -/

/-- The interval words a BGE_CONFIGURE carries are set. -/
def Dev.withIntervals (d : Dev) (c : Desc) : Dev :=
  forAll (fun p d => d.setField (0x6000 + 4 * p.1) 0 24 p.2) c.intervals d

theorem specBgeConfigure_setsIntervals (o : OpenCmd) (d : Dev) (h : o.desc.byte 20 = 0) :
    specBgeConfigure.begin o d = (d.withIntervals o.desc).commitAll o.fetch 0 [] := if_pos h

/-- The works of an engine are those of Table 18-8. -/
theorem engineWorks_lt (e w : Nat) (h : w ∈ engineWorks e) : w < 7 := by
  unfold engineWorks at h
  split at h
  · simp at h; omega
  · split at h
    · simp at h; omega
    · split at h <;> simp at h; omega

/-- A BGE_CONFIGURE carries intervals of those works alone. -/
theorem Desc.intervals_lt (c : Desc) (p : Nat × Nat) (h : p ∈ c.intervals) : p.1 < 7 := by
  simp only [Desc.intervals, List.mem_filter, List.mem_map] at h
  obtain ⟨⟨j, hj, rfl⟩, -⟩ := h
  have hlt : j < (engineWorks c.idx).length := List.mem_range.mp hj
  refine engineWorks_lt c.idx _ ?_
  show (engineWorks c.idx).getD j 0 ∈ _
  rw [List.getD_eq_getElem _ _ hlt]
  exact List.getElem_mem hlt

/-- Nothing but the registers changes. -/
theorem Dev.withIntervals_rest (d : Dev) (c : Desc) : d.withIntervals c = { d with cfg := (d.withIntervals c).cfg } :=
  forAll_induction _ (fun e : Dev => e = { d with cfg := e.cfg }) c.intervals d
    (fun p _ e he => congrArg (fun x : Dev => { x with cfg := (e.setField (0x6000 + 4 * p.1) 0 24 p.2).cfg }) he) rfl

theorem Dev.still_withIntervals (d : Dev) (c : Desc) (h : d.still) : (d.withIntervals c).still :=
  forAll_induction _ Dev.still c.intervals d (fun _ _ e he => Dev.still_setField e _ _ _ _ (Or.inr (by omega)) he) h

/-- A register that is no interval word keeps its value. -/
theorem Dev.withIntervals_reg (d : Dev) (c : Desc) (off : Nat) (h : ∀ w, w < 8 → off ≠ 0x6000 + 4 * w) :
    (d.withIntervals c).reg off = d.reg off :=
  forAll_induction _ (fun e : Dev => e.reg off = d.reg off) c.intervals d
    (fun p hp e he => (Dev.reg_setReg_other e _ _ off (h p.1 (by have := c.intervals_lt p hp; omega))).trans he) rfl

/-! ### TELEMETRY_STREAM -/

/-- Stream `c.idx` set up as a TELEMETRY_STREAM says, its first frame one period from now (R447). -/
def Dev.withStream (d : Dev) (c : Desc) : Dev :=
  (d.modStream c.idx (fun x =>
    { x with en := c.byte 20 == 1, words := c.byte 21, period := c.num 24 4, due := d.core.uptime + c.num 24 4 * 40,
             list := (indices (c.byte 21)).map (fun j => c.bufWord j / 4) })).beginWork (8 + c.idx)

theorem specTelemetryStream_setsStream (o : OpenCmd) (d : Dev) :
    specTelemetryStream.begin o d = (d.withStream o.desc).commitAll o.fetch 0 [] := rfl

/-- Streams and works of the Background Engines are nothing the watches look at. -/
theorem Dev.withStream_alike (d : Dev) (c : Desc) : d.Alike (d.withStream c) :=
  ⟨rfl, rfl, rfl, rfl, rfl, rfl, rfl, rfl, rfl, rfl, rfl, rfl⟩

/-! ### CALENDAR_SET -/

/-- Writes of the learned data partition leave alone what one such write does. -/
theorem Dev.wroteLearnedTimes_keeps {β : Type} (p : Dev → β) (h : ∀ d : Dev, p d.wroteLearned = p d) (n : Nat) (d : Dev) :
    p (d.wroteLearnedTimes n) = p d := by
  unfold Dev.wroteLearnedTimes
  induction indices n generalizing d with
  | nil => rfl
  | cons a l ih => exact (ih _).trans (h d)

/-- A calendar change with its rewritten deadlines leaves alone what neither a rewritten record nor the writes of MRAM
touch. -/
theorem Dev.rewriteHolds_keeps {β : Type} (p : Dev → β) (hs : ∀ (d : Dev) (m i : Nat), p (d.stored m i) = p d)
    (hw : ∀ d : Dev, p d.wroteLearned = p d) (d : Dev) (k : KeepAlive) :
    p (d.rewriteHolds k) = p { d with
      ka := k, feeds := d.feeds.map (fun x => { x with hold := d.rewriteHold k x.hold }),
      branches := d.branches.map (fun x => { x with hold := d.rewriteHold k x.hold }) } := by
  have hif : ∀ (b : Bool) (x : Dev) (m i : Nat), p (if b = true then x.stored m i else x) = p x := by
    intro b x m i
    cases b
    · rfl
    · exact hs x m i
  unfold Dev.rewriteHolds
  exact (Dev.wroteLearnedTimes_keeps p hw _ _).trans ((forAll_keeps _ p (fun _ _ => hif _ _ _ _) _ _).trans
    (forAll_keeps _ p (fun _ _ => hif _ _ _ _) _ _))

theorem Dev.rewriteHolds_ka (d : Dev) (k : KeepAlive) : (d.rewriteHolds k).ka = k :=
  Dev.rewriteHolds_keeps Dev.ka (fun _ _ _ => rfl) (fun _ => rfl) d k

theorem Dev.rewriteHolds_core (d : Dev) (k : KeepAlive) : (d.rewriteHolds k).core = d.core :=
  Dev.rewriteHolds_keeps Dev.core (fun _ _ _ => rfl) (fun _ => rfl) d k

theorem Dev.rewriteHolds_hqi (d : Dev) (k : KeepAlive) : (d.rewriteHolds k).hqi = d.hqi :=
  Dev.rewriteHolds_keeps Dev.hqi (fun _ _ _ => rfl) (fun _ => rfl) d k

theorem Dev.rewriteHolds_tr (d : Dev) (k : KeepAlive) : (d.rewriteHolds k).tr = d.tr :=
  Dev.rewriteHolds_keeps Dev.tr (fun _ _ _ => rfl) (fun _ => rfl) d k

theorem Dev.rewriteHolds_cfg (d : Dev) (k : KeepAlive) : (d.rewriteHolds k).cfg = d.cfg :=
  Dev.rewriteHolds_keeps Dev.cfg (fun _ _ _ => rfl) (fun _ => rfl) d k

theorem Dev.stored_alike (d : Dev) (m i : Nat) : d.Alike (d.stored m i) :=
  ⟨rfl, rfl, rfl, rfl, rfl, rfl, rfl, rfl, rfl, rfl, rfl, rfl⟩

theorem Dev.wroteLearned_alike (d : Dev) : d.Alike d.wroteLearned :=
  ⟨rfl, rfl, rfl, rfl, rfl, rfl, rfl, rfl, rfl, rfl, rfl, rfl⟩

theorem Dev.rewriteHolds_still (d : Dev) (k : KeepAlive) (h : d.still) : (d.rewriteHolds k).still :=
  (Dev.rewriteHolds_keeps Dev.still (fun x m i => (x.stored_alike m i).still_eq) (fun x => x.wroteLearned_alike.still_eq)
    d k).mpr (Dev.still_congr d _ h rfl rfl rfl rfl rfl rfl rfl rfl rfl rfl rfl)

/-- A record for which there is room leaves a still device still. -/
theorem Dev.still_record (d : Dev) (kept : Bool) (rs : List Draft) (hr : d.roomFor rs.length) (h : d.still) :
    (d.record kept rs).still := by
  rw [Dev.record_roomy d kept rs hr]
  exact Dev.still_congr d _ h rfl rfl rfl rfl rfl rfl rfl rfl rfl rfl rfl

/-- The calendar that waits for its X32 edge once a CALENDAR_SET has loaded the word `w` (R40). -/
def KeepAlive.load (k : KeepAlive) (w : Nat) : KeepAlive :=
  { k with loading := some ⟨w / 2 ^ 30, bitsOf w 15 15, (k.coming.epoch + 1) % 32768, 0⟩ }

/-- The calendar word a CALENDAR_SET of `w` brings. -/
def KeepAlive.loadWord (k : KeepAlive) (w : Nat) : Nat :=
  w / 2 ^ 30 * 2 ^ 30 + bitsOf w 15 15 * 2 ^ 15 + (k.coming.epoch + 1) % 32768

/-- The CALENDAR_SET record of a change to the word `new` (Table 13-3). -/
def calendarDraft (old new up tag : Nat) : Draft :=
  ⟨recCalendar, ⟨new, up⟩, leBytes old 8 ++ leBytes new 8 ++ leBytes tag 2⟩

theorem specCalendarSet_loads (o : OpenCmd) (d : Dev) :
    specCalendarSet.begin o d =
      let w := o.desc.num 20 8
      let old := d.ka.calWord
      let new := d.ka.loadWord w
      ((d.rewriteHolds (d.ka.load w)).record true [calendarDraft old new d.core.uptime o.desc.tag.toNat]).commitAll o.fetch 0
        [old % 2 ^ 32, old / 2 ^ 32, new % 2 ^ 32, new / 2 ^ 32] := by
  have hk : (d.rewriteHolds (d.ka.load (o.desc.num 20 8))).ka.coming.calWord = d.ka.loadWord (o.desc.num 20 8) := by
    rw [Dev.rewriteHolds_ka]; rfl
  have hup : (d.rewriteHolds (d.ka.load (o.desc.num 20 8))).now = d.core.uptime := by
    unfold Dev.now; rw [Dev.rewriteHolds_core]
  have hrec : (d.rewriteHolds (d.ka.load (o.desc.num 20 8))).calendarRecord d.ka.calWord o.desc.tag.toNat =
      (d.rewriteHolds (d.ka.load (o.desc.num 20 8))).record true
        [calendarDraft d.ka.calWord (d.ka.loadWord (o.desc.num 20 8)) d.core.uptime o.desc.tag.toNat] := by
    unfold Dev.calendarRecord calendarDraft; rw [hk, hup]
  dsimp only
  rw [← hrec, ← hk]
  rfl

/-- The device as a CALENDAR_SET leaves it before its completion. -/
theorem Dev.still_calendar (d : Dev) (k : KeepAlive) (x : Draft) (h : d.still) (hr : d.roomFor 1) :
    ((d.rewriteHolds k).record true [x]).still :=
  Dev.still_record _ true [x]
    (Dev.roomFor_congr d _ 1 (Dev.rewriteHolds_tr d k) (Dev.rewriteHolds_cfg d k) hr) (Dev.rewriteHolds_still d k h)

/-! ### The setting commands -/

/-- Settles O12: each admitted command's one stage, which leaves a still device, by its equation. -/
theorem settingCommands : Obligations.SettingCommands := by
  refine ⟨fun s c hs => ?stage, fun s c hs hroom => ?calendar⟩
  case stage =>
    intro d
    have hd : d.still := Dev.still_silent s.dev hs
    refine ⟨?threshold, ?nonce, ?intervals, ?stream⟩
    case threshold =>
      intro ha hn z e h0 h1 hh
      have hcfg : e.cfg = d.cfg := Dev.begun_cfg d _ c
      have hz : e.thresholdCode c.idx (c.int 20 4) = z := Dev.thresholdCode_congr d e _ _ hcfg
      have hhyst : FTA_CP_CFG.hyst e c.idx = FTA_CP_CFG.hyst d c.idx := by
        unfold FTA_CP_CFG.hyst Dev.field Dev.reg; rw [hcfg]
      have hen : FTA_CP_CFG.en e c.idx = FTA_CP_CFG.en d c.idx := by
        unfold FTA_CP_CFG.en Dev.field Dev.reg; rw [hcfg]
      have hidx : c.idx < 128 := ha.2.2.2.2.2.2.1
      have hx : c.expert = false := ha.2.2.1
      refine run_commits specThresholdSet c s (e.withThreshold c.idx (c.byte 24) z.toNat) 0 _ ha (fun _ _ _ => rfl) ?_
        (congrArg Hqi.staged (Dev.withThreshold_hqi e _ _ _))
        (Dev.still_withThreshold e _ _ _ hidx (Dev.still_begun d _ c hd))
      refine (specThresholdSet_sets (d.opened specThresholdSet c) e hx hn ?_ ?_ ?_).trans ?_
      · exact hz ▸ h0
      · exact hz ▸ h1
      · show _ ∨ _ = FTA_CP_CFG.hyst e c.idx ∨ FTA_CP_CFG.en e c.idx = 0
        rw [hhyst, hen]; exact hh
      · show (e.withThreshold c.idx (c.byte 24) (e.thresholdCode c.idx (c.int 20 4)).toNat).commitAll _ 0
          [(e.thresholdCode c.idx (c.int 20 4)).toNat,
            unsignedOf 32 (e.thresholdValue c.idx (e.thresholdCode c.idx (c.int 20 4)).toNat)] = _
        rw [hz, Dev.thresholdValue_congr d e _ _ hcfg]
    case nonce =>
      intro ha hl n e
      have hfresh : e.fresh = d.fresh := Dev.begun_fresh d _ c
      have htr : e.tr = d.tr := Dev.begun_tr d _ c
      have hcore : e.core = d.core := Dev.begun_core d _ c
      refine run_commits specClearNonce c s _ 0 _ ha (fun _ _ _ => rfl) ?_ ?_ ?_
      · refine (specClearNonce_gives (d.opened specClearNonce c) e ?_).trans ?_
        · rw [htr, hcore]; exact hl
        · rw [hfresh, hcore]
      · rfl
      · exact Dev.still_congr e _ (Dev.still_begun d _ c hd) rfl rfl rfl rfl rfl rfl rfl rfl rfl rfl rfl
    case intervals =>
      intro ha hb
      exact run_commits specBgeConfigure c s ((d.begun specBgeConfigure c).withIntervals c) 0 [] ha (fun _ _ _ => rfl)
        (specBgeConfigure_setsIntervals (d.opened specBgeConfigure c) _ hb)
        (congrArg (fun x : Dev => x.hqi.staged) (Dev.withIntervals_rest _ c))
        (Dev.still_withIntervals _ c (Dev.still_begun d _ c hd))
    case stream =>
      intro ha e
      have hcore : e.core = d.core := Dev.begun_core d _ c
      have h := run_commits specTelemetryStream c s (e.withStream c) 0 [] ha (fun _ _ _ => rfl)
        (specTelemetryStream_setsStream (d.opened specTelemetryStream c) e) rfl
        ((Dev.withStream_alike e c).still (Dev.still_begun d _ c hd))
      unfold Dev.withStream at h
      rw [hcore] at h
      exact h
  case calendar =>
    intro d w k old new e ha
    refine ⟨?_, fun n => rfl⟩
    have hd : d.still := Dev.still_silent s.dev hs
    have hka : e.ka = d.ka := Dev.begun_ka d _ c
    have hcore : e.core = d.core := Dev.begun_core d _ c
    have hr : e.roomFor 1 := Dev.roomFor_begun d _ c 1 (Dev.roomFor_congr s.dev d 1 rfl rfl hroom)
    refine run_commits specCalendarSet c s _ 0 _ ha (fun _ _ _ => rfl) ?_ ?_
      (Dev.still_calendar e k _ (Dev.still_begun d _ c hd) hr)
    · refine (specCalendarSet_loads (d.opened specCalendarSet c) e).trans ?_
      rw [hka, hcore]
      rfl
    · rw [Dev.record_hqi, Dev.rewriteHolds_hqi]; rfl

end Sys2Proof.Machine
end

section
/-! What reading and setting commands leave alone (O59). -/
namespace Sys2Proof.Machine

/-! ### The reading commands, by their one stage -/

theorem run_nop (s : State) (c : Desc) (hs : s.dev.silent.still) (ha : s.dev.silent.admits specNop c) :
    exec (.nop c) s = .next (s.put ((s.dev.silent.begun specNop c).finish (s.dev.silent.opened specNop c).fetch 0 [])) :=
  run_admitted specNop c s _ ha (fun _ _ _ => rfl) rfl
    (Dev.still_finish _ _ _ _ (by simp) (Dev.still_begun _ _ _ hs))

/-- A command that writes to the host's buffer and completes. -/
theorem run_writes (sp : OpSpec) (c : Desc) (s : State) (bytes : List Byte) (rs : List Nat) (hs : s.dev.silent.still)
    (ha : s.dev.silent.admits sp c)
    (ht : ∀ (x : Dev) (h : Hqi) (l : List LedgerEntry), sp.total c { x with hqi := h, ledger := l } = sp.total c x)
    (hb : sp.begin (s.dev.silent.opened sp c) (s.dev.silent.begun sp c)
      = ((s.dev.silent.begun sp c).toBuffer c bytes).commitAll (s.dev.silent.opened sp c).fetch 0 rs) :
    run (fun d => d.fetch sp c) s = .next (s.put
      (((s.dev.silent.begun sp c).toBuffer c bytes).commitAll (s.dev.silent.opened sp c).fetch 0 rs)) :=
  run_commits sp c s _ 0 rs ha ht hb (congrArg Hqi.staged (Dev.toBuffer_hqi _ c bytes))
    (Dev.still_toBuffer _ c bytes (Dev.still_begun _ _ _ hs))

/-! ### Frames -/

/-- A set interval, or a set stream, is one also beside another HQI, ledger and output. -/
theorem Dev.Answered.withStream {d e : Dev} (h : d.Answered e) (c : Desc) : (d.withStream c).Answered (e.withStream c) :=
  congrArg (fun x : Dev => x.withStream c) h

theorem Dev.Answered.cfg {d e : Dev} (h : d.Answered e) : e.cfg = d.cfg := Eq.trans (congrArg Dev.cfg h) rfl

theorem Dev.Answered.bge {d e : Dev} (h : d.Answered e) : e.bge = d.bge := Eq.trans (congrArg Dev.bge h) rfl

/-- A set stream changes the streams and works of the Background Engines alone. -/
theorem Dev.withStream_rest (d : Dev) (c : Desc) : d.withStream c = { d with
    bge := { d.bge with streams := (d.withStream c).bge.streams, works := (d.withStream c).bge.works } } := rfl

/-- No other stream is set. -/
theorem Dev.withStream_stream_other (d : Dev) (c : Desc) (j : Nat) (h : j ≠ c.idx) :
    fileGet (d.withStream c).bge.streams j default = fileGet d.bge.streams j default :=
  fileGet_fileMod_other _ _ _ _ _ h

/-- No other work begins anew. -/
theorem Dev.withStream_work_other (d : Dev) (c : Desc) (j : Nat) (h : j ≠ 8 + c.idx) :
    (d.withStream c).work j = d.work j := fileGet_fileMod_other _ _ _ _ _ h

/-- What is left of `d` in a device answered from it with a stream set. -/
theorem Dev.Answered.withStream_frame {d e : Dev} {c : Desc} (h : (d.withStream c).Answered e) : e = { d with
    bge := { d.bge with streams := e.bge.streams, works := e.bge.works },
    hqi := e.hqi, ledger := e.ledger, out := e.out } := by
  have hw := d.withStream_rest c
  rw [← h.bge] at hw
  exact Eq.trans h (congrArg (fun x : Dev => { x with hqi := e.hqi, ledger := e.ledger, out := e.out }) hw)

/-- What is left of `d` in a device answered from one answered from it with intervals set. -/
theorem Dev.Answered.withIntervals_frame {d b e : Dev} {c : Desc} (hb : d.Answered b)
    (h : (b.withIntervals c).Answered e) :
    e = { d with cfg := e.cfg, hqi := e.hqi, ledger := e.ledger, out := e.out } := by
  have hw := b.withIntervals_rest c
  rw [← h.cfg] at hw
  exact (Eq.trans h (congrArg (fun x : Dev => { x with hqi := e.hqi, ledger := e.ledger, out := e.out }) hw)).trans
    (congrArg (fun x : Dev => { x with cfg := e.cfg, hqi := e.hqi, ledger := e.ledger, out := e.out }) hb)

/-- The next state of a command that completes from the device `x` with the command staged. -/
theorem run_commits_answered (sp : OpSpec) (c : Desc) (s t : State) (x : Dev) (rs : List Nat)
    (hq : x.hqi.staged = [s.dev.silent.opened sp c])
    (h : run (fun d => d.fetch sp c) s = .next (s.put (x.commitAll (s.dev.silent.opened sp c).fetch 0 rs)))
    (ht : run (fun d => d.fetch sp c) s = .next t) : ∃ e, t = s.put e ∧ x.Answered e :=
  ⟨_, (Host.Outcome.next.inj (h.symm.trans ht)).symm, Dev.answered_commitAll x _ 0 rs _ hq rfl⟩

/-- NOP answers from the device that has heard it. -/
theorem run_nop_answered (s t : State) (c : Desc) (hs : s.dev.silent.still) (ha : s.dev.silent.admits specNop c)
    (ht : exec (.nop c) s = .next t) : ∃ e, t = s.put e ∧ s.dev.silent.heard.Answered e :=
  ⟨_, (Host.Outcome.next.inj ((run_nop s c hs ha).symm.trans ht)).symm,
    (Dev.answered_begun _ specNop c).trans (Dev.answered_finish _ _ _ _ (by simp))⟩

/-- A command that writes to the host's buffer and completes answers from the device that has heard it. -/
theorem run_writes_answered (sp : OpSpec) (c : Desc) (s t : State) (bytes : List Byte) (rs : List Nat)
    (hs : s.dev.silent.still) (ha : s.dev.silent.admits sp c)
    (htot : ∀ (x : Dev) (h : Hqi) (l : List LedgerEntry), sp.total c { x with hqi := h, ledger := l } = sp.total c x)
    (hb : sp.begin (s.dev.silent.opened sp c) (s.dev.silent.begun sp c)
      = ((s.dev.silent.begun sp c).toBuffer c bytes).commitAll (s.dev.silent.opened sp c).fetch 0 rs)
    (ht : run (fun d => d.fetch sp c) s = .next t) : ∃ e, t = s.put e ∧ s.dev.silent.heard.Answered e := by
  obtain ⟨e, rfl, he⟩ := run_commits_answered sp c s t _ rs (congrArg Hqi.staged (Dev.toBuffer_hqi _ c bytes))
    (run_writes sp c s bytes rs hs ha htot hb) ht
  exact ⟨e, rfl, (Dev.answered_begun s.dev.silent sp c).trans ((Dev.answered_toBuffer _ c bytes).trans he)⟩

/-- Settles O59: each command's completion answers from the device that has heard the command, or from that device with
the one thing it sets. -/
theorem readingAndSettingFrames : Obligations.ReadingAndSettingFrames := by
  intro s t c hstill d beat rest
  have hs : d.still := Dev.still_silent s.dev hstill
  have hreads : (∃ e, t = s.put e ∧ d.heard.Answered e) → rest s.dev := by
    rintro ⟨e, rfl, he⟩
    exact ⟨rfl, he⟩
  refine ⟨fun ha ht => hreads ?nop, fun ha ht => hreads ?snapshot, fun ha ht => hreads ?ledger,
    fun ha ht => hreads ?recorder, fun ha ht => hreads ?fuse, fun ha ht => ?stream, fun ha hb ht => ?intervals⟩
  case nop => exact run_nop_answered s t c hs ha ht
  case snapshot => exact run_writes_answered specStateSnapshot c s t _ _ hs ha (fun _ _ _ => rfl) rfl ht
  case ledger => exact run_writes_answered specLedgerQuery c s t _ _ hs ha (fun _ _ _ => rfl) rfl ht
  case recorder => exact run_writes_answered specRecorderRead c s t _ _ hs ha (fun _ _ _ => rfl) rfl ht
  case fuse => exact run_writes_answered specFuseRead c s t [] _ hs ha (fun _ _ _ => rfl) rfl ht
  case stream =>
    obtain ⟨e, rfl, he⟩ := run_commits_answered specTelemetryStream c s t _ [] rfl
      (run_commits specTelemetryStream c s ((d.begun specTelemetryStream c).withStream c) 0 [] ha (fun _ _ _ => rfl)
        (specTelemetryStream_setsStream (d.opened specTelemetryStream c) _) rfl
        ((Dev.withStream_alike _ c).still (Dev.still_begun d _ c hs))) ht
    have hbge : e.bge = ((d.begun specTelemetryStream c).withStream c).bge := he.bge
    have h := (((Dev.answered_begun d _ c).withStream c).trans he).withStream_frame
    refine ⟨⟨rfl, h⟩, fun j hj => ?_, fun j hj => ?_⟩
    · rw [State.put_dev, hbge, Dev.withStream_stream_other _ c j hj, Dev.begun_bge]
      rfl
    · have hwork := Dev.withStream_work_other (d.begun specTelemetryStream c) c j hj
      unfold Dev.work at hwork ⊢
      rw [State.put_dev, hbge, hwork, Dev.begun_bge]
      rfl
  case intervals =>
    obtain ⟨e, rfl, he⟩ := run_commits_answered specBgeConfigure c s t _ []
      (congrArg (fun x : Dev => x.hqi.staged) (Dev.withIntervals_rest _ c))
      (run_commits specBgeConfigure c s ((d.begun specBgeConfigure c).withIntervals c) 0 [] ha (fun _ _ _ => rfl)
        (specBgeConfigure_setsIntervals (d.opened specBgeConfigure c) _ hb)
        (congrArg (fun x : Dev => x.hqi.staged) (Dev.withIntervals_rest _ c))
        (Dev.still_withIntervals _ c (Dev.still_begun d _ c hs))) ht
    refine ⟨⟨rfl, Dev.Answered.withIntervals_frame (Dev.answered_begun d _ c) he⟩, fun off hoff => ?_⟩
    have hreg := Dev.withIntervals_reg (d.begun specBgeConfigure c) c off hoff
    unfold Dev.reg at hreg ⊢
    rw [State.put_dev, he.cfg, hreg, Dev.begun_cfg]
    rfl

end Sys2Proof.Machine
end

section
/-! Supplies, RESET_N and VBAK (O13). -/
namespace Sys2Proof.Machine

/-- A command whose effect is `e` leaves the state with that device settled. -/
theorem run_settles (f : Dev → Dev) (s : State) (e : Dev) (h : f s.dev.silent = e) :
    run f s = .next (s.put e.settle) :=
  congrArg (fun x : Dev => Host.Outcome.next (s.put x.settle)) h

/-! ### A held core domain -/

theorem Dev.startHeld_starts (d : Dev) (hp : d.core.phase = .held) (hr : d.core.rstIn = false)
    (hs : d.core.supplies.all = true) : d.startHeld = d.coldStart d.core.startKind := if_pos ⟨hp, hr, hs⟩

/-- While RESET_N is asserted a held core domain waits for its release. -/
theorem Dev.startHeld_reset (d : Dev) (hr : d.core.rstIn = true) : d.startHeld = d :=
  if_neg (fun h => Bool.false_ne_true (h.2.1.symm.trans hr))

/-- A held core domain that lacks a supply waits for it. -/
theorem Dev.startHeld_unsupplied (d : Dev) (hs : d.core.supplies.all = false) : d.startHeld = d :=
  if_neg (fun h => Bool.false_ne_true (hs.symm.trans h.2.2))

/-! ### CORE_POWER_ON -/

/-- The low-power state that a power-on leaves: the one entered, or the one whose entry had begun. -/
def KeepAlive.left (k : KeepAlive) : LowPower := if k.leaving = .awake then k.lowPower else k.leaving

/-- The kind of the start that leaves a low-power state (Table 16-7). -/
def LowPower.startKind (p : LowPower) : Nat := if p = .depot then 4 else if p = .stabled then 3 else 0

/-- The device that valid supplies find off, held for its start. -/
def Dev.poweredOn (d : Dev) : Dev := { d with
  tap := if d.core.supplies.vddio then d.tap else tapReset
  core := { d.core with supplies := ⟨true, true, true, true, true⟩, startKind := d.ka.left.startKind, phase := .held }
  ka := { d.ka with pwrEn := d.ka.vbak, pwrHold := false, lowPower := .awake, leaving := .awake,
                    valid := d.ka.valid && d.ka.left != LowPower.depot } }

/-- Valid supplies hold a core domain that was off, with the kind of what it left, and start it where they may. -/
theorem corePowerOn_off (d : Dev) (h : d.core.phase = .off) : corePowerOn d = d.poweredOn.startHeld := by
  have hkind : ∀ p : LowPower, (match p with | .awake => 0 | .stabled => 3 | .depot => 4) = p.startKind := by
    intro p; cases p <;> rfl
  refine (if_neg (not_not.mpr h)).trans (congrArg Dev.startHeld ?_)
  unfold Dev.poweredOn
  rw [← hkind]
  rfl

/-! ### RESET_N, supply failures and VBAK -/

/-- With VBAK the keep-alive domain stores the cause of a shutdown and the calendar word (R45). -/
theorem Dev.storeShutdown_vbak (d : Dev) (cause : Nat) (h : d.ka.vbak = true) :
    d.storeShutdown cause = { d with ka := { d.ka with cause := cause, calDown := d.ka.calWord } } := if_pos h

theorem resetN_runs (torn : Fin 9) (d : Dev) (hr : d.coreRuns = true) (hv : d.ka.vbak = true) :
    resetN torn d = (({ d with
      core := { d.core with rstIn := true, startKind := 1 }
      ka := { d.ka with cause := 2, calDown := d.ka.calWord } } : Dev)).coreStops .held torn.val := by
  refine (if_neg (by simp [hr])).trans ?_
  exact congrArg (fun x : Dev => Dev.coreStops { x with core := { x.core with startKind := 1 } } .held torn.val)
    (Dev.storeShutdown_vbak { d with core := { d.core with rstIn := true } } 2 hv)

/-- A supply failure with no power-fail warning before it stores its cause, 1 (Table 2-4). -/
theorem coreSupplyFail_unwarned (loss : SupplyLoss) (d : Dev) (hr : d.coreRuns = true) (hv : d.ka.vbak = true)
    (hw : d.core.warnedAt = none) :
    coreSupplyFail loss d = ({ d with
      core := { d.core with supplies := d.core.supplies.lose loss.supply }
      ka := { d.ka with cause := 1, calDown := d.ka.calWord } } : Dev).coreStops .off loss.torn.val := by
  have hruns : ({ d with core := { d.core with supplies := d.core.supplies.lose loss.supply } } : Dev).coreRuns = true := hr
  refine Eq.trans ?_ (congrArg (fun x : Dev => x.coreStops .off loss.torn.val)
    (Dev.storeShutdown_vbak { d with core := { d.core with supplies := d.core.supplies.lose loss.supply } } 1 hv))
  refine (if_neg (by rw [hruns]; decide)).trans ?_
  simp only [hw, Bool.false_eq_true, if_false]

/-- VBAK applied after a loss resets the keep-alive domain (R39, R41). -/
theorem vbakApplied_lost (d : Dev) (hv : d.ka.vbak = false) :
    vbakApplied d = { d with ka := { kaReset (Config.x32Vendor (d.fuse.row 16).copyA.nominal.data).toNat with
      x32Ok := d.ka.x32Ok, x32Runs := d.ka.x32Runs } } := if_neg (by simp [hv])

theorem vbakLost_runs (torn : Fin 9) (d : Dev) (hr : d.coreRuns = true) (hv : d.ka.vbak = true) :
    vbakLost torn d =
      let e := d.coreStops .off torn.val
      { e with
        core := { e.core with supplies := ⟨false, false, false, false, false⟩ }
        ka := { kaReset 0 with vbak := false, pwrEn := false, x32Ok := d.ka.x32Ok, x32Runs := d.ka.x32Runs } } := by
  refine (if_neg (by simp [hv])).trans ?_
  rw [if_pos hr]
  rfl

/-- Settles O13: each event's equation in the state of the core domain it names. -/
theorem powerAndReset : Obligations.PowerAndReset := by
  intro s d ends good released
  refine ⟨?powerOn, fun hr hv torn => ?reset, fun hp hs => ?release, fun hp hs => ?lacking, ?vgd,
    fun hr hv hw loss => ?supply, fun hv => ?applied, fun hv hr torn => ?lost⟩
  case powerOn =>
    intro hp low kind e
    have hon : corePowerOn d = e.startHeld := corePowerOn_off d hp
    refine ⟨fun hr => ?_, fun hr => ?_⟩
    · exact run_settles corePowerOn s _ (hon.trans (Dev.startHeld_reset e hr))
    · exact run_settles corePowerOn s _ (hon.trans (Dev.startHeld_starts e rfl hr rfl))
  case reset => exact run_settles (resetN torn) s _ (resetN_runs torn d hr hv)
  case release =>
    exact run_settles resetNRelease s _ (Dev.startHeld_starts released hp rfl (congrArg Supplies.all hs))
  case lacking => exact run_settles resetNRelease s _ (Dev.startHeld_unsupplied released hs)
  case vgd => rfl
  case supply => exact run_settles (coreSupplyFail loss) s _ (coreSupplyFail_unwarned loss d hr hv hw)
  case applied => exact run_settles vbakApplied s _ (vbakApplied_lost d hv)
  case lost => exact run_settles (vbakLost torn) s _ (vbakLost_runs torn d hr hv)

end Sys2Proof.Machine
end

section
/-! Losses of the reference crystals, and the calendar trim (O15). -/
namespace Sys2Proof.Machine

/-- The core domain's time and crystals, the keep-alive domain and the Background Engines are nothing the watches look
at. -/
theorem Dev.alike_domains (d : Dev) (c : CoreDomain) (k : KeepAlive) (b : Background) :
    d.Alike { d with core := c, ka := k, bge := b } :=
  ⟨rfl, rfl, rfl, rfl, rfl, rfl, rfl, rfl, rfl, rfl, rfl, rfl⟩

/-- The passing of time is nothing the watches look at. -/
theorem Dev.pass_alike (d : Dev) (dt : Nat) : d.Alike (d.pass dt) :=
  ⟨rfl, rfl, rfl, rfl, rfl, rfl, rfl, rfl, rfl, rfl, rfl, rfl⟩

theorem Dev.until_alike (d : Dev) (t : Nat) : d.Alike (d.until t) := d.pass_alike _

/-- The works of the Background Engines are nothing the watches look at. -/
theorem Dev.workDone_alike (d : Dev) (i : Nat) : d.Alike (d.workDone i) :=
  ⟨rfl, rfl, rfl, rfl, rfl, rfl, rfl, rfl, rfl, rfl, rfl, rfl⟩

/-! ### Crystals -/

theorem xrefLost_found (d : Dev) (hr : d.coreRuns = true) (hx : d.core.xrefOk = true) :
    xrefLost d = ({ d with
      core := { d.core with xrefGood := false, xrefOk := false }
      bge := { d.bge with lines := d.bge.lines.map (fun x => { x with measuring := false }) } } : Dev).raise
        0x0180 clsB 168 0 0 := if_pos (by simp [hr, hx])

theorem xrefRestored_runs (d : Dev) (hr : d.coreRuns = true) :
    xrefRestored d = { d with core := { d.core with xrefGood := true, xrefOk := true } } := by
  unfold xrefRestored; rw [hr, Bool.or_true]

/-- A loss of X32 acts where X32 was seen to run, or the calendar has become valid since or waits to (R44). -/
theorem x32Lost_found (d : Dev) (hr : d.coreRuns = true)
    (hx : d.ka.x32Ok = true ∨ d.ka.valid = true ∨ d.ka.loading.isSome = true) :
    x32Lost d = ({ d with
      ka := { d.ka with x32Runs := false, x32Ok := false, valid := false, loading := none } } : Dev).raise
        0x0181 clsC 168 0 0 := by
  refine if_pos ?_
  rw [hr]
  rcases hx with h | h | h <;> simp [h]

theorem x32Recovered_idle (d : Dev) (h : d.ka.loading = none) :
    x32Recovered d = { d with ka := { d.ka with x32Runs := true, x32Ok := true } } := by
  unfold x32Recovered KeepAlive.caughtUp; rw [h]

/-- A load that has waited comes into force with the edges of the last second (R40, R44). -/
theorem x32Recovered_loading (d : Dev) (x : CalendarLoad) (h : d.ka.loading = some x) :
    x32Recovered d =
      let k := if x.waited = 0 then d.ka else d.ka.count (min x.waited 40000000 * 64 / 78125)
      { d with ka := { k with x32Runs := true, x32Ok := true } } := by
  unfold x32Recovered KeepAlive.caughtUp; rw [h]; rfl

/-! ### The trim -/

theorem x32MeasurementDone_trims (count : BitVec 32) (d : Dev) (he : d.engineRuns 1 = true) (hx : d.core.xrefOk = true)
    (h32 : d.ka.x32Runs = true) (ha : d.core.autoEn = true) :
    x32MeasurementDone count d = ({ d.untilWork 7 with
      ka := { (d.untilWork 7).ka with
        trim := clampI (-500) 500 (roundDiv ((count.toNat : Int) - 40000000) 40) } } : Dev).workDone 7 :=
  if_pos (by simp [he, hx, h32, ha])

theorem calTrimStep_passes (d : Dev) (ht : d.ka.ticks = true) (h0 : d.ka.trim ≠ 0) :
    calTrimStep d = d.pass d.ka.trimLeft := if_pos (by simp [ht, h0])

/-- The ceiling of a quotient times its divisor reaches the dividend, and by less than the divisor beyond. -/
theorem mul_ceilDiv_bounds (a b : Nat) (hb : 0 < b) : a ≤ b * ceilDiv a b ∧ b * ceilDiv a b < a + b := by
  have h : ceilDiv a b = (a + b - 1) / b := if_neg (by omega)
  have hdiv := Nat.div_add_mod (a + b - 1) b
  have hmod := Nat.mod_lt (a + b - 1) hb
  rw [h]
  omega

/-- The ticks to the next count do not depend on the trim's sign where nothing is left over. -/
theorem KeepAlive.trimLeft_fresh (k : KeepAlive) (h : k.trimRun = 0) :
    k.trimLeft = ceilDiv 1220703125 k.trim.natAbs := by
  unfold KeepAlive.trimLeft trimSpan; rw [h]; simp

/-- With nothing left over, the interval's product passes the span of one count, and not of two (R43). -/
theorem KeepAlive.trimLeft_bounds (k : KeepAlive) (h : k.trimRun = 0) (h0 : k.trim ≠ 0) (hm : k.trim.natAbs ≤ 500) :
    1220703125 ≤ k.trim.natAbs * k.trimLeft ∧ k.trim.natAbs * k.trimLeft < 1220703125 + 500 := by
  rw [k.trimLeft_fresh h]
  obtain ⟨hlo, hhi⟩ := mul_ceilDiv_bounds 1220703125 k.trim.natAbs (Int.natAbs_pos.mpr h0)
  omega

/-- Where nothing is left over, the trim over `dt` ticks moves the calendar by the whole counts of its product. -/
theorem KeepAlive.trimmed_fresh (k : KeepAlive) (dt : Nat) (n : Int) (ht : k.ticks = true) (h : k.trimRun = 0)
    (hn : (k.trim * (dt : Int)).tdiv trimSpan = n) :
    k.trimmed dt = { k.addSub n with trimRun := k.trim * (dt : Int) - n * trimSpan } := by
  subst hn
  refine (if_pos ht).trans ?_
  rw [h, Int.zero_add]

/-- A product of the span of one count and less than that of two is one count. -/
theorem tdiv_trimSpan (p : Nat) (hlo : 1220703125 ≤ p) (hhi : p < 1220703125 + 500) : (p : Int).tdiv trimSpan = 1 := by
  unfold trimSpan
  rw [Int.tdiv_eq_ediv_of_nonneg (Int.natCast_nonneg p)]
  omega

/-- A positive trim adds one subsecond at the end of its interval and keeps what rounding leaves over (R43). -/
theorem KeepAlive.trimmed_add (k : KeepAlive) (ht : k.ticks = true) (h : k.trimRun = 0) (h0 : 0 < k.trim)
    (hm : k.trim ≤ 500) : k.trimmed k.trimLeft =
      { k.addSub 1 with trimRun := k.trim * (k.trimLeft : Int) - 1220703125 } := by
  obtain ⟨hlo, hhi⟩ := k.trimLeft_bounds h (by omega) (by omega)
  have hprod : k.trim * (k.trimLeft : Int) = ((k.trim.natAbs * k.trimLeft : Nat) : Int) := by
    push_cast; rw [abs_of_pos h0]
  have hn : (k.trim * (k.trimLeft : Int)).tdiv trimSpan = 1 := by rw [hprod]; exact tdiv_trimSpan _ hlo hhi
  exact k.trimmed_fresh _ 1 ht h hn

/-- A negative trim drops one subsecond likewise. -/
theorem KeepAlive.trimmed_drop (k : KeepAlive) (ht : k.ticks = true) (h : k.trimRun = 0) (h0 : k.trim < 0)
    (hm : -500 ≤ k.trim) : k.trimmed k.trimLeft =
      { k.addSub (-1) with trimRun := k.trim * (k.trimLeft : Int) + 1220703125 } := by
  obtain ⟨hlo, hhi⟩ := k.trimLeft_bounds h (by omega) (by omega)
  have hprod : k.trim * (k.trimLeft : Int) = -((k.trim.natAbs * k.trimLeft : Nat) : Int) := by
    push_cast; rw [abs_of_neg h0]; ring
  have hn : (k.trim * (k.trimLeft : Int)).tdiv trimSpan = -1 := by
    rw [hprod, Int.neg_tdiv, tdiv_trimSpan _ hlo hhi]
  have hleft : k.trim * (k.trimLeft : Int) - -1 * trimSpan = k.trim * (k.trimLeft : Int) + 1220703125 := by
    unfold trimSpan; omega
  rw [k.trimmed_fresh _ (-1) ht h hn, hleft]

/-- Settles O15: each event's equation, over a device that stays still, and the arithmetic of the trim. -/
theorem referencesAndTrim : Obligations.ReferencesAndTrim := by
  intro s hstill hrun d
  have hs : d.still := Dev.still_silent s.dev hstill
  have hr : d.coreRuns = true := hrun
  refine ⟨fun hx hroom => ?lost, ?restored, fun hx hroom => ?lost32, fun hl => ?idle, fun x hl => ?loading,
    fun he hx h32 ha count => ?measured, fun ht h0 => ?step, fun ht h h0 hm => ?add, fun ht h h0 hm => ?drop⟩
  case lost =>
    exact run_is xrefLost s _ (xrefLost_found d hr hx) ((d.alike_domains _ _ _).still_raise hs hroom)
  case restored => exact run_is xrefRestored s _ (xrefRestored_runs d hr) ((d.alike_domains _ _ _).still hs)
  case lost32 =>
    exact run_is x32Lost s _ (x32Lost_found d hr hx) ((d.alike_domains _ _ _).still_raise hs hroom)
  case idle => exact run_is x32Recovered s _ (x32Recovered_idle d hl) ((d.alike_domains _ _ _).still hs)
  case loading => exact run_is x32Recovered s _ (x32Recovered_loading d x hl) ((d.alike_domains _ _ _).still hs)
  case measured =>
    exact run_is (x32MeasurementDone count) s _ (x32MeasurementDone_trims count d he hx h32 ha)
      ((((d.until_alike _).trans (Dev.alike_domains _ _ _ _)).trans (Dev.workDone_alike _ 7)).still hs)
  case step => exact run_is calTrimStep s _ (calTrimStep_passes d ht h0) ((d.pass_alike _).still hs)
  case add => exact ⟨d.ka.trimLeft_fresh h, d.ka.trimmed_add ht h h0 hm⟩
  case drop => exact ⟨d.ka.trimLeft_fresh h, d.ka.trimmed_drop ht h h0 hm⟩

end Sys2Proof.Machine
end

section
/-! Delay line calibration, and the converters' offset and gain (O16). -/
namespace Sys2Proof.Machine

/-- Delay lines are nothing the watches look at. -/
theorem Dev.modLine_alike (d : Dev) (i : Nat) (f : DelayPair → DelayPair) : d.Alike (d.modLine i f) :=
  d.alike_domains d.core d.ka _

/-- Converters are nothing the watches look at. -/
theorem Dev.modSar_alike (d : Dev) (n : Nat) (f : Sar → Sar) : d.Alike (d.modSar n f) :=
  ⟨rfl, rfl, rfl, rfl, rfl, rfl, rfl, rfl, rfl, rfl, rfl, rfl⟩

theorem delayLineCal_measures (i : Fin 112) (d : Dev) (he : d.engineRuns 1 = true) (hx : d.core.xrefOk = true) :
    delayLineCal i d = (d.until (fileGet d.bge.lines i.val default).work.due).modLine i
      (fun x => { x with measuring := true, swap := false }) := if_pos (by simp [he, hx])

/-- The twin of pair `i` with its measured taps, ready to swap. -/
def Dev.twinMeasured (d : Dev) (i taps : Nat) : Dev :=
  d.modLine i (fun x => { x with twin := taps, measuring := false, swap := true, stale := false,
                                 work := ⟨d.core.uptime, d.core.uptime + BGE_INT.interval d 3 * 40⟩ })

/-- A sample line, which has no period, swaps at once (R36). -/
theorem delayLineMeasured_swaps (i : Fin 112) (taps : BitVec 16) (d : Dev) (he : d.engineRuns 1 = true)
    (hm : (fileGet d.bge.lines i.val default).measuring = true) :
    delayLineMeasured i taps d = if 48 ≤ i.val then (d.twinMeasured i taps.toNat).modLine i DelayPair.swapNow
      else d.twinMeasured i taps.toNat := if_pos (by simp [he, hm])

theorem calStale_raises (i : Fin 112) (d : Dev) (hr : d.coreRuns = true)
    (hs : (fileGet d.bge.lines i.val default).stale = false) :
    calStale i d = ((d.until (fileGet d.bge.lines i.val default).work.lateAt).modLine i
      (fun x => { x with stale := true })).raise 0x0182 clsC 171 (if i.val < 48 then i.val else i.val - 48) 0 :=
  if_pos (by simp [hr, hs])

/-- Converter `n` with the offset and gain measured at the end of its interval. -/
def Dev.calUpdated (d : Dev) (n : Nat) (offset : Int) (gain : Nat) : Dev :=
  let e := d.until (d.sar n).work.due
  e.modSar n (fun c => { c with offset := offset, gain := gain,
                                work := ⟨e.core.uptime, e.core.uptime + BGE_INT.interval e 4 * 40000⟩ })

/-- A converter with a free slot takes them, and the work is over once no converter's is late (R64). -/
theorem converterCalUpdate_updates (n : Fin 48) (offset gain : BitVec 16) (d : Dev) (he : d.engineRuns 1 = true)
    (hf : 0 < d.freeSlots n.val) :
    converterCalUpdate n offset gain d =
      let f := d.calUpdated n.val offset.toInt gain.toNat
      if f.updatable.any (fun m => decide ((f.sar m).work.lateAt ≤ f.core.uptime)) then f else f.workDone 4 :=
  if_pos (by simp [he, hf])

/-- Settles O16: each work's equation, over a device that stays still. -/
theorem delayLinesAndConverterTrim : Obligations.DelayLinesAndConverterTrim := by
  intro s hstill hrun d
  have hs : d.still := Dev.still_silent s.dev hstill
  refine ⟨fun he hx i => ?cal, fun he i taps hm => ?measured, fun hroom i hst => ?stale, fun he n offset gain hf => ?update⟩
  case cal =>
    exact run_is (delayLineCal i) s _ (delayLineCal_measures i d he hx)
      (((d.until_alike _).trans (Dev.modLine_alike _ _ _)).still hs)
  case measured =>
    refine run_is (delayLineMeasured i taps) s _ (delayLineMeasured_swaps i taps d he hm) ?_
    have htwin : d.Alike (d.twinMeasured i taps.toNat) := d.modLine_alike _ _
    split
    · exact (htwin.trans (Dev.modLine_alike _ _ _)).still hs
    · exact htwin.still hs
  case stale =>
    exact run_is (calStale i) s _ (calStale_raises i d hrun hst)
      (((d.until_alike _).trans (Dev.modLine_alike _ _ _)).still_raise hs hroom)
  case update =>
    refine run_is (converterCalUpdate n offset gain) s _ (converterCalUpdate_updates n offset gain d he hf) ?_
    have hcal : d.Alike (d.calUpdated n.val offset.toInt gain.toNat) := (d.until_alike _).trans (Dev.modSar_alike _ _ _)
    split
    · exact hcal.still hs
    · exact (hcal.trans (Dev.workDone_alike _ 4)).still hs

end Sys2Proof.Machine
end

section
/-! The works of the Background Engines (O17). -/
namespace Sys2Proof.Machine

/-! ### Works of which one acts -/

/-- Works that each leave a state as it is leave it so together. -/
theorem forAll_fixed {α σ : Type} (f : α → σ → σ) (l : List α) (s : σ) (h : ∀ a ∈ l, f a s = s) : forAll f l s = s :=
  forAll_induction f (fun t => t = s) l s (fun a ha _ ht => ht ▸ h a ha) rfl

/-- Of works in turn, where one alone changes anything, its change is the whole. -/
theorem forAll_one {α σ : Type} (f : α → σ → σ) (r : α) (l : List α) (s t : σ) (hl : l.Nodup) (hr : r ∈ l)
    (h1 : f r s = t) (hs : ∀ a ∈ l, a ≠ r → f a s = s) (ht : ∀ a ∈ l, a ≠ r → f a t = t) : forAll f l s = t := by
  induction l with
  | nil => exact absurd hr (List.not_mem_nil)
  | cons a l ih =>
    obtain ⟨hnot, hnodup⟩ := List.nodup_cons.mp hl
    by_cases ha : a = r
    · subst ha
      refine (congrArg (forAll f l) h1).trans (forAll_fixed f l t (fun b hb => ht b (List.mem_cons_of_mem _ hb) ?_))
      rintro rfl
      exact hnot hb
    · refine (congrArg (forAll f l) (hs a (List.mem_cons_self ..) ha)).trans (ih hnodup ?_ ?_ ?_)
      · exact (List.mem_cons.mp hr).resolve_left (Ne.symm ha)
      · exact fun b hb => hs b (List.mem_cons_of_mem _ hb)
      · exact fun b hb => ht b (List.mem_cons_of_mem _ hb)

/-! ### Scrubbing -/

/-- No check bits stand inverted where none have been (R47). -/
theorem Dev.flipBits_none (d : Dev) (mem word : Nat) (h : d.il.flips = []) : d.flipBits mem word = 0 := by
  unfold Dev.flipBits; rw [h]; rfl

/-- A sound word changes nothing before the last of a sweep. -/
theorem bge0ScrubWord_sound (mem : BitVec 8) (word : BitVec 24) (src : BitVec 8) (last : Bool) (d : Dev)
    (he : d.engineRuns 0 = true) (hm : memSource mem.toNat src.toNat = true) (hf : d.il.flips = []) :
    bge0ScrubWord mem word .sound src none false last d = if last then d.endScrub mem.toNat else d := by
  simp [bge0ScrubWord, he, hm, d.flipBits_none _ _ hf]

/-- A single-bit error is corrected (R49). -/
theorem bge0ScrubWord_single (mem : BitVec 8) (word : BitVec 24) (src : BitVec 8) (d : Dev)
    (he : d.engineRuns 0 = true) (hm : memSource mem.toNat src.toNat = true) (hf : d.il.flips = []) :
    bge0ScrubWord mem word .single src none false false d = d.corrected mem.toNat word.toNat := by
  simp [bge0ScrubWord, he, hm, d.flipBits_none _ _ hf]

/-- The correction of a word in MRAM is a write of its page (R54). -/
theorem Dev.corrected_eq (d : Dev) (mem word : Nat) : d.corrected mem word =
    (({ d.unflip mem word with
        bge := match memPage mem word with
          | some p => d.bge.countWrite p
          | none => d.bge } : Dev).memCorrected mem word).memStuck mem word := by
  unfold Dev.corrected
  cases memPage mem word <;> rfl

/-- A sweep that no FAULT_RESUME runs ends with its interval (R57). -/
theorem Dev.endScrub_idle (d : Dev) (mem : Nat) (h : d.sup.resuming = none) :
    d.endScrub mem = (d.untilWork (if mem < 0x10 then 0 else 1)).sweepDone mem := by
  unfold Dev.endScrub; rw [h]

theorem Dev.sweepDone_alike (d : Dev) (mem : Nat) : d.Alike (d.sweepDone mem) :=
  (d.alike_domains _ _ _).trans (Dev.workDone_alike _ _)

/-! ### Fuse shadows -/

/-- The bits inverted twice are as they were. -/
theorem FuseRow.flip_flip (x : FuseRow) (m : BitVec 72) : (x.flip m).flip m = x := by
  simp [FuseRow.flip]

/-- Changes of one entry of a file that cancel. -/
theorem fileMod_cancel {α : Type} {n : Nat} (v : Vector α n) (i : Nat) (f : α → α) (h : ∀ x, f (f x) = x) :
    fileMod (fileMod v i f) i f = v := by
  by_cases hi : i < n
  · simp [fileMod, hi, h]
  · simp [fileMod, hi]

/-- Inverted and corrected, the fuse bank is as it was. -/
theorem Dev.modFuseRow_flip_flip (d : Dev) (r : Nat) (m : BitVec 72) :
    (d.modFuseRow r (fun x => x.flip m)).modFuseRow r (fun x => x.flip m) = d := by
  have h := fileMod_cancel d.fuse.rows r (fun x => x.flip m) (fun x => x.flip_flip m)
  exact congrArg (fun v => ({ d with fuse := { d.fuse with rows := v } } : Dev)) h

/-- A row whose shadow stands as loaded takes the inverted bits. -/
theorem Dev.modFuseRow_upset (d : Dev) (r : Fin 64) (m : BitVec 72) (h : (d.fuse.row r).upset = 0) :
    ((d.modFuseRow r (fun x => x.flip m)).fuse.row r).upset = m := by
  have hrow := fileGet_fileMod_same d.fuse.rows r.val (fun x => x.flip m) default r.isLt
  refine (congrArg FuseRow.upset hrow).trans ?_
  show (d.fuse.row r).upset ^^^ m = m
  rw [h]
  exact BitVec.zero_xor

/-- The other rows stay. -/
theorem Dev.modFuseRow_other (d : Dev) (r q : Nat) (f : FuseRow → FuseRow) (h : q ≠ r) :
    (d.modFuseRow r f).fuse.row q = d.fuse.row q := fileGet_fileMod_other d.fuse.rows r q f default h

/-- The rows of the fuse bank are nothing the watches look at. -/
theorem Dev.modFuseRow_alike (d : Dev) (r : Nat) (f : FuseRow → FuseRow) : d.Alike (d.modFuseRow r f) :=
  ⟨rfl, rfl, rfl, rfl, rfl, rfl, rfl, rfl, rfl, rfl, rfl, rfl⟩

theorem checkShadow_sound (r : Nat) (d : Dev) (h : (d.fuse.row r).upset = 0) : checkShadow r d = d := if_pos h

/-- A shadow with one inverted bit is raised and set right (R52). -/
theorem checkShadow_one (r : Nat) (d : Dev) (m : BitVec 72) (h : (d.fuse.row r).upset = m)
    (h1 : popcount 72 m.toNat = 1) :
    checkShadow r d = (d.modFuseRow r (fun x => x.flip m)).raise 0x0186 clsC 174 r 0 := by
  subst h
  have h0 : (d.fuse.row r).upset ≠ 0 := by
    intro h; rw [h] at h1; exact absurd h1 (by decide)
  exact (if_neg h0).trans (by rw [if_pos h1])

/-- A shadow with more inverted bits is raised and stays (R52). -/
theorem checkShadow_more (r : Nat) (d : Dev) (m : BitVec 72) (h : (d.fuse.row r).upset = m)
    (h2 : 2 ≤ popcount 72 m.toNat) : checkShadow r d = d.raise 0x0186 clsC 174 r 0 := by
  subst h
  have h0 : (d.fuse.row r).upset ≠ 0 := by
    intro h; rw [h] at h2; exact absurd h2 (by decide)
  exact (if_neg h0).trans (by rw [if_neg (by omega)])

/-- The check of every shadow, with the bits of one row inverted since the last, is what the check of that row does. -/
theorem fuseShadowCheck_row (r : Fin 64) (m : BitVec 72) (d e : Dev) (he : d.engineRuns 0 = true)
    (h : ∀ q < 64, (d.fuse.row q).upset = 0)
    (hc : checkShadow r.val ((d.untilWork 2).modFuseRow r.val (fun x => x.flip m)) = e)
    (hrest : ∀ q < 64, q ≠ r.val → (e.fuse.row q).upset = 0) :
    fuseShadowCheck [(r, m)] d = e.workDone 2 := by
  refine (if_pos he).trans (congrArg (fun x : Dev => x.workDone 2) ?_)
  refine forAll_one checkShadow r.val _ _ e List.nodup_range (List.mem_range.mpr r.isLt) hc ?_ ?_
  · intro q hq hne
    refine checkShadow_sound q _ ?_
    rw [forAll, forAll, Dev.modFuseRow_other _ _ _ _ hne]
    exact h q (List.mem_range.mp hq)
  · exact fun q hq hne => checkShadow_sound q e (hrest q (List.mem_range.mp hq) hne)

theorem fuseShadowCheck_none (d : Dev) (he : d.engineRuns 0 = true) (h : ∀ q < 64, (d.fuse.row q).upset = 0) :
    fuseShadowCheck [] d = (d.untilWork 2).workDone 2 := by
  refine (if_pos he).trans (congrArg (fun x : Dev => x.workDone 2) ?_)
  exact forAll_fixed checkShadow _ _ (fun q hq => checkShadow_sound q _ (h q (List.mem_range.mp hq)))

/-- One inverted bit in one shadow (R52). -/
theorem fuseShadowCheck_one (r : Fin 64) (m : BitVec 72) (d : Dev) (he : d.engineRuns 0 = true)
    (h : ∀ q < 64, (d.fuse.row q).upset = 0) (h1 : popcount 72 m.toNat = 1) :
    fuseShadowCheck [(r, m)] d = ((d.untilWork 2).raise 0x0186 clsC 174 r.val 0).workDone 2 := by
  refine fuseShadowCheck_row r m d _ he h ?_ (fun q hq _ => ?_)
  · have hup := Dev.modFuseRow_upset (d.untilWork 2) r m (h r.val r.isLt)
    rw [checkShadow_one r.val _ m hup h1, Dev.modFuseRow_flip_flip]
  · rw [Dev.raise_fuse]; exact h q hq

/-- More inverted bits in one shadow (R52). -/
theorem fuseShadowCheck_more (r : Fin 64) (m : BitVec 72) (d : Dev) (he : d.engineRuns 0 = true)
    (h : ∀ q < 64, (d.fuse.row q).upset = 0) (h2 : 2 ≤ popcount 72 m.toNat) :
    fuseShadowCheck [(r, m)] d =
      (((d.untilWork 2).modFuseRow r.val (fun x => x.flip m)).raise 0x0186 clsC 174 r.val 0).workDone 2 := by
  refine fuseShadowCheck_row r m d _ he h ?_ (fun q hq hne => ?_)
  · exact checkShadow_more r.val _ m (Dev.modFuseRow_upset (d.untilWork 2) r m (h r.val r.isLt)) h2
  · rw [Dev.raise_fuse, Dev.modFuseRow_other _ _ _ _ hne]; exact h q hq

/-! ### Readback, wear and late works -/

theorem thresholdReadback_reads (codes : List (BitVec 16)) (d : Dev) (he : d.engineRuns 1 = true) :
    thresholdReadback codes d = (forAll (readbackOne codes) (indices 128) (d.untilWork 5)).workDone 5 := if_pos he

theorem wearCommit_commits (d : Dev) (he : d.engineRuns 2 = true) :
    wearCommit d =
      let e := (d.untilWork 6).commitWear.workDone 6
      { e with bge := { e.bge with sweptAt := fileMod e.bge.sweptAt 2 (fun _ => e.core.uptime) } } := if_pos he

/-- A page whose copy has ended is replaced by its spare (R55). -/
theorem pageRetireDone_moves (page : BitVec 8) (d : Dev) (he : d.engineRuns 2 = true)
    (hp : page.toNat ∈ d.bge.retiring) (hs : 0 < d.bge.spares) :
    pageRetireDone page d = { d with
      bge := (({ d.bge with
        retiring := d.bge.retiring.filter (· != page.toNat)
        spares := d.bge.spares - 1
        moved := (page.toNat, 0xE8 + (16 - d.bge.spares)) :: d.bge.moved.filter (fun q => q.1 != page.toNat) } :
          Background).countWrite 0xE0).countWrite page.toNat } :=
  (if_pos (by simp [he, hp])).trans (if_neg (Nat.ne_of_gt hs))

/-- The second word of a BGE_LATE is the work's index (R58). -/
theorem bgeLate_raises (w : Fin 16) (d : Dev) (hr : d.coreRuns = true) (hw : d.workWatched w = true)
    (hl : bitOf d.bge.late w = false) :
    bgeLate w d =
      let e := d.until (d.workLateAt w)
      ({ e with bge := { e.bge with late := putBit e.bge.late w true } } : Dev).raise
        0x0189 clsC (170 + workEngine w) (workEngine w) (if w.val < 7 then w.val else Config.coding 0x0189 w % 2 ^ 32) :=
  if_neg (by simp [hr, hw, hl])

/-- Settles O17: each work's equation; what is no event and commits nothing leaves the device still. -/
theorem backgroundEngines : Obligations.BackgroundEngines := by
  intro s hstill d
  have hs : d.still := Dev.still_silent s.dev hstill
  have hidle : d.sup.resuming = none := by
    obtain ⟨⟨_, _, _, _, _, hresuming, _⟩, _⟩ := hs
    exact hresuming
  refine ⟨fun he mem word src hm hf => ⟨?sound, ?last, ?single⟩,
    fun he h => ⟨?checked, fun hroom r m => ⟨fun h1 => ?one, fun h2 => ?more⟩⟩,
    fun he codes => ?readback, fun he => ?wear, fun he page hp hsp => ?retire, fun hr hroom w hw hl => ?late⟩
  case sound =>
    exact run_is (bge0ScrubWord mem word .sound src none false false) s _
      (bge0ScrubWord_sound mem word src false d he hm hf) hs
  case last =>
    exact run_is (bge0ScrubWord mem word .sound src none false true) s _
      ((bge0ScrubWord_sound mem word src true d he hm hf).trans (d.endScrub_idle _ hidle))
      (((d.until_alike _).trans (Dev.sweepDone_alike _ _)).still hs)
  case single =>
    exact run_settles (bge0ScrubWord mem word .single src none false false) s _
      ((bge0ScrubWord_single mem word src d he hm hf).trans (d.corrected_eq _ _))
  case checked =>
    exact run_is (fuseShadowCheck []) s _ (fuseShadowCheck_none d he h)
      (((d.until_alike _).trans (Dev.workDone_alike _ 2)).still hs)
  case one =>
    exact run_is (fuseShadowCheck [(r, m)]) s _ (fuseShadowCheck_one r m d he h h1)
      ((Dev.workDone_alike _ 2).still ((d.until_alike _).still_raise hs hroom))
  case more =>
    exact run_is (fuseShadowCheck [(r, m)]) s _ (fuseShadowCheck_more r m d he h h2)
      ((Dev.workDone_alike _ 2).still (((d.until_alike _).trans (Dev.modFuseRow_alike _ _ _)).still_raise hs hroom))
  case readback => exact run_settles (thresholdReadback codes) s _ (thresholdReadback_reads codes d he)
  case wear => exact run_settles wearCommit s _ (wearCommit_commits d he)
  case retire =>
    exact run_is (pageRetireDone page) s _ (pageRetireDone_moves page d he hp hsp) ((d.alike_domains _ _ _).still hs)
  case late =>
    exact run_is (bgeLate w) s _ (bgeLate_raises w d hr hw hl)
      (((d.until_alike _).trans (Dev.alike_domains _ _ _ _)).still_raise hs hroom)

end Sys2Proof.Machine
end

section
/-! Pace windows and stalled handshakes (O18). -/
namespace Sys2Proof.Machine

/-! ### Pace windows -/

/-- An entry of a resource file by an index within it. -/
theorem fileGet_fin {α : Type} {n : Nat} (v : Vector α n) (i : Fin n) (dflt : α) : fileGet v i.val dflt = v[i] := by
  simp [fileGet]

/-- A lane's Pace after a window; one busy for less than 40 ticks keeps its own (R28). -/
def Dev.windowPace (d : Dev) (ops ticks : Vector (BitVec 16) 6) : Vector Nat 6 :=
  Vector.ofFn (fun (l : Fin 6) =>
    if ticks[l].toNat < 40 then d.core.pace[l] else held 0xFFFF (ops[l].toNat * 40 / ticks[l].toNat))

/-- The sum of `f` over the scheduled lanes. -/
def Dev.laneSum (d : Dev) (f : Nat → Nat) : Nat := (d.scheduledLanes.map f).foldl (· + ·) 0

/-- The window's aggregate is below a floor that is set (R31). -/
abbrev Dev.paceBelow (d : Dev) (agg : Nat) : Prop := ELE_PACE.pace_floor d ≠ 0 ∧ agg < ELE_PACE.pace_floor d

/-- The device after a Pace window, but for the event. -/
def Dev.paced (d : Dev) (ops ticks : Vector (BitVec 16) 6) : Dev :=
  let agg := d.laneSum (fun l => fileGet (d.windowPace ops ticks) l 0)
  let load := d.laneSum (fun l => (fileGet ticks l 0).toNat)
  let span := 400 * d.scheduledLanes.length
  { d with
    core := { d.core with
      pace := d.windowPace ops ticks
      busy := Vector.ofFn (fun (l : Fin 6) => held 255 (256 * ticks[l].toNat / 400))
      aggregate := agg
      lowest := some (min agg (d.core.lowest.getD agg))
      paceLow := d.core.paceLow || decide (d.paceBelow agg)
      paceAbove := if ELE_PACE.pace_floor d < agg then held 100 (d.core.paceAbove + 1) else 0 }
    sup := { d.sup with
      highSince := sinceWhen d.core.uptime d.sup.highSince (decide (ELE_OVR_CFG.ovr_high d * span < 256 * load))
      lowSince := sinceWhen d.core.uptime d.sup.lowSince (decide (256 * load < ELE_OVR_CFG.ovr_low d * span)) } }

theorem Dev.paced_alike (d : Dev) (ops ticks : Vector (BitVec 16) 6) : d.Alike (d.paced ops ticks) :=
  ⟨rfl, rfl, rfl, rfl, rfl, rfl, rfl, rfl, rfl, rfl, rfl, rfl⟩

/-- The first window below the floor raises the low Pace (R31). -/
theorem paceWindow_paces (ops ticks : Vector (BitVec 16) 6) (d : Dev) (hr : d.coreRuns = true) :
    paceWindow ops ticks d =
      if d.paceBelow (d.laneSum (fun l => fileGet (d.windowPace ops ticks) l 0)) ∧ d.core.paceLow = false then
        (d.paced ops ticks).raise 0x011B clsC 22 0 0
      else d.paced ops ticks := by
  have hlow : ∀ agg, (ELE_PACE.pace_floor d != 0 && decide (agg < ELE_PACE.pace_floor d)) = decide (d.paceBelow agg) := by
    intro agg; rw [Bool.eq_iff_iff]; simp
  unfold paceWindow
  simp only [hr, Bool.not_true, Bool.false_eq_true, if_false, fileGet_fin, hlow]
  simp only [Bool.and_eq_true, decide_eq_true_eq, Bool.not_eq_true']
  rfl

theorem paceLowClear_clears (d : Dev) (hr : d.coreRuns = true) (hl : d.core.paceLow = true) (ha : 100 ≤ d.core.paceAbove) :
    paceLowClear d = { d with core := { d.core with paceLow := false } } := if_pos (by simp [hr, hl, ha])

/-! ### Stalled handshakes -/

/-- A target is an address in BAR0, of 24 bits. -/
theorem detAddr_target (target : BitVec 24) : detAddr 0 target.toNat = target.toNat := by
  unfold detAddr; rw [Nat.mod_eq_of_lt target.isLt]; omega

section
variable (m : BitVec 8) (access : Fin 5) (target : BitVec 24) (reaction : Bool) (d : Dev)

/-- The detection of a stalled handshake, from event source `src` (Table 12-5). -/
def stallOf (src : Nat) : Detection := det 0x40 src m.toNat access.val target.toNat

/-- A stalled lane owes its own action (R26). -/
theorem coreStall_lane (hr : d.coreRuns = true) (hm : m.toNat ∈ stallMasters) (h1 : 0x10 ≤ m.toNat) (h2 : m.toNat ≤ 0x15) :
    coreStall m access target reaction d =
      (d.reportIn (stallOf m access target m.toNat) reaction).owe (.laneStall (m.toNat - 0x10)) := by
  simp [coreStall, hr, hm, h1, h2, detAddr_target, stallOf]

/-- The stall of another master comes from event source 160, and a Background Engine's may owe its own action. -/
theorem coreStall_other (hr : d.coreRuns = true) (hm : m.toNat ∈ stallMasters) (h : m.toNat < 0x10 ∨ 0x15 < m.toNat) :
    coreStall m access target reaction d =
      let x := stallOf m access target 160
      let e := d.reportIn x reaction
      if reaction ∧ d.newestFault.isSome = true then e
      else if 0x20 ≤ m.toNat ∧ m.toNat ≤ 0x23 ∧ d.isInjected x = false then e.owe (.engineStall (m.toNat - 0x20))
      else e := by
  have hlane : (decide (0x10 ≤ m.toNat) && decide (m.toNat ≤ 0x15)) = false := by
    rw [← Bool.decide_and]; exact decide_eq_false (by omega)
  simp only [coreStall, hr, List.contains_iff_mem.mpr hm, hlane, detAddr_target, stallOf, Bool.not_true, Bool.or_self,
    Bool.false_eq_true, if_false]
  rfl

end

/-- Nothing is injected where no injection is under observation (R337). -/
theorem Dev.isInjected_none (d : Dev) (x : Detection) (h : d.il.watched = []) : d.isInjected x = false := by
  unfold Dev.isInjected; rw [h]; rfl

/-- Settles O18: the Pace window leaves the device still, and each stall reports before what it owes. -/
theorem paceAndStalls : Obligations.PaceAndStalls := by
  intro s hrun d
  have hr : d.coreRuns = true := hrun
  refine ⟨fun hstill hroom ops ticks => ?window, fun hstill hl ha => ?clear,
    fun m access target reaction hm => ⟨fun h1 h2 => ?lane, fun h hre hf => ?joins, fun h1 h2 hw hre => ?engine,
      fun h hre => ?rest⟩⟩
  case window =>
    have hs : d.still := Dev.still_silent s.dev hstill
    refine run_is (paceWindow ops ticks) s _ (paceWindow_paces ops ticks d hr) ?_
    split
    · exact (d.paced_alike ops ticks).still_raise hs hroom
    · exact (d.paced_alike ops ticks).still hs
  case clear =>
    exact run_is paceLowClear s _ (paceLowClear_clears d hr hl ha)
      ((d.alike_domains _ _ _).still (Dev.still_silent s.dev hstill))
  case lane =>
    exact run_settles (coreStall m access target reaction) s _
      (coreStall_lane m access target reaction d hr hm h1 h2)
  case joins =>
    subst hre
    exact run_settles (coreStall m access target true) s _
      ((coreStall_other m access target true d hr hm h).trans (if_pos ⟨rfl, hf⟩))
  case engine =>
    subst hre
    refine run_settles (coreStall m access target false) s _
      ((coreStall_other m access target false d hr hm (by omega)).trans ?_)
    exact (if_neg (by simp)).trans (if_pos ⟨h1, h2, d.isInjected_none _ hw⟩)
  case rest =>
    subst hre
    refine run_settles (coreStall m access target false) s _
      ((coreStall_other m access target false d hr hm (by omega)).trans ?_)
    exact (if_neg (by simp)).trans (if_neg (by omega))

end Sys2Proof.Machine
end

section
/-! Telemetry frames (O19). -/
namespace Sys2Proof.Machine

/-- What is sent outward and the HQI are nothing the watches look at. -/
theorem Dev.Answered.alike {d e : Dev} (h : d.Answered e) : d.Alike e := by
  have he : e = { d with hqi := e.hqi, ledger := e.ledger, out := e.out } := h
  rw [he]
  exact ⟨rfl, rfl, rfl, rfl, rfl, rfl, rfl, rfl, rfl, rfl, rfl, rfl⟩

/-- Telemetry streams are nothing the watches look at. -/
theorem Dev.modStream_alike (d : Dev) (j : Nat) (f : Stream → Stream) : d.Alike (d.modStream j f) :=
  d.alike_domains d.core d.ka _

/-- At the end of the period a frame is read; one not yet written is dropped (R46, R447). -/
theorem telemetryFrameDue_reads (j : Fin 8) (d : Dev) (he : d.engineRuns 3 = true) (hen : (d.stream j).en = true) :
    telemetryFrameDue j d =
      let x := d.stream j
      let y := { x with due := x.due + x.period * 40, drops := x.drops + flag x.ready.isSome }
      (d.until x.due).modStream j (fun _ =>
        { y with frames := (x.frames + 1) % 2 ^ 16, ready := some ((d.until x.due).frameBody j y) }) :=
  if_pos (by simp [he, hen])

/-- The device that has written a frame to the ring of stream `j` (R374). -/
def Dev.frameSent (d : Dev) (j : Fin 8) (body : List Byte) : Dev :=
  let r := ringTQ (j.val / 4)
  (d.writeEntry r (leNat (body.take 2)) (body.drop 2)).announce (d.ring r).vec false

/-- The stream's work is done once its frame is written. -/
def Dev.frameWritten (d : Dev) (j : Fin 8) (body : List Byte) : Dev :=
  let e := ((d.frameSent j body).modStream j (fun x => { x with ready := none })).workDone (8 + j.val)
  { e with bge := { e.bge with sweptAt := fileMod e.bge.sweptAt 3 (fun _ => d.core.uptime) } }

theorem Dev.frameSent_alike (d : Dev) (j : Fin 8) (body : List Byte) : d.Alike (d.frameSent j body) := by
  have hentry : d.Answered (d.writeEntry (ringTQ (j.val / 4)) (leNat (body.take 2)) (body.drop 2)) := rfl
  exact (hentry.trans (Dev.answered_announce _ _ _)).alike

theorem Dev.frameWritten_alike (d : Dev) (j : Fin 8) (body : List Byte) : d.Alike (d.frameWritten j body) := by
  have hstream := Dev.modStream_alike (d.frameSent j body) j (fun x => { x with ready := none })
  have hwork := Dev.workDone_alike ((d.frameSent j body).modStream j (fun x => { x with ready := none })) (8 + j.val)
  exact (((d.frameSent_alike j body).trans hstream).trans hwork).trans (Dev.alike_domains _ _ _ _)

/-- A frame that has been read goes to its ring, or is dropped where there is no room (R48, R374). -/
theorem telemetryWriteStart_ready (j : Fin 8) (d : Dev) (body : List Byte) (he : d.engineRuns 3 = true)
    (hb : (d.stream j).ready = some body) (h3 : d.hqi.d3hot = false) :
    telemetryWriteStart j d =
      if (d.ring (ringTQ (j.val / 4))).room then d.frameWritten j body
      else d.modStream j (fun x => { x with ready := none, drops := x.drops + 1 }) := by
  unfold telemetryWriteStart
  simp only [hb]
  exact if_neg (by simp [he, h3])

/-- Settles O19: a frame's reading, its write and its drop, none of which the watches look at. -/
theorem telemetryFrames : Obligations.TelemetryFrames := by
  intro s j hstill d x he
  have hs : d.still := Dev.still_silent s.dev hstill
  refine ⟨fun hen => ?due, fun body hb h3 => ⟨fun hroom => ?written, fun hroom => ?dropped⟩⟩
  case due =>
    exact run_is (telemetryFrameDue j) s _ (telemetryFrameDue_reads j d he hen)
      (((d.until_alike _).trans (Dev.modStream_alike _ _ _)).still hs)
  case written =>
    exact run_is (telemetryWriteStart j) s _ ((telemetryWriteStart_ready j d body he hb h3).trans (if_pos hroom))
      ((d.frameWritten_alike j body).still hs)
  case dropped =>
    exact run_is (telemetryWriteStart j) s _
      ((telemetryWriteStart_ready j d body he hb h3).trans (if_neg (by simp [hroom])))
      ((d.modStream_alike _ _).still hs)

end Sys2Proof.Machine
end

section
/-! Housekeeping conversions, coulomb intervals and calibration sweeps (O22). -/
namespace Sys2Proof.Machine

/-! ### Housekeeping conversions -/

/-- The device a microsecond later, at the next position of the housekeeping frame (R73). -/
def Dev.hkMoved (d : Dev) : Dev :=
  let e := d.until (d.house.doneAt + 40)
  { e with house :=
    { d.house with position := (d.house.position + 1) % 64, entry := d.hkUse.2, doneAt := e.core.uptime } }

/-- A position of an input gives its code to the input's users (R73). -/
theorem hkConversion_input (h : BitVec 16) (readback : Bool) (i : Nat) (d : Dev) (hr : d.coreRuns = true)
    (hu : d.hkUse.1 = .input i) : hkConversion h readback d = d.hkMoved.hkTake i h.toNat := by
  refine (if_neg (by simp [hr])).trans ?_
  dsimp only
  rw [hu]
  rfl

/-- A position of BGE1 spent on a readback stores the code of input 95 (R95). -/
theorem hkConversion_readback (h : BitVec 16) (d : Dev) (hr : d.coreRuns = true) (hu : d.hkUse.1 = .background) :
    hkConversion h true d = d.hkMoved.hkStore 95 h.toNat := by
  refine (if_neg (by simp [hr])).trans ?_
  dsimp only
  rw [hu]
  rfl

/-! ### Coulomb intervals -/

/-- The charge that a coulomb interval of string `j` moves, with the uncertainty that grows with it (R250, R255). -/
def Dev.counted (d : Dev) (j : Fin 4) (z : Int) : Counted :=
  let ms := intervalMs d.ccs[j].ivl
  let dq := -(z * (ms : Int) * (BSM_STR_CC.fs_cc d j.val : Int))
  ⟨dq, (dq.natAbs * BSM_STR_UNC.gain_err d j.val : Nat) + ((d.str j.val).ofs * ms * 2 ^ 23 : Nat) *
    (BSM_STR_CC.fs_cc d j.val : Int), ms⟩

/-- The result of a coulomb counter with the sign of its string (R240). -/
def Dev.ccSigned (d : Dev) (j : Fin 4) (x : BitVec 24) : Int :=
  if BSM_STR_CFG.cc_pol d j.val = 1 then -x.toInt else x.toInt

/-- The device with the counter's result, and the shelf's charge moved where one is counted. -/
def Dev.ccTaken (d : Dev) (j : Fin 4) (z : Int) : Dev := { d with
  shelf := if d.shelf.since.isSome then { d.shelf with charge := d.shelf.charge - (d.counted j z).dq } else d.shelf
  ccs := fileMod d.ccs j.val (fun c => { c with result := z, count := c.count + 1, ivl := MA_CC_CFG.dec d j.val }) }

/-- A coulomb interval ends with its result, and is counted (R71, R250). -/
theorem ccResult_ends (j : Fin 4) (x : BitVec 24) (d : Dev) (hr : d.coreRuns = true) :
    ccResult j x d = ((d.ccTaken j (d.ccSigned j x)).chooseDec j.val
      (d.ccSigned j x * (BSM_STR_CC.fs_cc d j.val : Int))).strInterval j.val (d.counted j (d.ccSigned j x)) := by
  refine (if_neg (by simp [hr])).trans ?_
  unfold Dev.ccTaken Dev.counted Dev.ccSigned
  cases d.shelf.since <;> simp [fileGet_fin]

/-- Settles O22: each conversion's equation; a sweep ends with the converters' trim, at a start with its last steps. -/
theorem housekeepingCoulombsAndSweeps : Obligations.HousekeepingCoulombsAndSweeps := by
  intro s hrun d ends
  have hr : d.coreRuns = true := hrun
  have hsweep : ∀ cal, d.bge.sweeping = true → calibrationSweepDone cal d =
      if d.core.phase = .sweeping then (d.endSweep cal).finishStart else d.endSweep cal :=
    fun cal hb => if_neg (by simp [hr, hb])
  refine ⟨fun h readback i hu => ?input, fun h hu => ?readback, fun j x => ?coulomb, fun cal hb hp => ?running,
    fun cal hb hp => ?start⟩
  case input => exact run_settles (hkConversion h readback) s _ (hkConversion_input h readback i d hr hu)
  case readback => exact run_settles (hkConversion h true) s _ (hkConversion_readback h d hr hu)
  case coulomb =>
    exact run_settles (ccResult j x) s _ (ccResult_ends j x d hr)
  case running =>
    exact run_settles (calibrationSweepDone cal) s _ ((hsweep cal hb).trans (if_neg (by simp [hp])))
  case start => exact run_settles (calibrationSweepDone cal) s _ ((hsweep cal hb).trans (if_pos hp))

end Sys2Proof.Machine
end

section
/-! Driven columns over every step (O52). -/
namespace Sys2Proof.Machine

/-- A word takes in a mask exactly where it has each of the mask's bits. -/
theorem lor_eq_self_iff (l m : Nat) : Nat.lor l m = l ↔ ∀ i, m.testBit i = true → l.testBit i = true := by
  have hor : Nat.lor l m = l ||| m := rfl
  rw [hor, Nat.eq_iff_testBit_eq]
  refine forall_congr' fun i => ?_
  rw [Nat.testBit_or]
  cases l.testBit i <;> cases m.testBit i <;> simp

/-- Held columns, column by column. -/
theorem Dev.columnsHeld_iff_testBit (d : Dev) : d.columnsHeld ↔ ∀ r, r < 152 → d.rowDrives r = true →
    ∀ col, (d.rowLatches r).testBit col = true → d.trip.latches.testBit col = true := by
  simp only [Dev.columnsHeld_iff, lor_eq_self_iff, indices, List.mem_range]

/-- Every arm of the dispatch is one effect on the device, run. -/
theorem exec_runs (i : Instr) (s : State) : ∃ f : Dev → Dev, exec i s = run f s := by
  cases i <;> exact ⟨_, rfl⟩

/-- A tick leaves held columns held. -/
theorem State.idle_columnsHeld (s : State) (h : s.dev.columnsHeld) : s.idle.dev.columnsHeld :=
  Dev.columnsHeld_congr s.dev _ rfl rfl rfl rfl h

/-- Every step has a next state, and leaves held columns held: a command settles, and a tick moves time alone. -/
theorem step_columnsHeld (s : State) (h : s.dev.columnsHeld) : ∃ t, step s = .next t ∧ t.dev.columnsHeld := by
  unfold step
  cases s.pending with
  | nil => exact ⟨s.idle, rfl, s.idle_columnsHeld h⟩
  | cons c rest =>
    obtain ⟨f, hf⟩ := exec_runs c { s with pending := rest }
    exact ⟨_, hf, Dev.settle_columnsHeld _⟩

/-- Settles O52: what has settled holds its driven columns, and a tick changes nothing that drives or latches. -/
theorem everyStepHoldsDrivenColumns : Obligations.EveryStepHoldsDrivenColumns := by
  intro s h
  obtain ⟨t, ht, hheld⟩ := step_columnsHeld s ((Dev.columnsHeld_iff_testBit s.dev).mpr h)
  exact ⟨t, ht, (Dev.columnsHeld_iff_testBit t.dev).mp hheld⟩

end Sys2Proof.Machine
end

section
/-! Catch points and DRVFLT inputs (O20). -/
namespace Sys2Proof.Machine

/-! ### Changes of one catch point -/

/-- Two changes of one entry of a resource file are one change. -/
theorem fileMod_fileMod {α : Type} {n : Nat} (v : Vector α n) (i : Nat) (f g : α → α) :
    fileMod (fileMod v i f) i g = fileMod v i (fun x => g (f x)) := by
  by_cases h : i < n <;> simp [fileMod, h]

/-- Two changes of one catch point are one change. -/
theorem Dev.modCp_modCp (d : Dev) (n : Nat) (f g : CatchPoint → CatchPoint) :
    (d.modCp n f).modCp n g = d.modCp n (fun c => g (f c)) :=
  congrArg (fun v => { d with cps := v }) (fileMod_fileMod d.cps n f g)

/-- A catch point that is changed. -/
theorem Dev.cp_modCp (d : Dev) (n : Fin 128) (f : CatchPoint → CatchPoint) : (d.modCp n f).cp n = f (d.cp n) :=
  fileGet_fileMod_same d.cps n f default n.isLt

/-! ### The side of a channel (Table 3-12) -/

/-- An input beyond the band on the good side decides for the good side, unless the channel is off. -/
theorem Dev.decideSide_beyond (d : Dev) (n : Nat) (h : (d.cp n).side ≠ .off) : d.decideSide n true = d.toGood n := by
  unfold Dev.decideSide
  cases hs : (d.cp n).side with
  | off => exact absurd hs h
  | good => rfl
  | fault => rfl
  | deciding => rfl

/-- Any other input takes a good channel to the fault side. -/
theorem Dev.decideSide_crossed (d : Dev) (n : Nat) (h : (d.cp n).side = .good) : d.decideSide n false = d.toFault n := by
  simp [Dev.decideSide, h]

/-- It takes a channel that has not been good there in silence. -/
theorem Dev.decideSide_neverGood (d : Dev) (n : Nat) (h : (d.cp n).side = .deciding) :
    d.decideSide n false = d.toFaultSilent n := by
  simp [Dev.decideSide, h]

/-- The end of a mode change that no command waits for and that frees no charge: the mode is in force, and the side is
decided unless the threshold still settles (R85). -/
theorem modeChangeDone_arrives (n : Fin 128) (b : Bool) (m : Nat) (d : Dev) (hm : (d.cp n).moving = some m)
    (ho : (d.cp n).owner = none) (hc : bitOf d.trip.charged n = false) :
    modeChangeDone n b d =
      let e := (d.setField (0x1000 + 4 * n.val) 29 2 m).modCp n (fun c => { c with moving := none, owner := none })
      if (d.cp n).settling then e else e.decideSide n b := by
  have hfree : ∀ e : Dev, e.trip = d.trip → (m = modeExpress ∨ bitOf e.trip.charged n = false) = True :=
    fun e he => eq_true (Or.inr (he ▸ hc))
  simp only [modeChangeDone, hm, ho, hfree ((d.setField (FTA_CP_CFG.reg n) 29 2 m).modCp n _) rfl, if_true]
  rfl

/-! ### DRVFLT inputs -/

/-- The device with DRVFLT input `k` changed. -/
def Dev.modInput (d : Dev) (k : Fin 24) (f : DrvFlt → DrvFlt) : Dev := { d with drv := fileMod d.drv k.val f }

/-- A changed input of the file. -/
theorem Dev.modInput_drv (d : Dev) (k : Fin 24) (f : DrvFlt → DrvFlt) :
    fileGet (d.modInput k f).drv k.val default = f d.drv[k] :=
  (fileGet_fileMod_same d.drv k.val f default k.isLt).trans (congrArg f (fileGet_fin d.drv k default))

/-- Whether a changed input is asserted. -/
theorem Dev.modInput_asserted (d : Dev) (k : Fin 24) (f : DrvFlt → DrvFlt) :
    (d.modInput k f).inputAsserted k.val =
      ((f d.drv[k]).treated || (f d.drv[k]).level == (FTA_DF_CFG.pol d k.val == 1)) := by
  unfold Dev.inputAsserted
  rw [Dev.modInput_drv]
  rfl

/-- A line that comes to stand at its active level asserts its input. -/
theorem Dev.modInput_active (d : Dev) (k : Fin 24) :
    (d.modInput k (fun x => { x with level := FTA_DF_CFG.pol d k.val == 1 })).inputAsserted k.val = true := by
  simp [Dev.modInput_asserted]

/-- FTA_DF_CFG.pol has one bit: where it is not 1 it is 0. -/
theorem FTA_DF_CFG.pol_zero (d : Dev) (k : Nat) : (FTA_DF_CFG.pol d k == 0) = !(FTA_DF_CFG.pol d k == 1) := by
  have h : FTA_DF_CFG.pol d k < 2 := bitsOf_lt _ _ _
  interval_cases FTA_DF_CFG.pol d k <;> rfl

/-- A line that leaves its active level, and has been seen to, asserts its input no more. -/
theorem Dev.modInput_inactive (d : Dev) (k : Fin 24) :
    (d.modInput k (fun _ => ⟨FTA_DF_CFG.pol d k.val == 0, false⟩)).inputAsserted k.val = false := by
  simp [Dev.modInput_asserted, FTA_DF_CFG.pol_zero]

/-- The row of a DRVFLT input that is not asserted does not drive. -/
theorem Dev.rowDrives_released (d : Dev) (k : Nat) (h : d.inputAsserted k = false) : d.rowDrives (128 + k) = false := by
  simp [Dev.rowDrives, h]

/-- An input that has become asserted starts its leg's absence and drives its row, in silence while it is treated as
asserted since a start. -/
theorem Dev.inputMoved_asserted (d : Dev) (k : Nat) (h : d.inputAsserted k = true) :
    d.inputMoved k false = (d.modLeg k (fun l => { l with absent := some d.core.uptime })).driveRow (128 + k)
      (fileGet d.drv k default).treated := by
  have hs : ∀ e : Dev, e.drv = d.drv → e.rowSilent (128 + k) = (fileGet d.drv k default).treated := by
    intro e he
    simp [Dev.rowSilent, he]
  simp only [Dev.inputMoved, h]
  exact congrArg (Dev.driveRow _ _) (hs _ rfl)

/-- An input that is asserted no more ends its leg's absence, and its row releases. -/
theorem Dev.inputMoved_released (d : Dev) (k : Nat) (h : d.inputAsserted k = false) :
    d.inputMoved k true = d.modLeg k (fun l => { l with absent := none }) := by
  have hr : (d.modLeg k (fun l => { l with absent := none })).rowDrives (128 + k) = false := Dev.rowDrives_released _ k h
  simp only [Dev.inputMoved, h]
  exact if_neg (by simp [hr])

/-- DRVFLT_ASSERT on an input that is not asserted moves its line to the active level (R94). -/
theorem drvfltAssert_moves (k : Fin 24) (d : Dev) (hr : d.coreRuns = true) (ha : d.inputAsserted k.val = false) :
    drvfltAssert k d =
      (d.modInput k (fun x => { x with level := FTA_DF_CFG.pol d k.val == 1 })).inputMoved k.val false :=
  (if_neg (by simp [hr])).trans (congrArg _ ha)

/-- DRVFLT_DEASSERT on an asserted input moves its line to the inactive level, seen deasserted (R94). -/
theorem drvfltDeassert_moves (k : Fin 24) (d : Dev) (hr : d.coreRuns = true) (ha : d.inputAsserted k.val = true) :
    drvfltDeassert k d =
      (d.modInput k (fun _ => ⟨FTA_DF_CFG.pol d k.val == 0, false⟩)).inputMoved k.val true := by
  rw [FTA_DF_CFG.pol_zero]
  exact (if_neg (by simp [hr])).trans (congrArg _ ha)

/-- Settles O20: a crossing, a return and a decision each by the side of the channel; a DRVFLT input by whether it is
asserted once its line has moved. -/
theorem catchPointsAndDriverFaults : Obligations.CatchPointsAndDriverFaults := by
  intro s d ends
  refine ⟨fun n hg => ?cross, fun n hf hs => ?return_, fun n hs ho => ?beyond, fun n hs hd => ?silent,
    fun n hs hg => ?crossed, fun n m b hm ho hs hc => ?settling, fun n m hm ho hs hoff hc => ?mode,
    fun hr k ha => ?assert, fun hr k ha => ?deassert⟩
  case cross => exact run_settles (cpCrossToFault n) s _ (if_pos hg)
  case return_ => exact run_settles (cpReturnGood n) s _ (if_pos ⟨hf, hs⟩)
  case beyond =>
    refine run_settles (thresholdSettled n true) s _ ((if_pos hs).trans ?_)
    rw [Dev.decideSide_beyond _ _ (by rw [Dev.cp_modCp]; exact ho)]
    exact Dev.modCp_modCp ..
  case silent =>
    refine run_settles (thresholdSettled n false) s _ ((if_pos hs).trans ?_)
    rw [Dev.decideSide_neverGood _ _ (by rw [Dev.cp_modCp]; exact hd)]
    exact congrArg (fun e : Dev => e.driveRow n.val true) (Dev.modCp_modCp ..)
  case crossed =>
    refine run_settles (thresholdSettled n false) s _ ((if_pos hs).trans ?_)
    exact Dev.decideSide_crossed _ _ (by rw [Dev.cp_modCp]; exact hg)
  case settling =>
    exact run_settles (modeChangeDone n b) s _ ((modeChangeDone_arrives n b m d hm ho hc).trans (if_pos hs))
  case mode =>
    refine run_settles (modeChangeDone n true) s _
      ((modeChangeDone_arrives n true m d hm ho hc).trans ((if_neg (by simp [hs])).trans ?_))
    rw [Dev.decideSide_beyond _ _ (by rw [Dev.cp_modCp]; exact hoff)]
    exact Dev.modCp_modCp ..
  case assert =>
    have his := d.modInput_active k
    refine ⟨his, run_settles (drvfltAssert k) s _ ((drvfltAssert_moves k d hr ha).trans ?_)⟩
    rw [Dev.inputMoved_asserted _ _ his, Dev.modInput_drv]
    rfl
  case deassert =>
    have his := d.modInput_inactive k
    exact ⟨his, Dev.rowDrives_released _ _ his, run_settles (drvfltDeassert k) s _
      ((drvfltDeassert_moves k d hr ha).trans (Dev.inputMoved_released _ _ his))⟩

end Sys2Proof.Machine
end

section
/-! Enabling and disabling a catch point channel (O10). -/
namespace Sys2Proof.Machine

/-! ### Fields of one write (R441) -/

/-- Two fields share no bit. -/
def Field.apart (f g : Field) : Prop := f.lo + f.width ≤ g.lo ∨ g.lo + g.width ≤ f.lo

/-- The access of a field admits a write: RW always, RWS while its resource is stopped. -/
def Field.free (f : Field) (stopped : Bool) : Bool :=
  match f.access with
  | .rw => true
  | .rws => stopped
  | .ro => false

/-- A field rests on the registers alone. -/
theorem Dev.field_congr (d e : Dev) (off lo w : Nat) (h : e.cfg = d.cfg) : e.field off lo w = d.field off lo w := by
  unfold Dev.field Dev.reg; rw [h]

/-- A field set or not, the registers keep their canonical form. -/
theorem Dev.ite_setField_wf (p : Prop) [Decidable p] (d : Dev) (off lo w x : Nat) (h : d.cfg.wf = true) :
    (if p then d.setField off lo w x else d).cfg.wf = true := by
  split
  · exact d.setField_wf off lo w x h
  · exact h

section
variable (r : RegSpec) (off v : Nat) (stopped : Bool)

/-- The first field of a list is taken, where it may be, before the others. -/
theorem takeFields_cons (f : Field) (fs : List Field) (d : Dev) :
    takeFields r off v stopped (f :: fs) d = takeFields r off v stopped fs
      (if (f.free stopped && f.ok v && d.fieldAdmits off f v) = true then d.setField off f.lo f.width (f.of v) else d) := by
  rw [apply_ite (takeFields r off v stopped fs)]
  rfl

/-- What the setting of each field of a list keeps holds after the fields are taken. -/
theorem takeFields_induction (P : Dev → Prop) (fs : List Field) (d : Dev)
    (h : ∀ f ∈ fs, ∀ e, P e → P (e.setField off f.lo f.width (f.of v))) (hd : P d) :
    P (takeFields r off v stopped fs d) := by
  induction fs generalizing d with
  | nil => exact hd
  | cons f fs ih =>
    rw [takeFields_cons]
    refine ih _ (fun g hg => h g (List.mem_cons_of_mem _ hg)) ?_
    split
    · exact h f (List.mem_cons_self ..) d hd
    · exact hd

/-- A field apart from those of a list keeps its value. -/
theorem takeFields_field_apart (fs : List Field) (d : Dev) (lo w : Nat) (hw : d.cfg.wf = true)
    (hf : ∀ f ∈ fs, f.lo + f.width ≤ 32 ∧ (f.lo + f.width ≤ lo ∨ lo + w ≤ f.lo)) :
    (takeFields r off v stopped fs d).field off lo w = d.field off lo w := by
  refine (takeFields_induction r off v stopped (fun e => e.cfg.wf = true ∧ e.field off lo w = d.field off lo w) fs d
    (fun f hm e he => ?_) ⟨hw, rfl⟩).2
  obtain ⟨h32, ha⟩ := hf f hm
  exact ⟨e.setField_wf _ _ _ _ he.1, (e.field_setField_apart _ _ _ _ _ _ he.1 h32 ha).trans he.2⟩

/-- A field of a write reads what the word gives it where it may be taken, and keeps its value where not. -/
theorem takeFields_field (fs : List Field) (d : Dev) (f : Field) (b : Bool) (hw : d.cfg.wf = true) (hm : f ∈ fs)
    (h32 : ∀ g ∈ fs, g.lo + g.width ≤ 32) (hp : fs.Pairwise Field.apart) (hb : ∀ e : Dev, e.fieldAdmits off f v = b) :
    (takeFields r off v stopped fs d).field off f.lo f.width =
      if (f.free stopped && f.ok v && b) = true then f.of v else d.field off f.lo f.width := by
  induction fs generalizing d with
  | nil => exact absurd hm List.not_mem_nil
  | cons g gs ih =>
    obtain ⟨hg, hgs⟩ := List.pairwise_cons.mp hp
    have h32' : ∀ x ∈ gs, x.lo + x.width ≤ 32 := fun x hx => h32 x (List.mem_cons_of_mem _ hx)
    rw [takeFields_cons]
    rcases List.mem_cons.mp hm with rfl | hfs
    · rw [takeFields_field_apart r off v stopped gs _ _ _ (Dev.ite_setField_wf _ d _ _ _ _ hw)
        (fun x hx => ⟨h32' x hx, (hg x hx).symm⟩), hb]
      split
      · rw [Dev.field_setField d _ _ _ _ hw (h32 f (List.mem_cons_self ..))]
        exact Nat.mod_eq_of_lt (bitsOf_lt _ _ _)
      · rfl
    · rw [ih _ (Dev.ite_setField_wf _ d _ _ _ _ hw) hfs h32' hgs]
      have hkept : ∀ x : Nat, (d.setField off g.lo g.width x).field off f.lo f.width = d.field off f.lo f.width :=
        fun x => d.field_setField_apart _ _ _ _ _ _ hw (h32 g (List.mem_cons_self ..)) (hg f hfs)
      congr 1
      split
      · exact hkept _
      · rfl

end

/-! ### The word of a write with its top bit given -/

/-- A field is its bits. -/
theorem testBit_bitsOf (n lo w i : Nat) : (bitsOf n lo w).testBit i = (decide (i < w) && n.testBit (lo + i)) := by
  rw [bitsOf, Nat.testBit_mod_two_pow, Nat.testBit_div_two_pow, Nat.add_comm]

/-- A field reads the same in two words that agree on its bits. -/
theorem bitsOf_congr (a b lo w : Nat) (h : ∀ i, i < w → a.testBit (lo + i) = b.testBit (lo + i)) :
    bitsOf a lo w = bitsOf b lo w := by
  refine Nat.eq_of_testBit_eq fun i => ?_
  rw [testBit_bitsOf, testBit_bitsOf]
  by_cases hi : i < w
  · rw [h i hi]
  · simp [hi]

/-- A word with its top bit set keeps the fields below it. -/
theorem bitsOf_topSet (v : Word) (lo w : Nat) (h : lo + w ≤ 31) :
    bitsOf (v ||| 0x80000000).toNat lo w = bitsOf v.toNat lo w :=
  bitsOf_congr _ _ lo w fun i hi => by
    rw [BitVec.toNat_or, Nat.testBit_or, show (0x80000000 : Word).toNat = 2 ^ 31 from rfl, Nat.testBit_two_pow,
      decide_eq_false (by omega), Bool.or_false]

/-- A word with its top bit cleared keeps the fields below it. -/
theorem bitsOf_topClear (v : Word) (lo w : Nat) (h : lo + w ≤ 31) :
    bitsOf (v &&& 0x7FFFFFFF).toNat lo w = bitsOf v.toNat lo w :=
  bitsOf_congr _ _ lo w fun i hi => by
    rw [BitVec.toNat_and, Nat.testBit_and, show (0x7FFFFFFF : Word).toNat = 2 ^ 31 - 1 from rfl,
      Nat.testBit_two_pow_sub_one, decide_eq_true (by omega), Bool.and_true]

theorem topBit_topSet (v : Word) : bitsOf (v ||| 0x80000000).toNat 31 1 = 1 := by
  rw [bitsOf, pow_one, ← Nat.toNat_testBit, BitVec.toNat_or, Nat.testBit_or,
    show (0x80000000 : Word).toNat = 2 ^ 31 from rfl, Nat.testBit_two_pow_self, Bool.or_true]
  rfl

theorem topBit_topClear (v : Word) : bitsOf (v &&& 0x7FFFFFFF).toNat 31 1 = 0 := by
  rw [bitsOf, pow_one, ← Nat.toNat_testBit, BitVec.toNat_and, Nat.testBit_and,
    show (0x7FFFFFFF : Word).toNat = 2 ^ 31 - 1 from rfl, Nat.testBit_two_pow_sub_one, decide_eq_false (by omega),
    Bool.and_false]
  rfl

/-! ### A write of FTA_CP_CFG (Table 3-16) -/

/-- The register family of FTA_CP_CFG. -/
def channelReg : RegSpec :=
  ⟨0x1000, 4, 128, .channel, [rw 31 1, roRb 29 2, rws 26 3, rws 25 1, rw 23 2, rwIn 15 8 0 191]⟩

section
variable (d : Dev) (n : Fin 128)

theorem regAt_channel : regAt (0x1000 + 4 * n.val) = some channelReg := by
  have hnear : regsNear (0x1000 + 4 * n.val) = regsTrip :=
    (if_neg (by omega)).trans ((if_neg (by omega)).trans (if_pos (by omega)))
  have hcovers : channelReg.covers (0x1000 + 4 * n.val) = true := by
    simp [RegSpec.covers, channelReg]
  rw [regAt, hnear]
  exact List.find?_cons_of_pos hcovers

theorem gated_channel : gated (0x1000 + 4 * n.val) = true := by
  rw [gated, regAt_channel]
  rfl

/-- A channel's register waits for no sample boundary. -/
theorem sampledGroup_channel : sampledGroup (0x1000 + 4 * n.val) = none :=
  (if_neg (by omega)).trans ((if_neg (by omega)).trans ((if_neg (by omega)).trans (if_neg (by omega))))

/-- Of the fields of FTA_CP_CFG, `dir` is the host's on CP124 to CP127 alone (Table 3-11). -/
theorem Dev.fieldAdmits_channel (f : Field) (v : Nat) :
    d.fieldAdmits (0x1000 + 4 * n.val) f v = (f.lo != 25 || decide (124 ≤ n.val)) := by
  unfold Dev.fieldAdmits
  dsimp only
  rw [if_neg (by omega), if_neg (by omega), if_neg (by omega), if_pos (by omega)]
  congr 3
  omega

theorem Dev.registerAdmits_channel (v : Nat) : d.registerAdmits (0x1000 + 4 * n.val) v = true := by
  unfold Dev.registerAdmits
  iterate 9 rw [if_neg (by omega)]

/-- The device with the fields of FTA_CP_CFG taken from a word; known by its lemmas, not by running the fields. -/
@[irreducible] def Dev.channelTaken (v : Nat) : Dev :=
  takeFields channelReg (0x1000 + 4 * n.val) v (FTA_CP_CFG.en d n == 0) channelReg.fields d

/-- What the setting of each field of FTA_CP_CFG keeps holds after they are taken. -/
theorem Dev.channelTaken_induction (P : Dev → Prop) (v : Nat)
    (h : ∀ (f : Field) (e : Dev), P e → P (e.setField (0x1000 + 4 * n.val) f.lo f.width (f.of v))) (hd : P d) :
    P (d.channelTaken n v) := by
  unfold Dev.channelTaken
  exact takeFields_induction channelReg _ v _ P _ d (fun f _ e => h f e) hd

/-- A write of FTA_CP_CFG that expert_en admits takes its fields, stores the word, and acts by `en` (R440, R441). -/
theorem Dev.writeBar0_channel (v : Word) (hr : d.coreRuns = true) (hx : d.hqi.expertEn = true) :
    d.writeBar0 (0x1000 + 4 * n.val) v =
      ((d.channelTaken n v.toNat).storedReg (0x1000 + 4 * n.val)).wrote d (0x1000 + 4 * n.val) := by
  have hinst : channelReg.inst (0x1000 + 4 * n.val) = n.val := by
    simp [RegSpec.inst, channelReg]
  have hbook : d.writeBook channelReg (0x1000 + 4 * n.val) v.toNat =
      ((d.channelTaken n v.toNat).storedReg (0x1000 + 4 * n.val)).wrote d (0x1000 + 4 * n.val) := by
    unfold Dev.writeBook
    simp only [sampledGroup_channel, Dev.registerAdmits_channel]
    unfold Dev.channelTaken
    show ((takeFields channelReg _ _ (FTA_CP_CFG.en d (channelReg.inst _) == 0) _ d).storedReg _).wrote d _ = _
    rw [hinst]
  unfold Dev.writeBar0
  rw [if_neg (by simp [hr]), if_neg (by omega), if_neg (by omega), if_neg (by omega), if_neg (by omega), if_neg (by omega),
    if_neg (by omega), if_pos (gated_channel n), if_pos hx]
  unfold Dev.writeGated
  rw [if_neg (by omega), if_neg (by omega)]
  simp only [regAt_channel]
  rw [if_neg (by omega)]
  exact hbook

/-- Nothing but the registers changes. -/
theorem Dev.channelTaken_rest (v : Nat) : ∃ c, d.channelTaken n v = { d with cfg := c } :=
  d.channelTaken_induction n (fun e : Dev => ∃ c, e = { d with cfg := c }) v
    (fun f e he => by obtain ⟨c, rfl⟩ := he; exact ⟨_, rfl⟩) ⟨d.cfg, rfl⟩

theorem Dev.channelTaken_reg (v o : Nat) (h : o ≠ 0x1000 + 4 * n.val) : (d.channelTaken n v).reg o = d.reg o :=
  d.channelTaken_induction n (fun e : Dev => e.reg o = d.reg o) v
    (fun _ e he => (Dev.reg_setReg_other e _ _ o h).trans he) rfl

theorem Dev.still_channelTaken (v : Nat) (h : d.still) : (d.channelTaken n v).still :=
  d.channelTaken_induction n Dev.still v (fun _ e he => Dev.still_setField e _ _ _ _ (Or.inl (by omega)) he) h

/-- What each field of FTA_CP_CFG reads after a write. -/
theorem Dev.channelTaken_field (v : Nat) (f : Field) (hw : d.cfg.wf = true) (hf : f ∈ channelReg.fields) :
    (d.channelTaken n v).field (0x1000 + 4 * n.val) f.lo f.width =
      if (f.free (FTA_CP_CFG.en d n == 0) && f.ok v && (f.lo != 25 || decide (124 ≤ n.val))) = true then f.of v
      else d.field (0x1000 + 4 * n.val) f.lo f.width := by
  unfold Dev.channelTaken
  exact takeFields_field channelReg _ v _ channelReg.fields d f _ hw hf (by decide)
    (by simp [channelReg, Field.apart, rw, roRb, rws, rwIn]) (fun e => e.fieldAdmits_channel n f v)

/-- `en` is taken at any time. -/
theorem Dev.channelTaken_en (v : Nat) (hw : d.cfg.wf = true) : FTA_CP_CFG.en (d.channelTaken n v) n = bitsOf v 31 1 :=
  (d.channelTaken_field n v (rw 31 1) hw (by decide)).trans (if_pos (by simp [Field.free, Field.ok, Allow.admits, rw]))

end

/-- The device after a write of FTA_CP_CFG that changes the channel by `g`. -/
def Dev.channelWritten (d : Dev) (n : Fin 128) (v : Nat) (g : CatchPoint → CatchPoint) : Dev :=
  ((d.channelTaken n v).storedReg (0x1000 + 4 * n.val)).modCp n g

/-- What a write of FTA_CP_CFG with the word `v` changes but for `en`, `hyst`, `dir` and the channel's side (R441). -/
def Dev.ChannelFrame (d u : Dev) (n : Fin 128) (v : Nat) : Prop :=
  (∀ o, o ≠ 0x1000 + 4 * n.val → u.reg o = d.reg o) ∧ FTA_CP_CFG.mode u n = FTA_CP_CFG.mode d n
  ∧ FTA_CP_CFG.cls u n = bitsOf v 23 2
  ∧ FTA_CP_CFG.evsrc u n = (if bitsOf v 15 8 ≤ 191 then bitsOf v 15 8 else FTA_CP_CFG.evsrc d n)
  ∧ u.il = (d.storedReg (0x1000 + 4 * n.val)).il ∧ ({ u with cfg := d.cfg, cps := d.cps, il := d.il } : Dev) = d

section
variable (d : Dev) (n : Fin 128) (v : Nat) (g : CatchPoint → CatchPoint)

/-- What each field of FTA_CP_CFG reads after a write. -/
theorem Dev.channelWritten_field (f : Field) (hw : d.cfg.wf = true) (hf : f ∈ channelReg.fields) :
    (d.channelWritten n v g).field (0x1000 + 4 * n.val) f.lo f.width =
      if (f.free (FTA_CP_CFG.en d n == 0) && f.ok v && (f.lo != 25 || decide (124 ≤ n.val))) = true then f.of v
      else d.field (0x1000 + 4 * n.val) f.lo f.width :=
  (Dev.field_congr (d.channelTaken n v) _ _ _ _ rfl).trans (d.channelTaken_field n v f hw hf)

theorem Dev.channelWritten_en (hw : d.cfg.wf = true) : FTA_CP_CFG.en (d.channelWritten n v g) n = bitsOf v 31 1 :=
  (Dev.field_congr (d.channelTaken n v) _ _ _ _ rfl).trans (d.channelTaken_en n v hw)

/-- `hyst` is taken while the channel is off. -/
theorem Dev.channelWritten_hyst (hw : d.cfg.wf = true) : FTA_CP_CFG.hyst (d.channelWritten n v g) n =
    if FTA_CP_CFG.en d n = 0 then bitsOf v 26 3 else FTA_CP_CFG.hyst d n := by
  refine (d.channelWritten_field n v g (rws 26 3) hw (by decide)).trans ?_
  simp [Field.free, Field.ok, Allow.admits, Field.of, rws, FTA_CP_CFG.hyst, FTA_CP_CFG.reg]

/-- `dir` is taken while the channel is off, on CP124 to CP127. -/
theorem Dev.channelWritten_dir (hw : d.cfg.wf = true) : FTA_CP_CFG.dir (d.channelWritten n v g) n =
    if FTA_CP_CFG.en d n = 0 ∧ 124 ≤ n.val then bitsOf v 25 1 else FTA_CP_CFG.dir d n := by
  refine (d.channelWritten_field n v g (rws 25 1) hw (by decide)).trans ?_
  simp [Field.free, Field.ok, Allow.admits, Field.of, rws, FTA_CP_CFG.dir, FTA_CP_CFG.reg]

theorem Dev.channelWritten_frame (hw : d.cfg.wf = true) : d.ChannelFrame (d.channelWritten n v g) n v := by
  obtain ⟨c, hrest⟩ := d.channelTaken_rest n v
  refine ⟨fun o ho => d.channelTaken_reg n v o ho, ?mode, ?cls, ?evsrc, ?il, ?rest⟩
  case mode =>
    exact (d.channelWritten_field n v g (roRb 29 2) hw (by decide)).trans (if_neg (by simp [Field.free, roRb]))
  case cls =>
    exact (d.channelWritten_field n v g (rw 23 2) hw (by decide)).trans
      (if_pos (by simp [Field.free, Field.ok, Allow.admits, rw]))
  case evsrc =>
    refine (d.channelWritten_field n v g (rwIn 15 8 0 191) hw (by decide)).trans ?_
    by_cases hv : bitsOf v 15 8 ≤ 191 <;>
      simp [Field.free, Field.ok, Allow.admits, Field.of, rwIn, FTA_CP_CFG.evsrc, FTA_CP_CFG.reg, hv]
  case il => unfold Dev.channelWritten; rw [hrest]; rfl
  case rest => unfold Dev.channelWritten; rw [hrest]; rfl

/-- A change of a catch point after which its row does not drive leaves a still device still. -/
theorem Dev.still_modCp_released (hg : ∀ c, (g c).side ≠ .fault) (h : d.still) : (d.modCp n g).still := by
  have hside : ∀ r, (d.modCp n g).rowDrives r = true → d.rowDrives r = true := by
    intro r hr
    by_cases hn : r = n.val
    · subst hn
      have hf : ((d.modCp n g).cp n).side = .fault := by
        simpa [Dev.rowDrives, Dev.cp] using hr
      rw [Dev.cp_modCp] at hf
      exact absurd hf (hg _)
    · have he : fileGet (d.modCp n g).cps r default = fileGet d.cps r default :=
        fileGet_fileMod_other d.cps n r g default hn
      unfold Dev.rowDrives at *
      rw [he] at hr
      exact hr
  exact Dev.still_held d _ h rfl rfl rfl rfl rfl rfl rfl
    (Dev.columnsHeld_mono d _ hside (fun _ => rfl) rfl h.2)

/-- So does a write of FTA_CP_CFG that leaves the channel on no side, or before its decision. -/
theorem Dev.still_channelWritten (hg : ∀ c, (g c).side ≠ .fault) (h : d.still) : (d.channelWritten n v g).still :=
  Dev.still_modCp_released _ n g hg
    (Dev.still_congr _ _ (d.still_channelTaken n v h) rfl rfl rfl rfl rfl rfl rfl rfl rfl rfl rfl)

end

/-- A word of FTA_CP_CFG with another `en` has the same frame. -/
theorem Dev.ChannelFrame.of_fields {d u : Dev} {n : Fin 128} {v w : Nat} (h : d.ChannelFrame u n v)
    (hv : ∀ lo k, lo + k ≤ 31 → bitsOf v lo k = bitsOf w lo k) : d.ChannelFrame u n w := by
  obtain ⟨hreg, hmode, hcls, hsrc, hil, hrest⟩ := h
  rw [hv 23 2 (by omega)] at hcls
  rw [hv 15 8 (by omega)] at hsrc
  exact ⟨hreg, hmode, hcls, hsrc, hil, hrest⟩

/-! ### What a new `en` does (Table 3-12) -/

/-- A write of FTA_CP_CFG acts where it moves `en`. -/
theorem Dev.wrote_channel (e d : Dev) (n : Fin 128) : e.wrote d (0x1000 + 4 * n.val) =
    if FTA_CP_CFG.en e n = 1 ∧ FTA_CP_CFG.en d n = 0 then e.cpOn n
    else if FTA_CP_CFG.en e n = 0 ∧ FTA_CP_CFG.en d n = 1 then e.cpOff n else e := by
  have hidx : (0x1000 + 4 * n.val - 0x1000) / 4 = n.val := by omega
  unfold Dev.wrote
  rw [if_neg (by omega), if_neg (by omega), if_pos (by omega), hidx]

section
variable (n : Fin 128) (v : Word) (d : Dev) (hr : d.coreRuns = true) (hx : d.hqi.expertEn = true)
  (hw : d.cfg.wf = true)
include hr hx hw

/-- `en` written 1 on a channel that is off: the channel settles towards its decision. -/
theorem ftaCpEnable_settles (he : FTA_CP_CFG.en d n = 0) (ho : (d.cp n).side = .off) : ftaCpEnable n v d =
    d.channelWritten n (v ||| 0x80000000).toNat (fun c => { c with side := .deciding, settling := true }) := by
  obtain ⟨c, hrest⟩ := d.channelTaken_rest n (v ||| 0x80000000).toNat
  have hon : FTA_CP_CFG.en ((d.channelTaken n (v ||| 0x80000000).toNat).storedReg (0x1000 + 4 * n.val)) n = 1 :=
    (d.channelTaken_en n _ hw).trans (topBit_topSet v)
  have hoff : (((d.channelTaken n (v ||| 0x80000000).toNat).storedReg (0x1000 + 4 * n.val)).cp n).side = .off := by
    rw [hrest]; exact ho
  exact (d.writeBar0_channel n _ hr hx).trans
    ((Dev.wrote_channel _ d n).trans ((if_pos ⟨hon, he⟩).trans (if_pos hoff)))

/-- `en` written 0 on a channel that is on: the channel is off, and settles no more. -/
theorem ftaCpDisable_releases (he : FTA_CP_CFG.en d n = 1) : ftaCpDisable n v d =
    d.channelWritten n (v &&& 0x7FFFFFFF).toNat (fun c => { c with side := .off, settling := false }) := by
  have hoff : FTA_CP_CFG.en ((d.channelTaken n (v &&& 0x7FFFFFFF).toNat).storedReg (0x1000 + 4 * n.val)) n = 0 :=
    (d.channelTaken_en n _ hw).trans (topBit_topClear v)
  exact (d.writeBar0_channel n _ hr hx).trans
    ((Dev.wrote_channel _ d n).trans ((if_neg (by omega)).trans (if_pos ⟨hoff, he⟩)))

end

/-- Of the catch points, a write of FTA_CP_CFG changes its own channel alone. -/
theorem Dev.channelWritten_cps (d : Dev) (n : Fin 128) (v : Nat) (g : CatchPoint → CatchPoint) :
    (d.channelWritten n v g).cps = fileMod d.cps n.val g := by
  obtain ⟨c, hrest⟩ := d.channelTaken_rest n v
  unfold Dev.channelWritten
  rw [hrest]
  rfl

/-- Settles O10: the fields a write takes by whether the channel is on, and what its new `en` does. -/
theorem channelEnable : Obligations.ChannelEnable := by
  intro s n v hstill hrun hexp hwf d reg frame
  have hs : d.still := Dev.still_silent s.dev hstill
  have hr : d.coreRuns = true := hrun
  have hx : d.hqi.expertEn = true := hexp
  have hw : d.cfg.wf = true := hwf
  refine ⟨fun he ho => ?enable, fun he => ?disable⟩
  case enable =>
    have hframe := (d.channelWritten_frame n (v ||| 0x80000000).toNat
      (fun c => { c with side := .deciding, settling := true }) hw).of_fields (bitsOf_topSet v)
    refine ⟨_, run_is (ftaCpEnable n v) s _ (ftaCpEnable_settles n v d hr hx hw he ho)
      (d.still_channelWritten n _ _ (fun _ => by simp) hs), ?en, ?hyst, ?dir, d.channelWritten_cps n _ _, hframe⟩
    case en => exact (d.channelWritten_en n _ _ hw).trans (topBit_topSet v)
    case hyst =>
      exact (d.channelWritten_hyst n _ _ hw).trans ((if_pos he).trans (bitsOf_topSet v 26 3 (by omega)))
    case dir => rw [d.channelWritten_dir n _ _ hw, bitsOf_topSet v 25 1 (by omega)]; simp [he]
  case disable =>
    have hframe := (d.channelWritten_frame n (v &&& 0x7FFFFFFF).toNat
      (fun c => { c with side := .off, settling := false }) hw).of_fields (bitsOf_topClear v)
    refine ⟨_, run_is (ftaCpDisable n v) s _ (ftaCpDisable_releases n v d hr hx hw he)
      (d.still_channelWritten n _ _ (fun _ => by simp) hs), ?en, ?hyst, ?dir, d.channelWritten_cps n _ _, hframe⟩
    case en => exact (d.channelWritten_en n _ _ hw).trans (topBit_topClear v)
    case hyst => exact (d.channelWritten_hyst n _ _ hw).trans (if_neg (by omega))
    case dir => exact (d.channelWritten_dir n _ _ hw).trans (if_neg (by omega))

end Sys2Proof.Machine
end

section
/-! INJECT_ARM, INJECT, FAULT_RESUME and THRESHOLD_SET (O49). -/
namespace Sys2Proof.Machine

/-! ### Injection -/

/-- INJECT_ARM opens its window (R335). -/
theorem specInjectArm_arms (o : OpenCmd) (d : Dev) :
    specInjectArm.begin o d = ({ d with
      il := { d.il with armedUntil := some (d.core.uptime + o.desc.num 20 4 * 40000) } } : Dev).commitAll o.fetch stDone
        [] := rfl

/-- A fresh INJECT takes over no observation (R387). -/
theorem Dev.injectLeft_fresh (d : Dev) (o : OpenCmd) (h : o.resumed = false) (l : List Injection) :
    l.any (d.injectLeft o) = false := by
  rw [List.any_eq_false]
  intro i _
  simp [Dev.injectLeft, h]

/-- The device with an armed window used up by an injection of `kind`, observed for 10 ms (R336, R337). -/
def Dev.withInjection (d : Dev) (o : OpenCmd) : Dev :=
  let x : Injection := ⟨o.desc.byte 20, o.desc.num 24 4, o.desc.num 28 4, d.core.uptime + 10 * 40000, false, 0,
    o.desc.tag.toNat, o.fetch⟩
  { d with il := { d.il with
    armedUntil := none, watched := d.il.watched ++ [x], lastKind := o.desc.byte 20,
    injections := held 255 (d.il.injections + 1) } }

/-- A fresh INJECT in an open window, its condition met, injects (R336). -/
theorem specInject_injects (o : OpenCmd) (d : Dev) (t : Nat) (hr : o.resumed = false) (ha : d.il.armedUntil = some t)
    (hk : d.injectOk (o.desc.byte 20) (o.desc.num 24 4) (o.desc.num 28 4) = true) :
    specInject.begin o d = (d.withInjection o).injectNow (o.desc.byte 20) (o.desc.num 24 4) (o.desc.num 28 4) :=
  (if_neg (by simp [d.injectLeft_fresh o hr])).trans (if_neg (by simp [ha, hk]))

/-! ### Lanes under test -/

/-- A lane that enters TESTING. -/
theorem Dev.testLane_same (d : Dev) (l : Nat) (h : l < 6) : ((d.testLane l).lane l).state = .testing :=
  congrArg Lane.state (fileGet_fileMod_same d.sup.lanes l _ default h)

/-- It leaves the other lanes as they are. -/
theorem Dev.testLane_other (d : Dev) (l j : Nat) (h : j ≠ l) : (d.testLane l).lane j = d.lane j :=
  fileGet_fileMod_other d.sup.lanes l j _ default h

/-- Lanes that enter TESTING leave a lane under test under test. -/
theorem Dev.testLanes_testing (lanes : List Nat) (d : Dev) (j : Nat) (h : j < 6) (hj : (d.lane j).state = .testing) :
    ((forAll (fun l d => d.testLane l) lanes d).lane j).state = .testing := by
  refine forAll_induction _ (fun e : Dev => (e.lane j).state = .testing) lanes d (fun l _ e he => ?_) hj
  by_cases hl : j = l
  · subst hl; exact e.testLane_same j h
  · exact (congrArg Lane.state (e.testLane_other l j hl)).trans he

/-- They leave the FAULT_RESUME under way as it is. -/
theorem Dev.testLanes_resuming (lanes : List Nat) (d : Dev) :
    (forAll (fun l d => d.testLane l) lanes d).sup.resuming = d.sup.resuming :=
  forAll_keeps (fun l (d : Dev) => d.testLane l) (fun e => e.sup.resuming) (fun _ _ => rfl) lanes d

/-- The tests of a FAULT_RESUME wait while a lane is under test. -/
theorem Dev.resumeTested_waits (d : Dev) (r : Resuming) (j : Nat) (hr : d.sup.resuming = some r) (h : j < 6)
    (hj : (d.lane j).state = .testing) : d.resumeTested = d := by
  have hany : (indices 6).any (fun l => (d.lane l).state == .testing) = true :=
    List.any_eq_true.mpr ⟨j, List.mem_range.mpr h, by simp [hj]⟩
  simp [Dev.resumeTested, hr, hany]

/-- The tests begin with the lanes named, together; where none is named, with the first lane's turn (R152). -/
theorem Dev.testLanes_named (d : Dev) (fetch : Option Nat) (stage : Nat) (left named : List Nat) (h : ∀ l ∈ named, l < 6) :
    d.testLanes fetch stage left named =
      let x := forAll (fun l d => d.testLane l) named
        (d.setResuming (some ⟨fetch, stage, left ++ named, indices 6, false, false, []⟩))
      if named.isEmpty then x.resumeTested else x := by
  cases named with
  | nil => rfl
  | cons l ls =>
    have hl : l < 6 := h l (List.mem_cons_self ..)
    exact Dev.resumeTested_waits _ _ l (Dev.testLanes_resuming (l :: ls) _) hl
      (Dev.testLanes_testing ls _ l hl (Dev.testLane_same _ l hl))

/-! ### FAULT_RESUME -/

/-- The retired lanes that a FAULT_RESUME names (R152). -/
def Dev.retiredOf (d : Dev) (mask : Nat) : List Nat := (bitsIn 6 mask).filter (fun l => (d.lane l).state == .retired)

theorem Dev.retiredOf_lt (d : Dev) (mask l : Nat) (h : l ∈ d.retiredOf mask) : l < 6 :=
  List.mem_range.mp (List.mem_filter.mp (List.mem_filter.mp h).1).1

/-- FAULT_RESUME where R329 admits it, no other one runs and the start has ended. -/
theorem specFaultResume_begins (o : OpenCmd) (d : Dev) (hm : d.mayResume = true)
    (hn : d.sup.resuming.bind (·.fetch) = none) (hp : d.core.phase = .running) :
    specFaultResume.begin o d =
      let e := d.commit o.fetch 1
      ({ e with bge := { e.bge with stopped := 0 } } : Dev).testLanes (some o.fetch) 2
        ((d.sup.resuming.map (·.named)).getD []) (d.retiredOf (o.desc.byte 20)) :=
  if_neg (by simp [hm, hn, hp])

/-! ### THRESHOLD_SET -/

/-- THRESHOLD_SET on a channel of the host's with a code in range sets it, at either level (R79, R80). -/
theorem specThresholdSet_gives (o : OpenCmd) (d : Dev) (z : Nat) (hz : d.thresholdGiven o.desc = z) (h1 : z ≤ 1023)
    (hn : ¬ (96 ≤ o.desc.idx ∧ o.desc.idx ≤ 123))
    (hh : o.desc.byte 24 = 0xFF ∨ o.desc.byte 24 = FTA_CP_CFG.hyst d o.desc.idx ∨ FTA_CP_CFG.en d o.desc.idx ≠ 1) :
    specThresholdSet.begin o d = (d.withThreshold o.desc.idx (o.desc.byte 24) z).commitAll o.fetch stDone
      [z, unsignedOf 32 (d.thresholdValue o.desc.idx z)] := by
  have hfixed : ¬ (o.desc.byte 24 ≠ 0xFF ∧ o.desc.byte 24 ≠ FTA_CP_CFG.hyst d o.desc.idx
      ∧ FTA_CP_CFG.en d o.desc.idx = 1) := by omega
  refine (if_neg (by simpa [thresholdOwned] using hn)).trans ((if_neg ?_).trans ((if_neg hfixed).trans ?_))
  · rw [hz]; omega
  · rw [hz]; rfl

/-- Settles O49: each accepted command runs its first stage, by the equation of that stage. -/
theorem maintenanceCommands : Obligations.MaintenanceCommands := by
  intro s c d k ends
  refine ⟨fun e ha he => ?arm, fun e t x ha he ht hk hx => ?inject,
    fun e e1 lanes left ha he hm hn hleft hp hlanes he1 x hx => ?resume,
    fun e e1 code ha he hn hxp hst h1 hh he1 => ?threshold⟩
  case arm =>
    subst he
    exact run_accepted specInjectArm c s _ ha (fun _ _ _ _ => rfl) (specInjectArm_arms (d.opened specInjectArm c) _)
  case inject =>
    subst he hx
    exact run_accepted specInject c s _ ha (fun _ _ _ _ => rfl)
      (specInject_injects (d.opened specInject c) _ t rfl ht hk)
  case resume =>
    subst he hlanes hleft he1 hx
    exact run_accepted specFaultResume c s _ ha (fun _ _ _ _ => rfl)
      ((specFaultResume_begins (d.opened specFaultResume c) _ hm hn hp).trans
        (Dev.testLanes_named _ _ _ _ _ (Dev.retiredOf_lt _ _)))
  case threshold =>
    subst he he1
    have hz : (d.started specThresholdSet c).thresholdGiven c = code := by
      cases hx : c.expert with
      | true => exact (if_pos hx).trans (by rw [hxp hx])
      | false => exact (if_neg (by simp [hx])).trans (hst hx).symm
    exact run_accepted specThresholdSet c s _ ha (fun _ _ _ _ => rfl)
      (specThresholdSet_gives (d.opened specThresholdSet c) _ code hz h1 hn hh)

end Sys2Proof.Machine
end

section
/-! Samples of a group (O23). -/
namespace Sys2Proof.Machine

/-- The group's sample before its state is looked at: what is missing is reported, and the pre-bias history takes it
(R101, R123). -/
def Dev.sampled (d : Dev) (g : Nat) : Dev := (d.missingSamples g).preSample g

/-- A group that switches: its samples run its item (R105). -/
def GroupState.live (st : GroupState) : Prop := st = .softStart ∨ st = .run ∨ st = .stopping

section
variable (d : Dev) (g free : Nat) (late : Bool) (second : Option Nat)

/-- A stopped group takes what waits for its boundary (R116). -/
theorem Dev.sampleDone_stopped (h : ((d.sampled g).group g).state.stopped = true) :
    d.sampleDone g free late second = (d.sampled g).boundary g := by
  unfold Dev.sampled at *
  unfold Dev.sampleDone
  cases hs : (((d.missingSamples g).preSample g).group g).state <;> rw [hs] at h
  case off | faulted => simp only [hs]
  all_goals exact absurd h (by decide)

/-- A group that is STARTING advances its references, and captures where it waits for its pre-bias and has 8 samples
(R114, R123). -/
theorem Dev.sampleDone_starting (h : ((d.sampled g).group g).state = .starting)
    (hb : (((d.sampled g).boundary g).group g).state = .starting) :
    d.sampleDone g free late second =
      let b := (d.sampled g).boundary g
      let c := (b.advanceRefs g).arriveTarget g
      if (b.group g).waiting = true ∧ 8 ≤ (b.group g).samples.length then c.capture g else c := by
  unfold Dev.sampled at *
  unfold Dev.sampleDone
  simp only [h]
  exact if_neg (not_not.mpr hb)

/-- A group that switches runs its item, unless its boundary has stopped it (R105). -/
theorem Dev.sampleDone_live (h : ((d.sampled g).group g).state.live)
    (hb : (((d.sampled g).boundary g).group g).state.stopped = false) :
    d.sampleDone g free false second = (((d.sampled g).boundary g).runItem g free second).dischargeWatch g := by
  unfold Dev.sampled at *
  unfold Dev.sampleDone
  rcases h with h | h | h <;> simp [h, hb]

/-- A group that switches counts an overrun for an item that comes late (R163). -/
theorem Dev.sampleDone_late (h : ((d.sampled g).group g).state.live) :
    d.sampleDone g free true second = ((d.sampled g).overrunAt g).dischargeWatch g := by
  unfold Dev.sampled at *
  unfold Dev.sampleDone
  rcases h with h | h | h <;> simp [h]

end

/-- A sample that is not complete changes nothing (R65). -/
theorem groupSampleComplete_waits (g : Fin 16) (free : Fin 6) (late : Bool) (second : Option (BitVec 16)) (d : Dev)
    (hr : d.coreRuns = true) (hi : d.completeInstant g = none) : groupSampleComplete g free late second d = d := by
  simp [groupSampleComplete, hr, hi]

/-- A complete sample belongs to its instant, and does what the group's state asks for (R65). -/
theorem groupSampleComplete_at (g : Fin 16) (free : Fin 6) (late : Bool) (second : Option (BitVec 16)) (d : Dev) (t : Int)
    (hr : d.coreRuns = true) (hi : d.completeInstant g = some t) : groupSampleComplete g free late second d =
      (d.takeInstant g t).sampleDone g free late (second.map (·.toNat)) := by
  simp [groupSampleComplete, hr, hi]

/-- Settles O23: the complete sample by the state of its group. -/
theorem groupSamples : Obligations.GroupSamples := by
  intro s g free second hrun d ends
  have hr : d.coreRuns = true := hrun
  refine ⟨fun hi late => ?waits, fun t hi => ?done⟩
  case waits =>
    exact run_settles (groupSampleComplete g free late second) s _ (groupSampleComplete_waits g free late second d hr hi)
  case done =>
    have hsample : ∀ (late : Bool) (e : Dev), (d.takeInstant g t).sampleDone g free late (second.map (·.toNat)) = e →
        exec (.groupSampleComplete g ⟨free, second⟩ late) s = ends e := fun late e he =>
      run_settles (groupSampleComplete g free late second) s e
        ((groupSampleComplete_at g free late second d t hr hi).trans he)
    refine ⟨fun hs late => ?stopped, fun hs hb hw hn late => ?captures, fun hs hb hw late => ?starts,
      fun hl hb => ?runs, fun hl => ?late⟩
    case stopped => exact hsample late _ (Dev.sampleDone_stopped _ _ _ _ _ hs)
    case captures =>
      exact hsample late _ ((Dev.sampleDone_starting _ _ _ _ _ hs hb).trans (if_pos ⟨hw, hn⟩))
    case starts =>
      exact hsample late _ ((Dev.sampleDone_starting _ _ _ _ _ hs hb).trans
        (if_neg fun h => Bool.false_ne_true (hw.symm.trans h.1)))
    case runs => exact hsample false _ (Dev.sampleDone_live _ _ _ _ hl hb)
    case late => exact hsample true _ (Dev.sampleDone_late _ _ _ _ hl)

end Sys2Proof.Machine
end

section
/-! GROUP_CONFIGURE, GROUP_LIMITS and SHED_POLICY (O41). -/
namespace Sys2Proof.Machine

/-! ### GROUP_CONFIGURE -/

/-- At the Expert level a stopped group takes the images given (R126). -/
theorem specGroupConfigure_images (o : OpenCmd) (d : Dev) (hs : (d.group o.desc.idx).state.stopped = true)
    (hx : o.desc.expert = true) (hfit : d.imagesFit o.desc = true) :
    specGroupConfigure.begin o d =
      let e := d.imaged o.desc
      (e.refreshLimits o.desc.idx).commitAll o.fetch stDone
        [PTU_GRP_TIM.spp e o.desc.idx, PTU_GRP_TIM.pps e o.desc.idx, MA_GRP_SAMP.phase e o.desc.idx] :=
  (if_neg (by simp [hs])).trans ((if_pos hx).trans (if_neg (by simp [hfit])))

/-- The instant that a spread gives a group. -/
def Dev.spreadPhase (d : Dev) (g period : Nat) : Nat :=
  (((d.spreadInstants g period).find? (fun x => x.1 == g)).map (·.2)).getD 0

/-- The other groups at the instants of a spread (R107). -/
def Dev.othersSpread (d : Dev) (g period : Nat) : Dev :=
  forAll (fun (x : Nat × Nat) d => if x.1 = g then d else d.moveInstant x.1 x.2) (d.spreadInstants g period) d

/-- At the Standard level a stopped group is set up from its parameters (R107, R173). -/
theorem specGroupConfigure_places (o : OpenCmd) (d : Dev) (spp pps : Nat)
    (hs : (d.group o.desc.idx).state.stopped = true) (hx : o.desc.expert = false) (hok : d.groupOk o.desc = true)
    (hrate : splitRate (o.desc.num 30 2) (o.desc.num 44 4) = some (spp, pps))
    (hper : periodOk (o.desc.num 30 2) spp pps = true) :
    specGroupConfigure.begin o d =
      let phase := d.spreadPhase o.desc.idx (o.desc.num 30 2)
      (((d.othersSpread o.desc.idx (o.desc.num 30 2)).groupPlaced o.desc spp pps phase).refreshLimits o.desc.idx).commitAll
        o.fetch stDone [spp, pps, phase] := by
  have hfit : d.groupFits o.desc = true := by
    rw [Dev.groupFits, hok, hrate, Bool.true_and]
    exact hper
  refine (if_neg (by simp [hs])).trans ((if_neg (by simp [hx])).trans ?_)
  unfold Dev.groupConfigure
  dsimp only
  rw [hfit, hrate]
  rfl

/-! ### GROUP_LIMITS -/

/-- A limit that is given has its full scale. -/
theorem needs_iff {α : Type} (v : Option α) (fs : Option Nat) : needs v fs = true ↔ (v ≠ none → fs ≠ none) := by
  cases v <;> cases fs <;> simp [needs]

/-- A window in range whatever its full scale, bound by bound. -/
theorem Desc.windowShape_of (p : Desc) (hlo : ∀ a, p.optI 32 4 = some a → 0 ≤ a)
    (hhi : ∀ b, p.optI 36 4 = some b → 0 ≤ b)
    (hle : ∀ a b, p.optI 32 4 = some a → p.optI 36 4 = some b → a ≤ b) : p.windowShape = true := by
  unfold Desc.windowShape
  cases ha : p.optI 32 4 <;> cases hb : p.optI 36 4
  case none.none => rfl
  case none.some b => simpa using hhi b hb
  case some.none a => simpa using hlo a ha
  case some.some a b => simpa using ⟨⟨hlo a ha, hhi b hb⟩, hle a b ha hb⟩

/-- An Expert GROUP_LIMITS gives its words as they stand. -/
theorem Dev.limitWords_expert (d : Dev) (p : Desc) (hx : p.expert = true) : d.limitWords p =
    some ⟨p.num 20 4, p.num 24 4, p.num 28 4, p.int 32 8 * 256, p.int 40 8 * 256, p.int 48 8 * 256⟩ := if_pos hx

/-- A Standard GROUP_LIMITS whose codes fit their fields gives them, over the writes that still wait (R126, R442). -/
theorem Dev.limitWords_standard (d : Dev) (p : Desc) (hx : p.expert = false) (hshape : p.windowShape = true)
    (vmin vmax slew trim : Nat) (h1 : vmin ≤ 65535) (h2 : vmax ≤ 65535) (h3 : slew ≤ 65535) (h4 : trim ≤ 65535)
    (e1 : (vmin : Int) = givenCode (bitsOf (d.waitingWord p.idx (ELE_GRP_VWIN.reg p.idx)) 0 16) (p.optI 32 4)
      (d.voutFs p.idx) 16)
    (e2 : (vmax : Int) = givenCode (bitsOf (d.waitingWord p.idx (ELE_GRP_VWIN.reg p.idx)) 16 16) (p.optI 36 4)
      (d.voutFs p.idx) 16)
    (e3 : (slew : Int) = givenCode (bitsOf (d.waitingWord p.idx (ELE_GRP_SLEW.reg p.idx)) 16 16)
      ((p.opt 40 2).map (fun v => (v : Int))) (some 10000) 16)
    (e4 : (trim : Int) = givenCode (bitsOf (d.waitingWord p.idx (ELE_GRP_SLEW.reg p.idx)) 0 16)
      ((p.opt 42 2).map (fun v => (v : Int))) (d.voutFs p.idx) 16) :
    d.limitWords p = some ⟨d.waitingWord p.idx (ELE_GRP_DLIM.reg p.idx), vmax * 65536 + vmin, slew * 65536 + trim,
      givenTarget (d.target p.idx 1) (p.optI 20 4) (d.icapFs p.idx),
      givenTarget (d.target p.idx 2) ((p.opt 24 4).map (fun v => ((v * 1000000 : Nat) : Int))) (d.pcapFs p.idx),
      givenTarget (d.target p.idx 3) (p.optI 28 4) (d.auxFs p.idx)⟩ := by
  refine (if_neg (by simp [hx])).trans ?_
  rw [← e1, ← e2, ← e3, ← e4]
  refine (if_neg ?_).trans ?_
  · simp [h1, h2, h3, h4, hshape]
  · simp only [Int.toNat_natCast]

/-- A GROUP_LIMITS at the level its parameters allow, its words in range and its target within the new window, writes
them (R112, R118, R126). -/
theorem specGroupLimits_writes (o : OpenCmd) (d : Dev) (w : LimitWords)
    (hready : o.desc.expert = true ∨ d.limitsReady o.desc = true) (hw : d.limitWords o.desc = some w)
    (hfit : d.limitsFit o.desc = true) (hlo : (bitsOf w.vwin 0 16 * 4096 : Nat) ≤ d.target o.desc.idx 0)
    (hhi : d.target o.desc.idx 0 ≤ (bitsOf w.vwin 16 16 * 4096 : Nat)) :
    specGroupLimits.begin o d =
      let g := o.desc.idx
      let regs := [(ELE_GRP_DLIM.reg g, w.dlim), (ELE_GRP_VWIN.reg g, w.vwin), (ELE_GRP_SLEW.reg g, w.slew)]
      let e1 := ((((d.dropWrites g (regs.map (·.1))).setRegs regs).setTarget g 1 w.t1).setTarget g 2 w.t2).setTarget g 3
        w.t3 |>.refreshLimits g
      let e2 := if o.desc.expert then e1.modGroup g (fun x => x.limit 3 w.t3) else e1
      let r := e2.orFree ((e2.icapFs g).map (fun fs => unsignedOf 32 (roundDiv (e2.icapTarget g * (fs : Nat)) (2 ^ 28))))
      r.2.commitAll o.fetch stDone [r.1] := by
  have hgo : ¬ ((!o.desc.expert && !d.limitsReady o.desc) = true) := by
    rcases hready with h | h <;> simp [h]
  have hwin : ¬ (d.target o.desc.idx 0 < (bitsOf w.vwin 0 16 * 4096 : Nat)
      ∨ ((bitsOf w.vwin 16 16 * 4096 : Nat) : Int) < d.target o.desc.idx 0) := by omega
  refine (if_neg hgo).trans ?_
  rw [hfit, hw]
  exact if_neg hwin

/-! ### SHED_POLICY -/

/-- A SHED_POLICY whose image is in range writes it and returns its thresholds in mA (R190). -/
theorem specShedPolicy_writes (o : OpenCmd) (d : Dev) (v : Nat) (hs : d.shedScaled o.desc = true)
    (hv : d.shedImage o.desc = some v) (him : imageOk (PTU_GRP_SHED.reg o.desc.idx) v = true)
    (hlt : bitsOf v 10 8 < bitsOf v 18 8) :
    specShedPolicy.begin o d = d.shedStage o.fetch o.desc.idx v := by
  have hfit : d.shedFits o.desc = true := by simp [Dev.shedFits, hs, hv, him, hlt]
  refine (if_neg (by simp [hs])).trans ?_
  rw [hfit, hv]

/-- The image of a Standard SHED_POLICY: its thresholds as codes of the ICAP full scale over m (R190). -/
theorem Dev.shedImage_standard (d : Dev) (p : Desc) (fs low high : Nat) (hx : p.expert = false)
    (hfs : d.icapFs p.idx = some fs)
    (hl : (low : Int) = p.int 24 4 * 256 * (d.phaseCount p.idx : Int) / (fs : Int))
    (hh : (high : Int) = p.int 28 4 * 256 * (d.phaseCount p.idx : Int) / (fs : Int))
    (hshape : p.shedShape = true) (h1 : low ≤ 255) (h2 : high ≤ 255) :
    d.shedImage p = some (place 31 1 (p.byte 20) + place 26 5 (p.byte 21) + place 18 8 high + place 10 8 low
      + place 2 8 (p.byte 22)) := by
  refine (if_neg (by simp [hx])).trans ?_
  simp only [hfs, Option.getD_some, ← hl, ← hh]
  refine (if_neg ?_).trans ?_
  · simp [hshape]; omega
  · simp only [Int.toNat_natCast]

/-- Settles O41: each accepted command runs its one stage, with what its level gives. -/
theorem groupSettings : Obligations.GroupSettings := by
  intro s c d k g ends
  refine ⟨fun e ha he hs => ⟨fun hx e1 h1 hlen hok hregs => ?images,
      fun hx spp pps phase e1 hok hrate hper hphase h1 => ?places⟩,
    fun e w ha he hxp hst hd hv hsl hdl hvl ht1 ht2 ht3 hlo hhi regs e1 e2 r hregs h1 h2 hr => ?limits,
    fun e v ha he hxp hst him hlt e1 r q h1 hr hq => ?shed⟩
  case images =>
    subst he h1
    refine run_accepted specGroupConfigure c s _ ha (fun _ _ _ _ => rfl)
      (specGroupConfigure_images (d.opened specGroupConfigure c) _ hs hx ?_)
    simp only [Dev.imagesFit, Bool.and_eq_true, decide_eq_true_eq]
    exact ⟨⟨hlen, hok⟩, hregs⟩
  case places =>
    subst he hphase h1
    exact run_accepted specGroupConfigure c s _ ha (fun _ _ _ _ => rfl)
      (specGroupConfigure_places (d.opened specGroupConfigure c) _ spp pps hs hx hok hrate hper)
  case limits =>
    subst hr h2 h1 hregs
    have hgiven : (c.expert = true ∨ e.limitsReady c = true) ∧ e.limitWords c = some w := by
      cases hx : c.expert with
      | true => exact ⟨.inl rfl, (e.limitWords_expert c hx).trans (congrArg some (hxp hx).symm)⟩
      | false =>
        obtain ⟨hi, hp, haux, hvo, ha0, hb0, hab, vmin, vmax, slew, trim, b1, b2, b3, b4, c1, c2, c3, c4, rfl⟩ := hst hx
        have hready : e.limitsReady c = true := by
          simp only [Dev.limitsReady, Bool.and_eq_true, needs_iff]
          refine ⟨⟨⟨⟨⟨⟨hi, hp⟩, fun h => (haux h).1⟩, fun h => hvo (.inl h)⟩, fun h => hvo (.inr (.inl h))⟩,
            fun h => hvo (.inr (.inr h))⟩, ?_⟩
          cases hax : c.optI 28 4 with
          | none => rfl
          | some v => simpa using (haux (by simp [hax])).2
        exact ⟨.inr hready, e.limitWords_standard c hx (c.windowShape_of ha0 hb0 hab) vmin vmax slew trim b1 b2 b3 b4 c1
          c2 c3 c4⟩
    have hfit : e.limitsFit c = true := by
      simp only [Dev.limitsFit, hgiven.2, targetFits, Bool.and_eq_true, decide_eq_true_eq, beq_iff_eq]
      exact ⟨⟨⟨⟨⟨⟨⟨hd, hv⟩, hsl⟩, hdl⟩, hvl⟩, ht1⟩, ht2⟩, ht3⟩
    subst he
    exact run_accepted specGroupLimits c s _ ha (fun _ _ _ _ => rfl)
      (specGroupLimits_writes (d.opened specGroupLimits c) _ w hgiven.1 hgiven.2 hfit hlo hhi)
  case shed =>
    subst hq hr h1
    have hgiven : e.shedScaled c = true ∧ e.shedImage c = some v := by
      cases hx : c.expert with
      | true => exact ⟨by simp [Dev.shedScaled, hx], (if_pos hx).trans (congrArg some (hxp hx).symm)⟩
      | false =>
        obtain ⟨fs, low, high, hfs, hn, hm, hl, hh, h0, hle, b1, b2, p1, p2, p3, p4, rfl⟩ := hst hx
        have hshape : c.shedShape = true := by simp [Desc.shedShape, p1, p2, p3, p4, h0, hle]
        have hscale : e.icapFs c.idx = some fs := hfs
        exact ⟨by simp [Dev.shedScaled, hscale, hn, show e.phaseCount c.idx ≠ 0 from hm],
          e.shedImage_standard c fs low high hx hfs hl hh hshape b1 b2⟩
    subst he
    exact run_accepted specShedPolicy c s _ ha (fun _ _ _ _ => rfl)
      (specShedPolicy_writes (d.opened specShedPolicy c) _ v hgiven.1 hgiven.2 him hlt)

end Sys2Proof.Machine
end

section
/-! COEFF_LOAD, MODEL_LOAD and GROUP_TARGET (O42). -/
namespace Sys2Proof.Machine

/-! ### COEFF_LOAD -/

/-- At the Expert level the codes given wait for the boundary (R126). -/
theorem specCoeffLoad_codes (o : OpenCmd) (d : Dev) (hx : o.desc.expert = true) :
    specCoeffLoad.begin o d = d.atBoundary o.desc.idx (.coeffs o.fetch (o.desc.byte 20)
      ((indices 7).map (fun j => signedOf 24 (o.desc.num (24 + 4 * j) 4))) none) := if_pos hx

/-- The design a Standard COEFF_LOAD gives (R127). -/
def Desc.design (p : Desc) : Design :=
  ⟨p.byte 21 == 3, p.num 24 4, p.num 28 4, p.num 32 4, p.num 36 4, p.num 40 4⟩

/-- At the Standard level the codes of a design that fits wait for the boundary, the a codes returned in the buffer
(R127, R128). -/
theorem specCoeffLoad_designs (o : OpenCmd) (d : Dev) (cs : List Int) (hx : o.desc.expert = false)
    (hord : bitOf (ELE_GRP_CTRL.order d o.desc.idx) (o.desc.byte 20) = (o.desc.byte 21 == 3))
    (hfit : o.desc.design.fits (d.livePeriod o.desc.idx) = true)
    (hcs : o.desc.design.codes (d.livePeriod o.desc.idx) = some cs) :
    specCoeffLoad.begin o d =
      (d.toBuffer o.desc ([4, 5, 6].flatMap (fun j => leBytes (unsignedOf 24 (cs.getD j 0)) 4))).atBoundary o.desc.idx
        (.coeffs o.fetch (o.desc.byte 20) cs (some o.desc.design)) := by
  have hok : ¬ (bitOf (ELE_GRP_CTRL.order d o.desc.idx) (o.desc.byte 20) ≠ (o.desc.byte 21 == 3)
      ∨ o.desc.design.fits (d.livePeriod o.desc.idx) = false) := by simp [hord, hfit]
  unfold Desc.design at *
  refine (if_neg (by simp [hx])).trans ((if_neg hok).trans ?_)
  rw [hcs]

/-! ### MODEL_LOAD -/

/-- The images wait for the boundary in a stopped group, and in a running one where they leave the modes alone (R145). -/
theorem Dev.modelStage_waits (d : Dev) (k g : Nat) (ims : List (Nat × Nat))
    (h : (d.group g).state.stopped = true ∨ d.changesMode g (ims.headD (0, 0)).2 = false) :
    d.modelStage k g ims = d.atBoundary g (.model k ims) := by
  refine if_neg ?_
  rcases h with h | h <;> rw [h] <;> simp

/-- The images that an Expert MODEL_LOAD gives. -/
def Desc.expertImages (p : Desc) : List (Nat × Nat) :=
  (indices 8).map (fun j =>
    ((modelRegs p.idx).getD j 0, imageMerge ((modelRegs p.idx).getD j 0) 0 (p.num (20 + 4 * j) 4)))

theorem specModelLoad_expert (o : OpenCmd) (d : Dev) (hx : o.desc.expert = true) :
    specModelLoad.begin o d = d.modelStage o.fetch o.desc.idx o.desc.expertImages := if_pos hx

/-- At the Standard level the images come from physical parameters, where their full scales are there (R145, R493). -/
theorem specModelLoad_standard (o : OpenCmd) (d : Dev) (vfs ifs n : Nat) (ims : List (Nat × Nat))
    (hx : o.desc.expert = false) (hv : d.voutFs o.desc.idx = some vfs) (hi : d.phaseFs o.desc.idx = some ifs)
    (hn : d.vinConv o.desc.idx = some n) (him : modelImages d o.desc.idx o.desc vfs ifs (d.fsOf n) = some ims) :
    specModelLoad.begin o d = d.modelStage o.fetch o.desc.idx ims := by
  refine (if_neg (by simp [hx])).trans ?_
  rw [hv, hi, hn]
  dsimp only [Option.map_some]
  rw [him]

/-! ### GROUP_TARGET -/

/-- A target within the window that the writes before it leave, at a step that fits, waits for the boundary (R116,
R442). -/
theorem Dev.targetStage_waits (d : Dev) (k g : Nat) (t : Int) (v : Nat)
    (hlo : (bitsOf (d.waitingWord g (ELE_GRP_VWIN.reg g)) 0 16 * 4096 : Nat) ≤ t)
    (hhi : t ≤ (bitsOf (d.waitingWord g (ELE_GRP_VWIN.reg g)) 16 16 * 4096 : Nat)) (hv : v < 2 ^ 32) :
    d.targetStage k g t v =
      let r := d.orFree ((d.voutFs g).map (fun fs => realisedRate v (d.livePeriod g) fs))
      r.2.atBoundary g (.target k t v
        (if (d.group g).state.stopped then v else v / 2 ^ (d.group g).rate.doubled) r.1) := by
  have hwin : windowHolds (d.waitingWord g (ELE_GRP_VWIN.reg g)) t = true := by
    simp only [windowHolds, Bool.and_eq_true, decide_eq_true_eq]
    exact ⟨hlo, hhi⟩
  have hstep : stepFits v = true := decide_eq_true hv
  exact if_neg (by simp [hwin, hstep])

theorem specGroupTarget_expert (o : OpenCmd) (d : Dev) (hx : o.desc.expert = true) :
    specGroupTarget.begin o d = d.targetStage o.fetch o.desc.idx (o.desc.int 20 8 * 256) (o.desc.num 28 4) := if_pos hx

/-- At the Standard level target and rate are fractions of the VOUT full scale (R115, R116). -/
theorem specGroupTarget_standard (o : OpenCmd) (d : Dev) (fs : Nat) (hx : o.desc.expert = false)
    (hv : d.voutFs o.desc.idx = some fs) :
    specGroupTarget.begin o d = d.targetStage o.fetch o.desc.idx (ofScaleI (o.desc.int 20 4) fs 28)
      (rateStep (o.desc.num 24 4) (d.livePeriod o.desc.idx) fs) := by
  refine (if_neg (by simp [hx])).trans ?_
  rw [hv]

/-- Settles O42: each accepted command puts what its level gives to the boundary. -/
theorem groupLoads : Obligations.GroupLoads := by
  intro s c d k g ends
  refine ⟨fun e ha he => ⟨fun hx => ?codes, fun hx x cs hd hord hfit hcs => ?designs⟩,
    fun e ims ha he hxp hst hmode => ?model, fun e t v ha he hxp hst hwin hv r hr => ?target⟩
  case codes =>
    subst he
    exact run_accepted specCoeffLoad c s _ ha (fun _ _ _ _ => rfl)
      (specCoeffLoad_codes (d.opened specCoeffLoad c) _ hx)
  case designs =>
    subst he hd
    exact run_accepted specCoeffLoad c s _ ha (fun _ _ _ _ => rfl)
      (specCoeffLoad_designs (d.opened specCoeffLoad c) _ cs hx hord hfit hcs)
  case model =>
    have hbegin : specModelLoad.begin (d.opened specModelLoad c) e = e.modelStage k g ims := by
      cases hx : c.expert with
      | true => rw [hxp hx]; exact specModelLoad_expert (d.opened specModelLoad c) e hx
      | false =>
        obtain ⟨vfs, ifs, n, hvo, hph, hvi, him⟩ := hst hx
        exact specModelLoad_standard (d.opened specModelLoad c) e vfs ifs n ims hx hvo hph hvi him
    subst he
    exact run_accepted specModelLoad c s _ ha (fun _ _ _ _ => rfl) (hbegin.trans (Dev.modelStage_waits _ k g ims hmode))
  case target =>
    have hbegin : specGroupTarget.begin (d.opened specGroupTarget c) e = e.targetStage k g t v := by
      cases hx : c.expert with
      | true =>
        obtain ⟨rfl, rfl⟩ := hxp hx
        exact specGroupTarget_expert (d.opened specGroupTarget c) e hx
      | false =>
        obtain ⟨fs, hfs, rfl, rfl⟩ := hst hx
        exact specGroupTarget_standard (d.opened specGroupTarget c) e fs hx hfs
    obtain ⟨hlo, hhi⟩ := hwin _ rfl
    subst he hr
    exact run_accepted specGroupTarget c s _ ha (fun _ _ _ _ => rfl)
      (hbegin.trans (Dev.targetStage_waits _ k g t v hlo hhi hv))

end Sys2Proof.Machine
end

section
/-! GROUP_ENABLE and LEG_CONFIGURE (O43). -/
namespace Sys2Proof.Machine

/-! ### GROUP_ENABLE -/

theorem specGroupEnable_on (o : OpenCmd) (d : Dev) (h : o.desc.byte 20 = 1) :
    specGroupEnable.begin o d = d.enableOn o.fetch o.desc.idx := if_pos h

theorem specGroupEnable_off (o : OpenCmd) (d : Dev) (h : o.desc.byte 20 = 0) :
    specGroupEnable.begin o d = d.enableOff o.fetch o.desc.idx := if_neg (by omega)

section
variable (d : Dev) (k g : Nat)

theorem Dev.enableOn_run (h : (d.group g).state = .run) : d.enableOn k g = d.commitAll k stDone [] := by
  simp only [Dev.enableOn, h]

/-- A start in progress is joined (R121). -/
theorem Dev.enableOn_joins (h : (d.group g).state = .starting ∨ (d.group g).state = .softStart) :
    d.enableOn k g = d.joinStart k g := by
  rcases h with h | h <;> simp only [Dev.enableOn, h]

/-- A stopped group that nothing holds off and whose resources are free starts, in place of a waiting restart where there
is one (R121, R150). -/
theorem Dev.enableOn_starts (h : (d.group g).state = .off ∨ (d.group g).state = .faulted)
    (hstop : d.il.stopAll = false) (hslw : d.il.slw = true → d.safetyCrit g = true) (hcan : d.canStart g = true)
    (hfree : d.slotBusy (slotGroup g) = false) : d.enableOn k g =
      if (d.group g).watch.restartAt.isSome then
        (d.modWatch g (fun w => { w with hiccups := 0 })).enterStarting g (some k) false false
      else d.enterStarting g (some k) true false := by
  have hheld : d.slwHoldsGroup g = false := by
    cases hs : d.il.slw with
    | true => simp [Dev.slwHoldsGroup, hslw hs]
    | false => simp [Dev.slwHoldsGroup, hs]
  have hgo : ¬ ((d.il.stopAll || d.slwHoldsGroup g || !d.canStart g || d.slotBusy (slotGroup g)) = true) := by
    simp [hstop, hheld, hcan, hfree]
  rcases h with h | h <;> simp only [Dev.enableOn, h] <;> exact if_neg hgo

/-- GROUP_ENABLE off forgets hiccups and a waiting restart (R150). -/
def Dev.offForgets : Dev := d.modWatch g (fun w => { w with hiccups := 0, restartAt := none })

theorem Dev.enableOff_off (h : (d.group g).state = .off) :
    d.enableOff k g = (d.offForgets g).commitAll k stDone [] := by
  simp only [Dev.enableOff, h]
  rfl

/-- A FAULTED group goes to OFF (Table 4-3). -/
theorem Dev.enableOff_faulted (h : (d.group g).state = .faulted) : d.enableOff k g =
    (((d.offForgets g).modGroup g (fun x => { x with state := .off })).owe (.groupMoved g)).commitAll k stDone [] := by
  simp only [Dev.enableOff, h]
  rfl

/-- A group that switches is stopped (R122). -/
theorem Dev.enableOff_stops (h : (d.group g).state = .softStart ∨ (d.group g).state = .run) :
    d.enableOff k g = (d.offForgets g).enterStopping g k := by
  rcases h with h | h <;> simp only [Dev.enableOff, h] <;> rfl

/-- A group that waits for leave rests, and the commands that started it are superseded (Table 4-3). -/
theorem Dev.enableOff_starting (h : (d.group g).state = .starting) : d.enableOff k g =
    (((((d.offForgets g).modGroup g (fun x => x.rest .off)).release (slotGroup g)).finishAll
      ((d.offForgets g).group g).watch.enables stSuperseded).owe (.groupMoved g)).commitAll k stDone [] := by
  simp only [Dev.enableOff, h]
  rfl

/-- A second off joins the first. -/
theorem Dev.enableOff_joins (h : (d.group g).state = .stopping) : d.enableOff k g =
    ((d.offForgets g).modWatch g (fun w => { w with disables := w.disables ++ [k] })).commit k 1 := by
  simp only [Dev.enableOff, h]
  rfl

end

/-! ### LEG_CONFIGURE -/

/-- Byte 20 chooses the form of LEG_CONFIGURE (Table 15-1). -/
theorem specLegConfigure_configure (o : OpenCmd) (d : Dev) (h : o.desc.byte 20 = 0) :
    specLegConfigure.begin o d = d.legConfigure o := if_pos h

theorem specLegConfigure_park (o : OpenCmd) (d : Dev) (h : o.desc.byte 20 = 1) :
    specLegConfigure.begin o d = d.legPark o.fetch o.desc.idx := (if_neg (by omega)).trans (if_pos h)

theorem specLegConfigure_unpark (o : OpenCmd) (d : Dev) (h : o.desc.byte 20 = 2) :
    specLegConfigure.begin o d = d.legUnpark o := (if_neg (by omega)).trans ((if_neg (by omega)).trans (if_pos h))

theorem specLegConfigure_clear (o : OpenCmd) (d : Dev) (h : o.desc.byte 20 = 3) :
    specLegConfigure.begin o d = d.legClear o.fetch o.desc.idx :=
  (if_neg (by omega)).trans ((if_neg (by omega)).trans (if_neg (by omega)))

/-- The images of a Standard LEG_CONFIGURE: dead times and minimum on-time in steps of 5 ns, the offset as it is (Table
15-3). -/
theorem Dev.legImages_standard (d : Dev) (p : Desc) (hx : p.expert = false) (ha : roundDivN (p.num 24 2) 5 ≤ 254)
    (hb : roundDivN (p.num 26 2) 5 ≤ 254) (hm : roundDivN (p.num 28 2) 5 ≤ 255) :
    d.legImages p = some (place 31 1 (p.byte 21) + place 30 1 (p.byte 21 / 2) + place 29 1 (p.byte 21 / 4)
      + place 16 8 (p.byte 22) + place 8 8 (roundDivN (p.num 28 2) 5) + place 0 8 (p.byte 23),
      place 8 8 (roundDivN (p.num 24 2) 5) + place 0 8 (roundDivN (p.num 26 2) 5), PTU_LEG_OFS.ofs d p.idx) :=
  (if_neg (by simp [hx])).trans (if_neg (by omega))

theorem Dev.legImages_expert (d : Dev) (p : Desc) (hx : p.expert = true) :
    d.legImages p = some (p.num 24 4, p.num 28 4, p.num 32 4) := if_pos hx

/-- Images in range take effect on a leg that does not switch, and the realised dead times are returned (R183). -/
theorem Dev.legConfigure_writes (d : Dev) (o : OpenCmd) (cfg dt ofs : Nat)
    (him : d.legImages o.desc = some (cfg, dt, ofs)) (hc : imageOk (PTU_LEG_CFG.reg o.desc.idx) cfg = true)
    (ht : imageOk (PTU_LEG_DT.reg o.desc.idx) dt = true) (ho : d.offsetOk o.desc.idx (bitsOf ofs 0 20) = true)
    (hstill : (d.leg o.desc.idx).state = .idle ∨ (d.leg o.desc.idx).state = .parked) :
    d.legConfigure o =
      let e := d.setImages [(PTU_LEG_CFG.reg o.desc.idx, cfg), (PTU_LEG_DT.reg o.desc.idx, dt),
        (PTU_LEG_OFS.reg o.desc.idx, ofs)]
      e.commitAll o.fetch stDone [PTU_LEG_DT.dt_a e o.desc.idx * 5000, PTU_LEG_DT.dt_b e o.desc.idx * 5000] := by
  have hfit : d.legFits o.desc = true := by simp [Dev.legFits, him, hc, ht, ho]
  unfold Dev.legConfigure
  rw [hfit, him]
  exact if_neg (fun h => h.2 hstill)

section
variable (d : Dev) (f k q : Nat) (hq : d.groupOfLeg k = some q) (hu : d.upperLeg k = false)
include hq hu

theorem Dev.legPark_parked (hs : (d.leg k).state = .parked) : d.legPark f k = d.commitAll f stDone [] := by
  simp [Dev.legPark, hq, hu, hs]

theorem Dev.legPark_idle (hs : (d.leg k).state = .idle) : d.legPark f k = (d.parkPhase q k 1).commitAll f stDone [] := by
  simp [Dev.legPark, hq, hu, hs]

/-- A phase that switches parks at its next period start, and an unpark of it is superseded (R183, Table 6-3). -/
theorem Dev.legPark_waits (hp : (d.leg k).state ≠ .parked) (hi : (d.leg k).state ≠ .idle) : d.legPark f k =
    (d.modPhase q k (fun l => { l with next := .park ((d.leg k).parks ++ [f]), unpark := none })).finishOpt
      (d.leg k).unpark stSuperseded [] := by
  cases hs : (d.leg k).state
  case parked => exact absurd hs hp
  case idle => exact absurd hs hi
  all_goals simp [Dev.legPark, hq, hu, hs]

theorem Dev.legClear_stopped (hs : (d.group q).state.stopped = true) :
    d.legClear f k = (d.clearHealth q k).commitAll f stDone [] := by
  simp [Dev.legClear, hq, hu, hs]

end

section
variable (d : Dev) (o : OpenCmd) (q : Nat) (hq : d.groupOfLeg o.desc.idx = some q) (hu : d.upperLeg o.desc.idx = false)
  (hs : (d.leg o.desc.idx).state = .parked) (hh : (d.leg o.desc.idx).health ≠ .legOpen)
include hq hu hs hh

/-- In a stopped group a parked phase is IDLE at once (Table 6-3). -/
theorem Dev.legUnpark_stopped (hg : (d.group q).state = .off ∨ (d.group q).state = .faulted) : d.legUnpark o =
    ((d.modPhase q o.desc.idx (fun l => { l with state := .idle, parkCause := 0 })).refreshLimits q).commitAll o.fetch
      stDone [] := by
  rcases hg with hg | hg <;> simp [Dev.legUnpark, hq, hu, hs, hh, hg]

/-- In RUN it asks for the leave that its share of the limit needs (R183, Table 11-2). -/
theorem Dev.legUnpark_asks (hr : o.resumed = false) (hg : (d.group q).state = .run)
    (hb : d.slotBusy (slotLeg o.desc.idx) = false) (hn : (d.leg o.desc.idx).unpark = none) : d.legUnpark o =
      let ms := if o.desc.byte 21 = 0 then PTU_GRP_STOP.join_time d q else o.desc.byte 21
      Dev.request (d.modLeg o.desc.idx (fun l => { l with unpark := some o.fetch, joinMs := ms })) (slotLeg o.desc.idx)
        { rank := d.groupRank q (some o.desc.ring.val), surge := roundDivN (d.icapLimit q) (d.phaseCount q),
          span := ms * 40000, tagged := true } := by
  simp [Dev.legUnpark, hq, hu, hs, hh, hg, hr, hb, hn, ticksPerMs]

end

/-- Settles O43: each form by the equation of the state it meets. -/
theorem groupAndLegCommands : Obligations.GroupAndLegCommands := by
  intro s c d k g ends
  refine ⟨fun e ha he hb => ?on, fun e ha he hb e0 h0 => ?off,
    fun e cfg dt ofs ha he hb hxp hst hcfg hdt hofs hstill e1 h1 => ?configure,
    fun e q ha he hb hq hu => ?park, fun e q ha he hb hq hu hs hh => ?unpark, fun e q ha he hb hq hu hs => ?clear⟩
  case on =>
    have hon : ∀ f, e.enableOn k g = f → exec (.groupEnableOn c) s = ends f := fun f hf =>
      run_accepted specGroupEnable c s f ha (fun _ _ _ _ => rfl)
        ((specGroupEnable_on (d.opened specGroupEnable c) _ hb).trans (he ▸ hf))
    exact ⟨fun h => hon _ (e.enableOn_run k g h), fun h h1 h2 h3 h4 => hon _ (e.enableOn_starts k g h h1 h2 h3 h4),
      fun h => hon _ (e.enableOn_joins k g h)⟩
  case off =>
    have hoff : ∀ f, e.enableOff k g = f → exec (.groupEnableOff c) s = ends f := fun f hf =>
      run_accepted specGroupEnable c s f ha (fun _ _ _ _ => rfl)
        ((specGroupEnable_off (d.opened specGroupEnable c) _ hb).trans (he ▸ hf))
    subst h0
    exact ⟨fun h => hoff _ (e.enableOff_off k g h), fun h => hoff _ (e.enableOff_faulted k g h),
      fun h => hoff _ (e.enableOff_stops k g h), fun h => hoff _ (e.enableOff_starting k g h),
      fun h => hoff _ (e.enableOff_joins k g h)⟩
  case configure =>
    have him : e.legImages c = some (cfg, dt, ofs) := by
      cases hx : c.expert with
      | true => obtain ⟨rfl, rfl, rfl⟩ := hxp hx; exact e.legImages_expert c hx
      | false =>
        obtain ⟨hA, hB, hM, rfl, rfl, rfl⟩ := hst hx
        exact e.legImages_standard c hx hA hB hM
    subst he h1
    exact run_accepted specLegConfigure c s _ ha (fun _ _ _ _ => rfl)
      ((specLegConfigure_configure (d.opened specLegConfigure c) _ hb).trans
        (Dev.legConfigure_writes _ (d.opened specLegConfigure c) cfg dt ofs him hcfg hdt hofs hstill))
  case park =>
    have hpark : ∀ f, e.legPark k g = f → exec (.legPark c) s = ends f := fun f hf =>
      run_accepted specLegConfigure c s f ha (fun _ _ _ _ => rfl)
        ((specLegConfigure_park (d.opened specLegConfigure c) _ hb).trans (he ▸ hf))
    exact ⟨fun h => hpark _ (e.legPark_parked k g q hq hu h), fun h => hpark _ (e.legPark_idle k g q hq hu h),
      fun hp hi => hpark _ (e.legPark_waits k g q hq hu hp hi)⟩
  case unpark =>
    have hunpark : ∀ f, e.legUnpark (d.opened specLegConfigure c) = f → exec (.legUnpark c) s = ends f := fun f hf =>
      run_accepted specLegConfigure c s f ha (fun _ _ _ _ => rfl)
        ((specLegConfigure_unpark (d.opened specLegConfigure c) _ hb).trans (he ▸ hf))
    refine ⟨fun hg => hunpark _ (e.legUnpark_stopped (d.opened specLegConfigure c) q hq hu hs hh hg),
      fun hg hfree hn ms hms => hunpark _ ?_⟩
    subst hms
    exact e.legUnpark_asks (d.opened specLegConfigure c) q hq hu hs hh rfl hg hfree hn
  case clear =>
    subst he
    exact run_accepted specLegConfigure c s _ ha (fun _ _ _ _ => rfl)
      ((specLegConfigure_clear (d.opened specLegConfigure c) _ hb).trans (Dev.legClear_stopped _ k g q hq hu hs))

end Sys2Proof.Machine
end

section
/-! The arithmetic of the regulators (O58). -/
namespace Sys2Proof.Machine

/-- Saturation keeps a value in the Q20.20 range (R103). -/
theorem sat40_bounds (z : Int) : -(2 ^ 39) ≤ sat40 z ∧ sat40 z ≤ 2 ^ 39 - 1 := by
  unfold sat40 clampI
  split_ifs <;> omega

/-- A rounded product, with ties towards +∞ and held in the Q20.20 range (R103). -/
theorem mulQ_eq (a b : Int) : mulQ a b = max (-(2 ^ 39)) (min (2 ^ 39 - 1) ((a * b + 2 ^ 19) / 2 ^ 20)) := by
  have hround : shiftRound (a * b) 20 = (a * b + 2 ^ 19) / 2 ^ 20 := rfl
  unfold mulQ sat40 clampI
  rw [hround]
  split_ifs <;> omega

/-- The terms of a regulator added to an accumulator in turn (R103, R104). -/
def addTerms (ts : List (Int × Int)) (acc : Int × Nat) : Int × Nat :=
  ts.foldl (fun acc t => addSat acc (mulQ t.1 t.2)) acc

/-- The accumulator stays in the Q20.20 range. -/
theorem addTerms_bounds (ts : List (Int × Int)) (acc : Int × Nat) (h : -(2 ^ 39) ≤ acc.1 ∧ acc.1 ≤ 2 ^ 39 - 1) :
    -(2 ^ 39) ≤ (addTerms ts acc).1 ∧ (addTerms ts acc).1 ≤ 2 ^ 39 - 1 := by
  induction ts generalizing acc with
  | nil => exact h
  | cons t ts ih => exact ih _ (sat40_bounds _)

/-- The count of saturated additions never falls. -/
theorem addTerms_count_le (ts : List (Int × Int)) (acc : Int × Nat) : acc.2 ≤ (addTerms ts acc).2 := by
  induction ts generalizing acc with
  | nil => exact le_rfl
  | cons t ts ih => exact (Nat.le_add_right _ _).trans (ih (addSat acc (mulQ t.1 t.2)))

/-- An addition that is not counted as saturated is exact. -/
theorem addSat_exact (acc : Int × Nat) (term : Int) (h : (addSat acc term).2 ≤ acc.2) :
    (addSat acc term).1 = acc.1 + term := by
  simp only [addSat] at h ⊢
  split_ifs at h with hz
  · exact hz
  · omega

/-- Where no addition saturates, the accumulator has moved by the sum of the products. -/
theorem addTerms_exact (ts : List (Int × Int)) (acc : Int × Nat) (h : (addTerms ts acc).2 = acc.2) :
    (addTerms ts acc).1 = acc.1 + (ts.map (fun t => mulQ t.1 t.2)).sum := by
  induction ts generalizing acc with
  | nil => simp [addTerms]
  | cons t ts ih =>
    have hrest : (addTerms ts (addSat acc (mulQ t.1 t.2))).2 = acc.2 := h
    have hle := addTerms_count_le ts (addSat acc (mulQ t.1 t.2))
    have hge : acc.2 ≤ (addSat acc (mulQ t.1 t.2)).2 := Nat.le_add_right _ _
    have hfirst := addSat_exact acc (mulQ t.1 t.2) (by omega)
    calc (addTerms (t :: ts) acc).1 = (addSat acc (mulQ t.1 t.2)).1 + (ts.map (fun t => mulQ t.1 t.2)).sum :=
          ih (addSat acc (mulQ t.1 t.2)) (by omega)
      _ = acc.1 + ((t :: ts).map (fun t => mulQ t.1 t.2)).sum := by
          rw [hfirst, List.map_cons, List.sum_cons, Int.add_assoc]

/-- The terms of R102 in order: those of index 3 at third order alone. -/
def compensatorTerms (third : Bool) (b0 b1 b2 b3 a1 a2 a3 e e1 e2 e3 y1 y2 y3 : Int) : List (Int × Int) :=
  [(b0, e), (b1, e1), (b2, e2)] ++ (if third then [(b3, e3)] else [])
    ++ [(a1, y1), (a2, y2)] ++ (if third then [(a3, y3)] else [])

theorem compensate_eq_addTerms (third : Bool) (b0 b1 b2 b3 a1 a2 a3 e e1 e2 e3 y1 y2 y3 : Int) :
    compensate third [b0, b1, b2, b3, a1, a2, a3] e e1 e2 e3 y1 y2 y3 =
      addTerms (compensatorTerms third b0 b1 b2 b3 a1 a2 a3 e e1 e2 e3 y1 y2 y3) (0, 0) := rfl

/-- Settles O58: the bounds and the exact sum of an accumulator, over the terms of R102. -/
theorem compensatorSumsItsTerms : Obligations.CompensatorSumsItsTerms := by
  intro third b0 b1 b2 b3 a1 a2 a3 e e1 e2 e3 y1 y2 y3 r p
  have hr : r = addTerms (compensatorTerms third b0 b1 b2 b3 a1 a2 a3 e e1 e2 e3 y1 y2 y3) (0, 0) :=
    compensate_eq_addTerms ..
  have hp : ∀ x y, p x y = mulQ x y := fun x y => (mulQ_eq x y).symm
  obtain ⟨hlo, hhi⟩ := addTerms_bounds (compensatorTerms third b0 b1 b2 b3 a1 a2 a3 e e1 e2 e3 y1 y2 y3) (0, 0)
    (by norm_num)
  refine ⟨hr ▸ hhi, hr ▸ hlo, fun h => ?_⟩
  rw [hr, addTerms_exact _ _ (hr ▸ h)]
  simp only [hp]
  cases third <;> simp [compensatorTerms] <;> ring

end Sys2Proof.Machine
end

section
/-! Plant models, saturation, following error and limiting (O24), and the timers of a group (O25). -/
namespace Sys2Proof.Machine

/-! ### The model item and what the supervision of a group tells -/

/-- The lane a model item runs on: the one named where it is scheduled, else the lowest scheduled one (R131). -/
theorem modelLane_eq (d : Dev) (lane l : Nat)
    (h : l = lane ∧ lane ∈ d.scheduledLanes ∨ lane ∉ d.scheduledLanes ∧ d.scheduledLanes.head? = some l) :
    (if d.scheduledLanes.contains lane then some lane else d.scheduledLanes.head?) = some l := by
  rcases h with ⟨rfl, hin⟩ | ⟨hout, hhead⟩
  · exact if_pos (List.contains_iff_mem.mpr hin)
  · exact (if_neg (fun hc => hout (List.contains_iff_mem.mp hc))).trans hhead

/-- After a hand-over the model of a group that computes runs, outside Single-Line Working (R131, R325). -/
theorem modelItem_runs (g : Fin 16) (lane : Fin 6) (l : Nat) (d : Dev) (hr : d.coreRuns = true)
    (hc : d.computes g.val = true) (hready : (d.group g.val).model.ready = true) (hm : d.modelled g.val = true)
    (hl : l = lane.val ∧ lane.val ∈ d.scheduledLanes ∨ lane.val ∉ d.scheduledLanes ∧ d.scheduledLanes.head? = some l) :
    modelItem g lane d = d.runModel g.val l := by
  unfold modelItem
  simp only [modelLane_eq d lane.val l hl]
  exact if_pos (by simp [hr, hc, hready, hm])

/-- A saturated phase whose residual has stayed in its band for 1 s is good again (R141). -/
theorem inductorSatCleared_good (k : Fin 24) (g t : Nat) (d : Dev) (hr : d.coreRuns = true)
    (hg : d.groupOfLeg k.val = some g) (ht : (d.leg k.val).model.inside = some t)
    (hs : (d.leg k.val).health = .saturated) : inductorSatCleared k d =
      ((d.until (t + 40000000)).modPhase g k.val (fun l => { l with health := .good })).refreshLimits g := by
  simp only [inductorSatCleared, hg, ht]
  exact if_pos (by simp [hr, hs])

/-- A following error not yet told is reported when it has lasted fe_time (R146). -/
theorem followingError_reports (g : Fin 16) (t : Nat) (d : Dev) (hr : d.coreRuns = true)
    (ht : (d.group g.val).watch.feSince = some t) (hn : (d.group g.val).watch.feTold = false) : followingError g d =
      ((d.until (t + ELE_FE.fe_time d g.val * 10 * 40)).modWatch g.val (fun w => { w with feTold := true })).report
        (det 0x12 g.val (0x10 + (d.group g.val).watch.lastLane) accCompute (detAddr 0x03 g.val)) := by
  simp only [followingError, ht, hn]
  exact if_pos hr

section
variable (g : Fin 16) (t : Nat) (d : Dev) (hr : d.coreRuns = true) (hp : 0 < ELE_GRP_RATIO.limit_report d g.val)
include hr hp

/-- With limit_report at 0 nothing is told about limiting; above it the timers count. -/
theorem limitReport_counts : ¬ ((!d.coreRuns || ELE_GRP_RATIO.limit_report d g.val * ticksPerMs == 0) = true) := by
  have : ELE_GRP_RATIO.limit_report d g.val * ticksPerMs ≠ 0 := Nat.mul_ne_zero (by omega) (by decide)
  simp [hr, this]

/-- A group that another channel than VREG has held for limit_report ms is told about (R111). -/
theorem groupLimiting_raises (hl : (d.group g.val).watch.limiting = false)
    (ht : (d.group g.val).watch.nonVreg = some t) : groupLimiting g d =
      ((d.until (t + ELE_GRP_RATIO.limit_report d g.val * 40000)).modWatch g.val
        (fun w => { w with limiting := true })).raise 0x0111 clsC g.val (d.group g.val).watch.limWho 0 := by
  refine (if_neg (limitReport_counts g d hr hp)).trans ?_
  simp only [hl, ht]
  rfl

/-- Once VREG has won as long, the next limiting is told about anew (R111). -/
theorem groupLimiting_clears (hl : (d.group g.val).watch.limiting = true)
    (ht : (d.group g.val).watch.vregSince = some t) : groupLimiting g d =
      (d.until (t + ELE_GRP_RATIO.limit_report d g.val * 40000)).modWatch g.val (fun w => { w with limiting := false }) := by
  refine (if_neg (limitReport_counts g d hr hp)).trans ?_
  simp only [hl, ht]
  rfl

end

/-- Settles O24: each command's equation on a running core. -/
theorem modelsAndLimits : Obligations.ModelsAndLimits := by
  intro s hrun d ends
  have hr : d.coreRuns = true := hrun
  refine ⟨fun g lane l hc hready hslw hen hfe hl => ?model, fun k g t hg ht hs => ?saturated, fun g t ht hn => ?following,
    fun g t hp hl ht => ?limited, fun g t hp hl ht => ?freed⟩
  case model =>
    have hm : d.modelled g.val = true := by simp [Dev.modelled, hslw, hen, hfe]
    exact run_settles (modelItem g lane) s _ (modelItem_runs g lane l d hr hc hready hm hl)
  case saturated => exact run_settles (inductorSatCleared k) s _ (inductorSatCleared_good k g t d hr hg ht hs)
  case following => exact run_settles (followingError g) s _ (followingError_reports g t d hr ht hn)
  case limited => exact run_settles (groupLimiting g) s _ (groupLimiting_raises g t d hr hp hl ht)
  case freed => exact run_settles (groupLimiting g) s _ (groupLimiting_clears g t d hr hp hl ht)

/-! ### Timers of a group -/

/-- The group after a change of its watches. -/
theorem Dev.group_modWatch_same (d : Dev) (g : Fin 16) (f : GroupWatch → GroupWatch) :
    (d.modWatch g.val f).group g.val = { d.group g.val with watch := f (d.group g.val).watch } :=
  fileGet_fileMod_same d.groups g.val _ groupReset g.isLt

/-- The passing of time leaves the groups alone. -/
theorem Dev.until_group (d : Dev) (t g : Nat) : (d.until t).group g = d.group g := rfl

section
variable (g : Fin 16) (d : Dev) (hr : d.coreRuns = true)
include hr

/-- A soft start that has lasted ss_timeout is reported, and its group faults with a retry owed (R121, R148). -/
theorem softStartTimeout_faults (hs : (d.group g.val).state = .softStart) : softStartTimeout g d =
    ((d.until ((d.group g.val).watch.ssSince + ELE_GRP_SS.ss_timeout d g.val * 40000)).report
      (det 0x10 g.val (0x10 + (d.group g.val).watch.lastLane) accCompute (detAddr 0x03 g.val))).groupFault g.val true :=
  if_pos (by simp [hr, hs])

/-- The device when the off-time of a hiccup has ended at `t` (R149). -/
def Dev.offTimeEnded (d : Dev) (g t : Nat) : Dev := (d.until t).modWatch g (fun w => { w with restartAt := none })

omit hr in
theorem Dev.offTimeEnded_group (t : Nat) : (d.offTimeEnded g.val t).group g.val =
    { d.group g.val with watch := { (d.group g.val).watch with restartAt := none } } :=
  Dev.group_modWatch_same (d.until t) g _

/-- In STARTING the end of the off-time asks for leave (R149, R494). -/
theorem hiccupOffEnd_asks (t : Nat) (ht : (d.group g.val).watch.restartAt = some t)
    (hs : (d.group g.val).state = .starting) : hiccupOffEnd g d =
      (d.offTimeEnded g.val t).groupAsks g.val (d.group g.val).watch.enables.head? := by
  have hg := Dev.offTimeEnded_group g d t
  unfold Dev.offTimeEnded at *
  simp [hiccupOffEnd, ht, hr, hg, hs]

/-- In FAULTED it restarts the group, where nothing holds an automatic start off (R149, R150). -/
theorem hiccupOffEnd_restarts (t : Nat) (ht : (d.group g.val).watch.restartAt = some t)
    (hs : (d.group g.val).state = .faulted) (hn : (d.offTimeEnded g.val t).noAutoStart g.val = false) :
    hiccupOffEnd g d =
      ((d.offTimeEnded g.val t).modWatch g.val (fun w => { w with hiccups := w.hiccups + 1 })).hiccupStart g.val := by
  have hg := Dev.offTimeEnded_group g d t
  unfold Dev.offTimeEnded at *
  simp [hiccupOffEnd, ht, hr, hg, hs, hn]

/-- Hiccups are forgotten after hiccup_clear in RUN (R150). -/
theorem hiccupClear_forgets (hs : (d.group g.val).state = .run) : hiccupClear g d =
    (d.until ((d.group g.val).watch.runSince + ELE_HICCUP.hiccup_clear d g.val * 10 * 40000)).modWatch g.val
      (fun w => { w with hiccups := 0 }) :=
  if_pos (by simp [hr, hs])

/-- A discharge that has lasted dis_timeout is raised and ends (R195). -/
theorem dischargeTimeout_ends (hd : d.discharging g.val = true) : dischargeTimeout g d =
    ((d.until ((d.group g.val).watch.disSince + PTU_GRP_DIS.dis_timeout d g.val * 40000)).raise 0x0122 clsC g.val 0
      0).endDischarge g.val :=
  if_pos (by simp [hr, hd])

end

/-- Settles O25: each timer's equation in the state it speaks of. -/
theorem groupTimers : Obligations.GroupTimers := by
  intro s g hrun d x ends
  have hr : d.coreRuns = true := hrun
  refine ⟨fun hs => ?softStart, fun t ht => ⟨fun hs => ?asks, fun hs hn => ?restarts⟩, fun hs => ?clear,
    fun hd => ?discharge⟩
  case softStart => exact run_settles (softStartTimeout g) s _ (softStartTimeout_faults g d hr hs)
  case asks => exact run_settles (hiccupOffEnd g) s _ (hiccupOffEnd_asks g d hr t ht hs)
  case restarts => exact run_settles (hiccupOffEnd g) s _ (hiccupOffEnd_restarts g d hr t ht hs hn)
  case clear => exact run_settles (hiccupClear g) s _ (hiccupClear_forgets g d hr hs)
  case discharge => exact run_settles (dischargeTimeout g) s _ (dischargeTimeout_ends g d hr hd)

end Sys2Proof.Machine
end

section
/-! Checks and votes of the lanes (O27), and their self-tests with the steps of the overrun policy (O28). -/
namespace Sys2Proof.Machine

/-! ### Checks -/

/-- With no LANE_CORRUPT armed, an item of a group that computes is re-executed on its checker as it was recorded
(R156, R161), and nothing marks the outcome as injected. -/
theorem checkItem_judges (g : Fin 16) (free : Fin 6) (model differs : Bool) (r : WorkRecord) (c : Nat) (d : Dev)
    (hr : d.coreRuns = true) (hslw : d.il.slw = false) (hrec : d.checkRecord g.val model = some r)
    (hc : d.checkerFor r.lane free.val = some c) (hg : d.computes r.group = true) (hn : d.il.laneCorrupt = none) :
    checkItem g free model differs d = (d.checked r).judgeCheck r c (differs || r.differs false) false := by
  have hopen : ¬ (!d.coreRuns || d.il.slw || (d.sup.queue.isEmpty && !d.computes r.group)) = true := by
    simp [hr, hslw, hg]
  simp only [checkItem, hrec, hc]
  refine (if_neg hopen).trans ?_
  cases r with
  | sample x => simp [hn]
  | model x => rfl

section
variable (d : Dev) (r : WorkRecord) (c : Nat)

/-- A check that agrees counts towards the lane's passes (R159). -/
theorem Dev.judgeCheck_agrees (forced : Bool) :
    d.judgeCheck r c false forced = d.modLane r.lane (fun x => { x with toPass := x.toPass - 1 }) := rfl

/-- The device once checker `c` has found a difference: the lane's passes begin again, and the difference is raised
(R158, R159). -/
def Dev.mismatched : Dev :=
  (d.modLane r.lane (fun x => { x with toPass := if x.toPass = 0 then 0 else 1000 })).raise 0x0118 clsC (16 + c) r.group
    (Config.pair r.lane c % 2 ^ 32)

/-- Where a third lane is healthy, a difference waits for its vote (R158). -/
theorem Dev.judgeCheck_waits (h : 3 ≤ (d.mismatched r c).healthyLanes.length) : d.judgeCheck r c true false =
    { d.mismatched r c with sup := { (d.mismatched r c).sup with
      votes := (d.mismatched r c).sup.votes ++ [⟨r.group, r.lane, c, (d.mismatched r c).core.uptime, false⟩] } } :=
  if_pos h

/-- With fewer than three healthy lanes no vote can be had, and it fails at once (R158). -/
theorem Dev.judgeCheck_fails (h : (d.mismatched r c).healthyLanes.length < 3) :
    d.judgeCheck r c true false = (d.mismatched r c).voteFail [r.lane, c] :=
  if_neg (Nat.not_le.mpr h)

end

/-! ### Votes -/

section
variable (v : Vote) (rest : List Vote) (d : Dev) (hr : d.coreRuns = true) (hv : d.sup.votes = v :: rest)

/-- The device without the votes before `rest`. -/
def Dev.withVotes (d : Dev) (rest : List Vote) : Dev := { d with sup := { d.sup with votes := rest } }

/-- What a vote of lane `third` does to the lanes it convicts (R158). -/
def Dev.convicted (d : Dev) (v : Vote) (third : Nat) : Agreement → Dev
  | .ran => d.strike v.checker
  | .checker => d.strike v.ran
  | .neither => (((d.strike v.ran).strike v.checker).strike third).voteFail [v.ran, v.checker, third]

include hr hv

/-- The oldest vote, of no injection, runs on a scheduled lane that is neither of the two it compares (R158). -/
theorem voteItem_convicts (third : Fin 6) (agrees : Agreement) (hslw : d.il.slw = false) (h1 : third.val ≠ v.ran)
    (h2 : third.val ≠ v.checker) (hs : (d.lane third.val).state = .scheduled) (hf : v.forced = false) :
    voteItem third agrees d = (d.withVotes rest).convicted v third.val agrees := by
  have hopen : ¬ (!d.coreRuns || d.il.slw || third.val == v.ran || third.val == v.checker
      || (d.lane third.val).state != .scheduled) = true := by simp [hr, hslw, h1, h2, hs]
  simp only [voteItem, hv]
  refine (if_neg hopen).trans ?_
  cases agrees <;> simp only [hf] <;> rfl

/-- A vote that has not run within 1 ms fails (R158). -/
theorem voteDropped_fails :
    voteDropped d = ((d.until (v.since + 40000)).withVotes rest).voteFail [v.ran, v.checker] := by
  simp only [voteDropped, hv]
  exact if_pos hr

end

/-! ### Late checks and old strikes -/

/-- A group that computes and has an item unchecked for four check periods is raised, once (R156). -/
theorem shadowLate_raises (g : Fin 16) (d : Dev) (hr : d.coreRuns = true) (hslw : d.il.slw = false)
    (hg : d.computes g.val = true) (ht : (d.group g.val).watch.lateTold = false) : shadowLate g d =
      let w := (d.group g.val).watch
      let oldest := if d.modelled g.val then min w.lastCheck w.lastModel else w.lastCheck
      ((d.until (oldest + 4 * ELE_LANE_CTRL.check_period d * 40)).modWatch g.val
        (fun w => { w with lateTold := true })).raise 0x0119 clsC g.val 0 0 :=
  if_pos (by simp [hr, hslw, hg, ht])

/-- When the oldest strike of a lane leaves its window, the strikes still in it stay (R159). -/
theorem strikeForgotten_forgets (l : Fin 6) (t : Nat) (d : Dev) (hr : d.coreRuns = true)
    (ht : (d.lane l.val).strikes.getLast? = some t) : strikeForgotten l d =
      let e := d.until (t + ELE_LANE_CTRL.strike_window d * 40000000)
      e.modLane l.val (fun x => { x with strikes := e.liveStrikes l.val }) := by
  simp only [strikeForgotten, ht]
  exact if_pos hr

/-- Settles O27: a check, a vote and each timer by its own equation on a running core. -/
theorem checksAndVotes : Obligations.ChecksAndVotes := by
  intro s hrun d ends
  have hr : d.coreRuns = true := hrun
  refine ⟨fun g free model differs r c hslw hrec hc hg hn => ?check, fun v rest hv => ⟨fun third hslw h1 h2 hs hf => ?vote,
    ?dropped⟩, fun g hslw hg ht => ?late, fun l t ht => ?forgotten⟩
  case check =>
    have hj := checkItem_judges g free model differs r c d hr hslw hrec hc hg hn
    have hends : ∀ bad e, (differs || r.differs false) = bad → (d.checked r).judgeCheck r c bad false = e →
        exec (.checkItem g free model differs) s = ends e := fun bad e hbad he =>
      run_settles (checkItem g free model differs) s e (hj.trans (hbad ▸ he))
    exact ⟨fun hbad => hends false _ hbad (Dev.judgeCheck_agrees _ r c false),
      fun hbad h3 => hends true _ hbad (Dev.judgeCheck_waits _ r c h3),
      fun hbad h3 => hends true _ hbad (Dev.judgeCheck_fails _ r c h3)⟩
  case vote =>
    have hends : ∀ agrees, exec (.voteItem third agrees) s = ends ((d.withVotes rest).convicted v third.val agrees) :=
      fun agrees => run_settles (voteItem third agrees) s _ (voteItem_convicts v rest d hr hv third agrees hslw h1 h2 hs hf)
    exact ⟨hends .ran, hends .checker, hends .neither⟩
  case dropped => exact run_settles voteDropped s _ (voteDropped_fails v rest d hr hv)
  case late => exact run_settles (shadowLate g) s _ (shadowLate_raises g d hr hslw hg ht)
  case forgotten => exact run_settles (strikeForgotten l) s _ (strikeForgotten_forgets l t d hr ht)

/-! ### Lane self-tests -/

section
variable (l : Fin 6) (d : Dev) (hr : d.coreRuns = true) (ht : (d.lane l.val).state = .testing)

/-- Lane `l` back from its self-test: as the spare only where it was, and only while six lanes are healthy (R151). -/
def Dev.laneReturned (d : Dev) (l : Nat) : Dev :=
  let back : LaneState := if (d.lane l).back = .spare ∧ d.healthyLanes.length = 6 then .spare else .scheduled
  d.modLane l (fun x => { x with state := back, cause := 0, health := 0 })

include hr ht

/-- A lane that fails its self-test retires with cause 3 (R151, R153). -/
theorem laneSelfTestDone_fails : laneSelfTestDone l false d = d.retireLane l.val 3 := by
  simp [laneSelfTestDone, hr, ht]

/-- A lane that passes returns; its health in MRAM is written where it had one to clear, and what waited for the test
goes on (R151, R152). -/
theorem laneSelfTestDone_passes : laneSelfTestDone l true d =
    (if (d.lane l.val).health = 0 then d.laneReturned l.val
      else (d.laneReturned l.val).wroteLearned.stored 0x14 l.val).owe .laneTested := by
  have hopen : ¬ (!d.coreRuns || (d.lane l.val).state != .testing) = true := by simp [hr, ht]
  exact if_neg hopen

end

/-! ### Steps of the overrun policy -/

/-- With no overrun of late, the policy takes a step when the load has been high for step_up since the last (R164). -/
theorem escalationStep_escalates (t : Nat) (d : Dev) (hr : d.coreRuns = true) (hslw : d.il.slw = false)
    (ho : d.sup.overrunAt = none) (ht : d.sup.highSince = some t) : escalationStep d =
      (d.until (max t d.sup.stepAt + ELE_OVR_CFG.step_up d * 10 * 40)).escalateOnce := by
  simp [escalationStep, hr, hslw, ho, ht, ticksPerUs]

/-- It undoes one when the load has been low, and no overrun seen, for step_down since the last (R167). -/
theorem restoringStep_restores (t : Nat) (d : Dev) (hr : d.coreRuns = true) (hslw : d.il.slw = false)
    (ht : d.sup.lowSince = some t) : restoringStep d =
      (d.until (max (max t (d.sup.overrunAt.getD 0)) d.sup.restoreAt + ELE_OVR_CFG.step_down d * 40000)).restoreOnce := by
  simp [restoringStep, hr, hslw, ht, ticksPerMs]

/-- Settles O28: a self-test by its outcome and the lane's stored health, and the two steps by their equations. -/
theorem laneTestsAndOverrunSteps : Obligations.LaneTestsAndOverrunSteps := by
  intro s hrun d ends
  have hr : d.coreRuns = true := hrun
  refine ⟨fun l ht => ⟨?failed, fun hh => ?sound, fun hh => ?cleared⟩, fun t hslw ho ht => ?up, fun t hslw ht => ?down⟩
  case failed => exact run_settles (laneSelfTestDone l false) s _ (laneSelfTestDone_fails l d hr ht)
  case sound =>
    exact run_settles (laneSelfTestDone l true) s _
      ((laneSelfTestDone_passes l d hr ht).trans (congrArg (fun e : Dev => e.owe .laneTested) (if_pos hh)))
  case cleared =>
    exact run_settles (laneSelfTestDone l true) s _
      ((laneSelfTestDone_passes l d hr ht).trans (congrArg (fun e : Dev => e.owe .laneTested) (if_neg hh)))
  case up => exact run_settles escalationStep s _ (escalationStep_escalates t d hr hslw ho ht)
  case down => exact run_settles restoringStep s _ (restoringStep_restores t d hr hslw ht)

end Sys2Proof.Machine
end

section
/-! Shedding, parking and the load points of a phase (O26). -/
namespace Sys2Proof.Machine

/-! ### Period starts -/

/-- An instant of a grid is its first instant and a whole number of spans, never fewer than none (R65, R172). -/
theorem gridInstant_multiple (first span now : Int) (last : Option Int) :
    ∃ n : Nat, gridInstant first span now last = first + span * n := by
  have hmult : ∀ m : Int, ∃ n : Nat, first + span * max 0 m = first + span * n :=
    fun m => ⟨m.toNat, by rw [Int.toNat_eq_max, max_comm]⟩
  cases last with
  | none => exact hmult _
  | some t =>
    dsimp only [gridInstant]
    split
    · exact hmult _
    · exact hmult _

/-- A phase's next period start is a multiple of the period after its offset (R172). -/
theorem Dev.nextStart_multiple (d : Dev) (p per offset : Nat) :
    ∃ n : Nat, (d.nextStart p per offset).toNat = offset + n * per := by
  obtain ⟨n, hn⟩ := gridInstant_multiple offset per d.edgeNow ((d.leg p).startAt.map (fun s => ((s + per / 2 : Nat) : Int)))
  refine ⟨n, (congrArg Int.toNat hn).trans ?_⟩
  rw [Nat.mul_comm]
  exact Int.toNat_natCast (offset + per * n)

/-- A change of a phase changes the leg that names it once, as the upper leg of a pair is another leg. -/
theorem Dev.leg_modPhase_same (d : Dev) (g : Nat) (k : Fin 24) (f : Leg → Leg) :
    (d.modPhase g k.val f).leg k.val = f (d.leg k.val) := by
  have hone : (d.modLeg k.val f).leg k.val = f (d.leg k.val) := fileGet_fileMod_same d.legs k.val f default k.isLt
  have hupper : ((d.modLeg k.val f).modLeg (k.val + 1) f).leg k.val = (d.modLeg k.val f).leg k.val :=
    fileGet_fileMod_other _ (k.val + 1) k.val f default (by omega)
  unfold Dev.modPhase Dev.legsOfPhase
  split
  · exact hupper.trans hone
  · exact hone

/-- At a period start the leg's offset has moved and its period starts at a multiple of the period after it (R172, R187). -/
theorem Dev.startPeriod_leg (d : Dev) (g : Nat) (k : Fin 24) (hper : 0 < (d.group g).rate.switchPeriod) :
    let per := (d.group g).rate.switchPeriod
    let o := moveOffset (d.leg k.val).offset (d.leg k.val).target per
    ∃ n : Nat, ((d.startPeriod g k.val).leg k.val).startAt = some (o + n * per) ∧
      ((d.startPeriod g k.val).leg k.val).offset = o := by
  intro per o
  obtain ⟨n, hn⟩ := d.nextStart_multiple k.val per o
  have hleg : (d.startPeriod g k.val).leg k.val =
      { d.leg k.val with startAt := some (d.nextStart k.val per o).toNat, half := false, offset := o } := by
    unfold Dev.startPeriod
    exact (congrArg (fun e : Dev => e.leg k.val) (if_neg (Nat.pos_iff_ne_zero.mp hper))).trans
      (Dev.leg_modPhase_same _ g k _)
  exact ⟨n, (congrArg Leg.startAt hleg).trans (congrArg some hn), congrArg Leg.offset hleg⟩

/-! ### Load points -/

section
variable (k : Fin 24) (young : Bool) (d : Dev)

/-- The upper leg of a pair has no load points of its own: its lower leg's serve both (R172, R178). -/
theorem loadPoint_upper (centre : Bool) (hk : k.val ≠ d.phaseOfLeg k.val) : loadPoint k centre young d = d := by
  unfold loadPoint
  split
  · exact if_pos hk
  · rfl

variable (g : Nat) (hr : d.coreRuns = true) (hg : d.groupOfLeg k.val = some g) (hk : k.val = d.phaseOfLeg k.val)
include hr hg hk

/-- What a phase does at its period start (R178, R179, R193, Table 6-3). -/
theorem loadPoint_start : loadPoint k false young d =
    (((((forAll (fun j d => d.legSettings j) (d.legsOfPhase g k.val) (d.startPeriod g k.val)).countCycles g
      k.val).pastFirst g k.val).takeNext g k.val young).joinDone g k.val).phaseEdges g k.val young false := by
  simp only [loadPoint, hr, hg]
  exact if_neg (not_not_intro hk)

/-- With PTU_GRP_TIM.load the centre of each period is a load point, once (R178). -/
theorem loadPoint_centre (hl : PTU_GRP_TIM.load d g = 1) (hs : (d.leg k.val).startAt.isSome = true)
    (hh : (d.leg k.val).half = false) :
    loadPoint k true young d = ((d.reachCentre g k.val).joinDone g k.val).phaseEdges g k.val young true := by
  have hopen : PTU_GRP_TIM.load d g = 1 ∧ (d.leg k.val).startAt.isSome = true ∧ (d.leg k.val).half = false := ⟨hl, hs, hh⟩
  simp only [loadPoint, hr, hg]
  exact (if_neg (not_not_intro hk)).trans (if_pos hopen)

end

/-! ### Shedding and parking -/

/-- A group with a light load sheds its choice at the next period start, and the dwell begins again (R188). -/
theorem shedDwellEnd_sheds (g : Fin 16) (p : Nat) (d : Dev) (hr : d.coreRuns = true) (hs : (d.group g.val).state = .run)
    (he : PTU_GRP_SHED.shed_en d g.val = 1)
    (hm : PTU_GRP_SHED.min_ph d g.val + ((d.phasesOf g.val).filter (fun p => (d.leg p).next == .shed)).length
      < (d.activePhases g.val).length)
    (hl : d.lightLoad g.val = true) (hp : d.shedChoice g.val = some p) : shedDwellEnd g d =
      let e := d.until ((d.group g.val).watch.shedSince + PTU_GRP_SHED.shed_dwell d g.val * 40000)
      (e.modPhase g.val p (fun l => { l with next := .shed })).modWatch g.val
        (fun w => { w with shedSince := e.core.uptime }) := by
  simp only [shedDwellEnd, hp]
  exact if_pos (by simp [hr, hs, he, hm, hl])

/-- An idle leg with auto-parking, its driver absent for the park_time in force, is parked with its phase (Table 6-3,
R179, R183). -/
theorem parkTimeExpiry_parks (k : Fin 24) (g t : Nat) (d : Dev) (hr : d.coreRuns = true)
    (hg : d.groupOfLeg k.val = some g) (ht : (d.leg k.val).absent = some t) (hs : (d.leg k.val).state = .idle)
    (ha : (d.leg k.val).parkAuto = true) : parkTimeExpiry k d =
      (d.until (t + (d.leg k.val).parkTime * 40000)).parkPhase g (d.phaseOfLeg k.val) 2 := by
  simp only [parkTimeExpiry, hg, ht]
  exact if_pos (by simp [hr, hs, ha])

/-- Settles O26: the shed and the park by their equations, the load points by what a phase does at each of them, and the
period start by the grid it lies on. -/
theorem phaseTiming : Obligations.PhaseTiming := by
  intro s hrun d ends
  have hr : d.coreRuns = true := hrun
  refine ⟨fun g p hs he hm hl hp => ?shed, fun k g t hg ht hs ha => ?park, fun k young hk centre => ?upper,
    fun k g young hg hk => ⟨fun hper => ?onGrid, ?start, fun hl hs hh => ?centre⟩⟩
  case shed => exact run_settles (shedDwellEnd g) s _ (shedDwellEnd_sheds g p d hr hs he hm hl hp)
  case park => exact run_settles (parkTimeExpiry k) s _ (parkTimeExpiry_parks k g t d hr hg ht hs ha)
  case upper => exact run_settles (loadPoint k centre young) s _ (loadPoint_upper k young d centre hk)
  case onGrid => exact d.startPeriod_leg g k hper
  case start => exact run_settles (loadPoint k false young) s _ (loadPoint_start k young d g hr hg hk)
  case centre => exact run_settles (loadPoint k true young) s _ (loadPoint_centre k young d g hr hg hk hl hs hh)

end Sys2Proof.Machine
end

section
/-! FEED_CONFIGURE, FEED_SWITCH and FEED_SHARE (O45), and the timers of the feeds with the share period (O29). -/
namespace Sys2Proof.Machine

/-! ### FEED_CONFIGURE -/

section
variable (d : Dev) (p : Desc)

/-- At the Expert level the images follow the registers, and the code is the word after them (R201). -/
theorem Dev.feedGiven_expert (hx : p.expert = true) :
    d.feedGiven p = some (p.images (feedRegs p.idx), p.bufWord 9) := if_pos hx

/-- At the Standard level the code is that of the reverse trip current after the field list (R201). -/
theorem Dev.feedGiven_standard (ims : List (Nat × Nat)) (hx : p.expert = false) (hfs : d.fsOf (40 + p.idx) ≠ 0)
    (him : standardImages (d.feedConv p.idx) d.reg 0 p.given (fieldList (feedRegs p.idx)) [] = some ims) :
    d.feedGiven p = some (ims, p.bufWord (fieldList (feedRegs p.idx)).length * 1024 / d.fsOf (40 + p.idx)) := by
  refine (if_neg (by simp [hx])).trans ?_
  rw [him, if_neg hfs]
  rfl

/-- What a FEED_CONFIGURE gives fits: its words are all there, its fields and pairs of fields in range, and its code is 1
to 1023 (R201, R394, R395). -/
theorem Dev.feedFits_iff (ims : List (Nat × Nat)) (code : Nat) (hg : d.feedGiven p = some (ims, code)) :
    d.feedFits p = true ↔
      4 * ((if p.expert then 9 else (fieldList (feedRegs 0)).length) + 1) ≤ p.length.toNat ∧
      (p.expert = true → imagesOk ims = true) ∧
      (d.setImages ims).feedRegsOk p.idx (p.gives (fieldList (feedRegs p.idx))) = true ∧ 1 ≤ code ∧ code ≤ 1023 := by
  have himages : p.imagesFit ims = true ↔ (p.expert = true → imagesOk ims = true) := by
    cases hx : p.expert <;> simp [Desc.imagesFit, hx]
  simp only [Dev.feedFits, hg, Bool.and_eq_true, decide_eq_true_eq, himages, and_assoc]

end

/-- On a stopped feed what a FEED_CONFIGURE gives takes effect where it fits (R202). -/
theorem specFeedConfigure_configures (o : OpenCmd) (d : Dev) (ims : List (Nat × Nat)) (code : Nat)
    (hs : (d.feed o.desc.idx).state.stopped = true) (hg : d.feedGiven o.desc = some (ims, code))
    (hfit : d.feedFits o.desc = true) :
    specFeedConfigure.begin o d = d.feedConfigured o.fetch o.desc.idx code ims := by
  refine (if_neg (by simp [hs])).trans ?_
  rw [hg]
  exact if_pos hfit

/-! ### FEED_SWITCH -/

theorem specFeedSwitch_on (o : OpenCmd) (d : Dev) (h : o.desc.byte 20 = 1) :
    specFeedSwitch.begin o d = d.feedSwitchOn o.fetch o.desc.idx := if_pos h

theorem specFeedSwitch_off (o : OpenCmd) (d : Dev) (h : o.desc.byte 20 = 0) :
    specFeedSwitch.begin o d = d.feedSwitchOff o.fetch o.desc.idx := if_neg (by omega)

section
variable (d : Dev) (k f : Nat)

/-- Command `k` joins those that wait for feed `f` to be ON (R203). -/
def Dev.joinFeed : Dev := d.modFeed f (fun x => { x with cmds := x.cmds ++ [k] })

/-- It joins with the feed's retries forgotten (R211). -/
def Dev.joinFeedAnew : Dev := (d.modFeed f (fun x => { x with retries := 0 })).joinFeed k f

/-- As `joinFeedAnew`, and the start may wait for the end of the hold-off (R203). -/
def Dev.joinFeedWaiting : Dev := (d.joinFeedAnew k f).modFeed f (fun x => { x with wanted := true })

/-- A feed in ON or BLOCKED is on already (R203). -/
theorem Dev.feedSwitchOn_closed (h : (d.feed f).state = .on ∨ (d.feed f).state = .blocked) :
    d.feedSwitchOn k f = d.commitAll k stDone [] := by
  rcases h with h | h <;> simp only [Dev.feedSwitchOn, h]

/-- In INRUSH the command joins the start with its first two stages committed (R203, R207). -/
theorem Dev.feedSwitchOn_inrush (h : (d.feed f).state = .inrush) :
    d.feedSwitchOn k f = (d.joinFeed k f).commit k 2 := by
  simp only [Dev.feedSwitchOn, h]
  rfl

/-- In STARTING it joins, with its first stage committed where leave is held (R203, R207). -/
theorem Dev.feedSwitchOn_starting (h : (d.feed f).state = .starting) : d.feedSwitchOn k f =
    if (d.slot (slotFeed f)).state = .holding then (d.joinFeed k f).commit k 1 else d.joinFeed k f := by
  simp only [Dev.feedSwitchOn, h]
  rfl

section
variable (hready : d.feedReady f = true) (hstarts : d.noStarts = false)
include hready hstarts

/-- An OFF feed starts, or waits in TRIPPED for the rest of a stored hold-off (Table 7-1). -/
theorem Dev.feedSwitchOn_off (h : (d.feed f).state = .off) (hfree : d.slotBusy (slotFeed f) = false) :
    d.feedSwitchOn k f = if 0 < d.holdLeft (d.feed f).hold then (d.joinFeedWaiting k f).feedEnter f .tripped
      else (d.joinFeedAnew k f).feedStart f .fresh := by
  simp only [Dev.feedSwitchOn, h]
  exact if_neg (by simp [hready, hstarts, hfree])

/-- A TRIPPED feed restarts as soon as it may (R203). -/
theorem Dev.feedSwitchOn_tripped (h : (d.feed f).state = .tripped) :
    d.feedSwitchOn k f = (d.joinFeedWaiting k f).feedRetry f := by
  simp only [Dev.feedSwitchOn, h]
  exact if_neg (by simp [hready, hstarts])

/-- A LOCKED feed starts anew (Table 7-1). -/
theorem Dev.feedSwitchOn_locked (h : (d.feed f).state = .locked) (hfree : d.slotBusy (slotFeed f) = false) :
    d.feedSwitchOn k f = (d.joinFeedAnew k f).feedStart f .fresh := by
  simp only [Dev.feedSwitchOn, h]
  exact if_neg (by simp [hready, hstarts, hfree])

end

end

/-! ### FEED_SHARE -/

/-- The current full scale of the feeds a FEED_SHARE names, 0 where it names none. -/
def Dev.shareCurrentFs (d : Dev) (p : Desc) : Nat := ((shareNamed p).map (fun f => d.scaleOf (some (40 + f)))).headD 0

/-- Their voltage full scale. -/
def Dev.shareVoltageFs (d : Dev) (p : Desc) : Nat := ((shareNamed p).map d.shareVfs).headD 0

section
variable (d : Dev) (p : Desc)

/-- At the Expert level the image is given, but for its en (Table 15-4). -/
theorem Dev.shareImage_expert (hx : p.expert = true) :
    d.shareImage p = (putBit (p.num 24 4) 31 (p.byte 20 == 1), d) := by
  simp [Dev.shareImage, hx]

/-- At the Standard level ki and step are those of R215, free values where no feed is named. -/
theorem Dev.shareImage_standard (per : Nat) (ki st : Nat × Dev) (hx : p.expert = false)
    (hper : per = roundDivN (p.num 24 4) 10) (hle : per ≤ 255)
    (hki : ki = d.orFree (if (shareNamed p).isEmpty then none
      else some (roundDivN (p.num 28 4 * per * d.shareCurrentFs p * 4096) (100000000 * d.shareVoltageFs p))))
    (hst : st = ki.2.orFree (if (shareNamed p).isEmpty then none
      else some (roundDivN (p.num 32 4 * per * 65536) (100000 * d.shareVoltageFs p)))) :
    d.shareImage p =
      (putBit (per * 65536 + oneToByte ki.1 * 256 + oneToByte st.1) 31 (p.byte 20 == 1), st.2) := by
  subst hst hki hper
  unfold Dev.shareImage
  dsimp only
  rw [if_neg (by simp [hx]), if_neg (Nat.not_lt.mpr hle)]
  rfl

/-- Members with one current and one voltage full scale fit, with an image in range (R214). -/
theorem Dev.shareFits_of (w : Nat) (e : Dev) (him : d.shareImage p = (w, e)) (hen : p.byte 20 ≤ 1)
    (hi : allSame ((shareNamed p).map (fun f => d.scaleOf (some (40 + f)))) = true)
    (hv : allSame ((shareNamed p).map d.shareVfs) = true) (h0 : ((shareNamed p).map d.shareVfs).contains 0 = false)
    (hw : imageOk (FC_SHARE.reg p.idx) w = true) : d.shareFits p = true := by
  unfold Dev.shareFits
  dsimp only
  rw [him, hi, hv, h0, hw]
  simpa using hen

end

/-- The feeds `ms` are the members of set `s`, and those it had besides are members of none (Table 15-4). -/
def Dev.withMembers (d : Dev) (s : Nat) (ms : List Nat) : Dev :=
  forAll (fun f d => if ms.contains f then d.setField (FC_CTRL.reg f) 18 2 (s + 1)
    else if FC_CTRL.share_set d f = s + 1 then d.setField (FC_CTRL.reg f) 18 2 0 else d) (indices 4) d

/-- A FEED_SHARE that fits writes its word and its members, and returns the realised gain and step (R214, R215). -/
theorem specFeedShare_writes (o : OpenCmd) (d e1 : Dev) (w : Nat) (him : d.shareImage o.desc = (w, e1))
    (hfit : d.shareFits o.desc = true) :
    specFeedShare.begin o d =
      let ms := shareNamed o.desc
      let g := ((e1.setImage (FC_SHARE.reg o.desc.idx) w).withMembers o.desc.idx ms).orFree (if ms.isEmpty then none
        else some (roundDivN (bitsOf w 8 8 * d.shareVoltageFs o.desc * 100000000)
          (bitsOf w 16 8 * d.shareCurrentFs o.desc * 4096)))
      let r := g.2.orFree (if ms.isEmpty then none
        else some (roundDivN (bitsOf w 0 8 * d.shareVoltageFs o.desc * 100000) (bitsOf w 16 8 * 65536)))
      r.2.commitAll o.fetch stDone [g.1, r.1] := by
  refine (if_neg (by simp [hfit])).trans ?_
  rw [him]
  rfl

/-- Settles O45: FEED_CONFIGURE and FEED_SHARE by what their level gives, FEED_SWITCH by the state of its feed. -/
theorem feedCommands : Obligations.FeedCommands := by
  intro s c d k f ends
  refine ⟨fun e ims code ha he hs hxp hst hlen hok hregs h1 h2 e1 he1 => ?configure, fun e ha he hb => ?on,
    fun e ha he hb => ?off,
    fun e e1 e2 ms i v per ki st w g r ha he hms hi hv hsi hsv h0 hxp hst hen hw he2 hg hr => ?share⟩
  case configure =>
    have hgiven : e.feedGiven c = some (ims, code) := by
      cases hx : c.expert with
      | true => obtain ⟨rfl, rfl⟩ := hxp hx; exact e.feedGiven_expert c hx
      | false => obtain ⟨him, hfs, rfl⟩ := hst hx; exact e.feedGiven_standard c ims hx hfs him
    have hfit : e.feedFits c = true := (e.feedFits_iff c ims code hgiven).mpr ⟨hlen, hok, hregs, h1, h2⟩
    subst he he1
    exact run_accepted specFeedConfigure c s _ ha (fun _ _ _ _ => rfl)
      (specFeedConfigure_configures (d.opened specFeedConfigure c) _ ims code hs hgiven hfit)
  case on =>
    have hon : ∀ x, e.feedSwitchOn k f = x → exec (.feedSwitchOn c) s = ends x := fun x hx =>
      run_accepted specFeedSwitch c s x ha (fun _ _ _ _ => rfl)
        ((specFeedSwitch_on (d.opened specFeedSwitch c) _ hb).trans (he ▸ hx))
    refine ⟨fun h => hon _ (e.feedSwitchOn_closed k f h), fun e1 e2 he1 he2 => ?_⟩
    subst he1 he2
    exact ⟨fun h => hon _ (e.feedSwitchOn_inrush k f h), fun h => hon _ (e.feedSwitchOn_starting k f h),
      fun hready hstarts => ⟨fun h hfree => hon _ (e.feedSwitchOn_off k f hready hstarts h hfree),
        fun h => hon _ (e.feedSwitchOn_tripped k f hready hstarts h),
        fun h hfree => hon _ (e.feedSwitchOn_locked k f hready hstarts h hfree)⟩⟩
  case off =>
    subst he
    exact run_accepted specFeedSwitch c s _ ha (fun _ _ _ _ => rfl)
      (specFeedSwitch_off (d.opened specFeedSwitch c) _ hb)
  case share =>
    subst hms hi hv
    have him : e.shareImage c = (w, e1) := by
      cases hx : c.expert with
      | true => obtain ⟨rfl, rfl⟩ := hxp hx; exact e1.shareImage_expert c hx
      | false =>
        obtain ⟨hper, hle, hki, hstep, rfl, rfl⟩ := hst hx
        exact e.shareImage_standard c per ki st hx hper hle hki hstep
    have hfit : e.shareFits c = true := e.shareFits_of c w e1 him hen hsi hsv h0 hw
    subst hr hg he2 he
    exact run_accepted specFeedShare c s _ ha (fun _ _ _ _ => rfl)
      (specFeedShare_writes (d.opened specFeedShare c) _ e1 w him hfit)

/-! ### Timers of a feed -/

section
variable (f : Fin 4) (d : Dev) (hr : d.coreRuns = true)
include hr

/-- An inrush that has lasted inrush_timeout is reported and trips its feed with cause 4 (Table 7-1). -/
theorem inrushTimeout_trips (hs : (d.feed f.val).state = .inrush) : inrushTimeout f d =
    ((d.until ((d.feed f.val).since + FC_INRUSH.inrush_timeout d f.val * 40000)).report
      (det 0x20 (96 + f.val) 0x42 accMeasure (detAddr 0x03 f.val))).feedTrip f.val 4 stAborted :=
  if_pos (by simp [hr, hs])

/-- At the end of its hold-off a TRIPPED feed may retry (R211). -/
theorem feedHoldoffEnd_retries (hh : (d.feed f.val).hold.live = true) (hs : (d.feed f.val).state = .tripped) :
    feedHoldoffEnd f d = (d.until (d.feed f.val).hold.endUp).feedRetry f.val :=
  if_pos (by simp [hr, hh, hs])

/-- Retries are forgotten after retry_clear in ON (R211). -/
theorem feedRetryClear_forgets (hs : (d.feed f.val).state = .on) : feedRetryClear f d =
    (d.until ((d.feed f.val).since + FC_RETRY.retry_clear d f.val * 40000000)).modFeed f.val
      (fun x => { x with retries := 0 }) :=
  if_pos (by simp [hr, hs])

/-- FWARN is released once no condition has held for warn_hold (R216). -/
theorem fwarnRelease_releases (t : Nat) (ht : (d.feed f.val).clearAt = some t) (hs : (d.feed f.val).state = .on)
    (hm : (d.feed f.val).warnMask = 0) : fwarnRelease f d =
      (d.until (t + FC_TIME.warn_hold d f.val * 40000)).modFeed f.val
        (fun x => { x with warn := false, clearAt := none }) := by
  simp only [fwarnRelease, ht]
  exact if_pos (by simp [hr, hs, hm])

/-- Condition (c) comes to hold lim_warn after the supplying group began to be limited (R216, R217). -/
theorem limWarnExpiry_warns (g t : Nat) (hg : d.supplier f.val = some g)
    (ht : (d.group g).watch.warnSince = some t) (hl : FC_SOA_T.lim_warn d f.val ≠ 0) : limWarnExpiry f d =
      (d.until (t + FC_SOA_T.lim_warn d f.val * 10 * 40)).feedWarn f.val := by
  simp only [limWarnExpiry, hg, Option.bind_some, ht]
  exact if_pos (by simp [hr, hl])

end

/-! ### The share period -/

section
variable (j : Fin 2) (d : Dev) (hr : d.coreRuns = true) (hslw : d.il.slw = false)
include hr hslw

/-- The trims of a disabled set move towards 0 (Table 7-12). -/
theorem sharePeriod_disabled (hen : FC_SHARE.en d j.val = 0) : sharePeriod j d =
    forAll (fun f d' => d'.modTrim f (fun t => towardsZero t (FC_SHARE.step d j.val))) (d.members j.val) d :=
  (if_neg (by simp [hr, hslw])).trans (if_pos hen)

/-- With fewer than two participants nothing is shared: the trims of the one, and of members not in ON, move towards 0
(R214). -/
theorem sharePeriod_alone (hen : FC_SHARE.en d j.val = 1)
    (hfew : ((d.members j.val).filter d.participates).length < 2) : sharePeriod j d =
      forAll (fun f e => if (d.members j.val).filter d.participates == [f] || (e.feed f).state != .on
        then e.modTrim f (fun t => towardsZero t (FC_SHARE.step d j.val)) else e) (d.members j.val) d := by
  have hn : ¬ 2 ≤ ((d.members j.val).filter d.participates).length := Nat.not_le.mpr hfew
  refine (if_neg (by simp [hr, hslw])).trans ((if_neg (by omega)).trans ?_)
  dsimp only
  rw [if_neg hn, if_neg hn]

end

/-- Settles O29: each timer's equation in the state it speaks of, and the share period by whether its set is enabled. -/
theorem feedTimers : Obligations.FeedTimers := by
  intro s f hrun d x ends
  have hr : d.coreRuns = true := hrun
  refine ⟨fun hs => ?inrush, fun hh hs => ?holdoff, fun hs => ?retries, fun t ht hs hm => ?release,
    fun g t hg ht hl => ?warns, fun j hslw hen => ?disabled, fun j hslw hen hfew => ?alone⟩
  case inrush => exact run_settles (inrushTimeout f) s _ (inrushTimeout_trips f d hr hs)
  case holdoff => exact run_settles (feedHoldoffEnd f) s _ (feedHoldoffEnd_retries f d hr hh hs)
  case retries => exact run_settles (feedRetryClear f) s _ (feedRetryClear_forgets f d hr hs)
  case release => exact run_settles (fwarnRelease f) s _ (fwarnRelease_releases f d hr t ht hs hm)
  case warns => exact run_settles (limWarnExpiry f) s _ (limWarnExpiry_warns f d hr g t hg ht hl)
  case disabled => exact run_settles (sharePeriod j) s _ (sharePeriod_disabled j d hr hslw hen)
  case alone => exact run_settles (sharePeriod j) s _ (sharePeriod_alone j d hr hslw hen hfew)

end Sys2Proof.Machine
end

section
/-! BRANCH_CONFIGURE, BRANCH_SWITCH and BRANCH_RETRY (O44), and the model step, the limit amplifier and the timers of
the branches with the bank check (O30). -/
namespace Sys2Proof.Machine

/-! ### BRANCH_CONFIGURE -/

/-- Images of a command fit at the Expert level where each is in range; at the Standard level they come from values that
their conversion has judged (R394). -/
theorem Desc.imagesFit_iff (p : Desc) (ims : List (Nat × Nat)) :
    p.imagesFit ims = true ↔ (p.expert = true → imagesOk ims = true) := by
  cases hx : p.expert <;> simp [Desc.imagesFit, hx]

section
variable (d : Dev) (p : Desc)

/-- At the Expert level the images follow the registers (Table 15-4). -/
theorem Dev.branchGiven_expert (hx : p.expert = true) :
    d.branchGiven p = some (p.images (branchRegs p.idx)) := if_pos hx

/-- At the Standard level they are derived from the field list (Table 8-4). -/
theorem Dev.branchGiven_standard (hx : p.expert = false) : d.branchGiven p =
    standardImages (branchConv (d.branchFs p.idx p)) d.reg 0 p.given (fieldList (branchRegs p.idx)) [] :=
  if_neg (by simp [hx])

/-- What a BRANCH_CONFIGURE gives fits: its words are all there, its fields in range, and the cross-field limits of
those it gives are kept (R232, R238, R395). -/
theorem Dev.branchFits_iff (ims : List (Nat × Nat)) (hg : d.branchGiven p = some ims) :
    d.branchFits p = true ↔
      4 * (if p.expert then 11 else (fieldList (branchRegs 0)).length) ≤ p.length.toNat ∧
      (p.expert = true → imagesOk ims = true) ∧
      (d.setImages ims).branchRegsOk p.idx (p.gives (fieldList (branchRegs p.idx))) = true := by
  simp only [Dev.branchFits, hg, Bool.and_eq_true, decide_eq_true_eq, p.imagesFit_iff, and_assoc]

end

/-- On a stopped branch what a BRANCH_CONFIGURE gives takes effect where it fits (R238). -/
theorem specBranchConfigure_configures (o : OpenCmd) (d : Dev) (ims : List (Nat × Nat))
    (hs : (d.branch o.desc.idx).state.stopped = true) (hg : d.branchGiven o.desc = some ims)
    (hfit : d.branchFits o.desc = true) :
    specBranchConfigure.begin o d = d.branchConfigured o.fetch o.desc.idx ims := by
  refine (if_neg (by simp [hs])).trans ?_
  rw [hg]
  exact if_pos hfit

/-! ### BRANCH_SWITCH -/

/-- A command that is not resumed takes no start over (R387). -/
theorem Dev.branchLeft_fresh (d : Dev) (o : OpenCmd) (hr : o.resumed = false) : d.branchLeft o = false := by
  simp [Dev.branchLeft, hr]

theorem specBranchSwitch_on (o : OpenCmd) (d : Dev) (hr : o.resumed = false) (h : o.desc.byte 20 = 1) :
    specBranchSwitch.begin o d = d.branchSwitchOn o.fetch o.desc.idx :=
  (if_pos h).trans (if_neg (by simp [d.branchLeft_fresh o hr]))

theorem specBranchSwitch_off (o : OpenCmd) (d : Dev) (h : o.desc.byte 20 = 0) :
    specBranchSwitch.begin o d = d.branchSwitchOff o.fetch o.desc.idx := if_neg (by omega)

section
variable (d : Dev) (k n : Nat)

/-- Command `k` joins those that wait for branch `n` to be ON (R223). -/
def Dev.joinBranch : Dev := d.modBranch n (fun x => { x with cmds := x.cmds ++ [k] })

/-- It joins with the branch's retries forgotten (Table 8-1). -/
def Dev.joinBranchAnew : Dev := (d.joinBranch k n).modBranch n (fun x => { x with retries := 0 })

/-- Neither a hold of all starts nor Single-Line Working holds the branch (R17, R237). -/
theorem Dev.branchHeld_not (hstarts : d.noStarts = false)
    (hkeep : d.il.slw = true → bitOf (IL_SLW_BR.br_keep d) n = true) : d.branchHeld n = false := by
  cases hslw : d.il.slw
  · simp [Dev.branchHeld, Dev.slwHoldsBranch, hstarts, hslw]
  · simp [Dev.branchHeld, Dev.slwHoldsBranch, hstarts, hkeep hslw]

/-- A branch that conducts is on already (R223). -/
theorem Dev.branchSwitchOn_conducts
    (h : (d.branch n).state = .ramp ∨ (d.branch n).state = .on ∨ (d.branch n).state = .limiting) :
    d.branchSwitchOn k n = d.commitAll k stDone [] := by
  rcases h with h | h | h <;> simp only [Dev.branchSwitchOn, h]

/-- In STARTING the command joins, with its first stage committed where leave is held (R223, R236). -/
theorem Dev.branchSwitchOn_starting (h : (d.branch n).state = .starting) : d.branchSwitchOn k n =
    if (d.branch n).awaiting ∨ (d.slot (slotBranch n)).state = .holding then (d.joinBranch k n).commit k 1
      else d.joinBranch k n := by
  simp only [Dev.branchSwitchOn, h]
  rfl

/-- An OFF branch starts, or waits in TRIPPED for the rest of a stored hold-off (Table 8-1). -/
theorem Dev.branchSwitchOn_off (h : (d.branch n).state = .off) (hready : d.branchReady n = true)
    (hfree : d.slotBusy (slotBranch n) = false) (hheld : d.branchHeld n = false) : d.branchSwitchOn k n =
    if 0 < d.holdLeft (d.branch n).hold then (d.joinBranchAnew k n).branchEnter n .tripped
      else (d.joinBranchAnew k n).branchStart n .fresh := by
  simp only [Dev.branchSwitchOn, h]
  exact if_neg (by simp [hready, hfree, hheld])

end

/-! ### BRANCH_RETRY -/

/-- A BRANCH_RETRY of a TRIPPED or LOCKED branch counts no retries and waits for the branch to retry (Table 8-1). -/
theorem specBranchRetry_retries (o : OpenCmd) (d : Dev) (hr : o.resumed = false)
    (hs : (d.branch o.desc.idx).state = .tripped ∨ (d.branch o.desc.idx).state = .locked)
    (hready : d.branchReady o.desc.idx = true) (hfree : d.slotBusy (slotBranch o.desc.idx) = false)
    (hheld : d.branchHeld o.desc.idx = false) :
    specBranchRetry.begin o d = (d.modBranch o.desc.idx (fun x =>
      { x with retries := 0, wanted := true, cmds := x.cmds ++ [o.fetch] })).branchRetry o.desc.idx := by
  refine (if_neg (by simp [d.branchLeft_fresh o hr])).trans (if_neg ?_)
  rintro (⟨ht, hl⟩ | h | h | h)
  · exact hs.elim ht hl
  · simp [hready] at h
  · simp [hfree] at h
  · simp [hheld] at h

/-- Settles O44: BRANCH_CONFIGURE by what its level gives, BRANCH_SWITCH and BRANCH_RETRY by the state of the branch. -/
theorem branchCommands : Obligations.BranchCommands := by
  intro s c d k n ends
  refine ⟨fun e ims ha he hs hxp hst hlen hok hregs e1 code e2 he1 hcode he2 => ?configure, fun e ha he hb => ?on,
    fun e ha he hb => ?off, fun e e1 ha he hs hready hfree hstarts hkeep he1 => ?retry⟩
  case configure =>
    have hgiven : e.branchGiven c = some ims := by
      cases hx : c.expert with
      | true => exact hxp hx ▸ e.branchGiven_expert c hx
      | false => exact (e.branchGiven_standard c hx).trans (hst hx)
    have hfit : e.branchFits c = true := (e.branchFits_iff c ims hgiven).mpr ⟨hlen, hok, hregs⟩
    subst he2 hcode he1 he
    exact run_accepted specBranchConfigure c s _ ha (fun _ _ _ _ => rfl)
      (specBranchConfigure_configures (d.opened specBranchConfigure c) _ ims hs hgiven hfit)
  case on =>
    have hon : ∀ x, e.branchSwitchOn k n = x → exec (.branchSwitchOn c) s = ends x := fun x hx =>
      run_accepted specBranchSwitch c s x ha (fun _ _ _ _ => rfl)
        ((specBranchSwitch_on (d.opened specBranchSwitch c) _ rfl hb).trans (he ▸ hx))
    refine ⟨fun h => hon _ (e.branchSwitchOn_conducts k n h), fun e1 he1 => ?_⟩
    subst he1
    refine ⟨fun h => hon _ (e.branchSwitchOn_starting k n h), fun h hready hfree hstarts hkeep e2 he2 => hon _ ?_⟩
    subst he2
    exact e.branchSwitchOn_off k n h hready hfree (e.branchHeld_not n hstarts hkeep)
  case off =>
    subst he
    exact run_accepted specBranchSwitch c s _ ha (fun _ _ _ _ => rfl)
      (specBranchSwitch_off (d.opened specBranchSwitch c) _ hb)
  case retry =>
    have hheld : e.branchHeld n = false := e.branchHeld_not n hstarts hkeep
    subst he1 he
    exact run_accepted specBranchRetry c s _ ha (fun _ _ _ _ => rfl)
      (specBranchRetry_retries (d.opened specBranchRetry c) _ rfl hs hready hfree hheld)

/-! ### The model step and the timers of a branch -/

/-- The device after a model step of branch `n`'s thermal nodes and the exits due (R224, R231). -/
def Dev.branchStepped (d : Dev) (n : Nat) : Dev := ((d.branchMissing n).branchModel n).branchExits n

section
variable (n : Fin 24) (d : Dev) (hr : d.coreRuns = true)
include hr

/-- Still in RAMP after the exits, the branch is ON once V_bus - V_out lies below on_dv (Table 8-1). -/
theorem branchModelStep_ramp (h : ((d.branchStepped n.val).branch n.val).state = .ramp) : branchModelStep n d =
    if (d.branchStepped n.val).rampedUp n.val then (d.branchStepped n.val).branchOn n.val
      else d.branchStepped n.val := by
  unfold Dev.branchStepped at *
  simp [branchModelStep, hr, h]

/-- Still ON, it is LIMITING where the amplifier holds the gate (Table 8-1). -/
theorem branchModelStep_on (h : ((d.branchStepped n.val).branch n.val).state = .on) : branchModelStep n d =
    if ((d.branchStepped n.val).branch n.val).lim = true then (d.branchStepped n.val).branchLimits n.val
      else d.branchStepped n.val := by
  unfold Dev.branchStepped at *
  simp [branchModelStep, hr, h]

/-- TRIPPED or LOCKED, it retries where it may (R234). -/
theorem branchModelStep_retries (h : ((d.branchStepped n.val).branch n.val).state = .tripped ∨
    ((d.branchStepped n.val).branch n.val).state = .locked) :
    branchModelStep n d = (d.branchStepped n.val).branchRetry n.val := by
  unfold Dev.branchStepped at *
  rcases h with h | h <;> simp [branchModelStep, hr, h]

/-- In the other states nothing more is due (Table 8-1). -/
theorem branchModelStep_rests (h : ((d.branchStepped n.val).branch n.val).state = .off ∨
    ((d.branchStepped n.val).branch n.val).state = .starting ∨
    ((d.branchStepped n.val).branch n.val).state = .limiting) : branchModelStep n d = d.branchStepped n.val := by
  unfold Dev.branchStepped at *
  rcases h with h | h | h <;> simp [branchModelStep, hr, h]

/-- The amplifier that takes the gate of a branch that is ON leads to LIMITING (R229, Table 8-1). -/
theorem branchLimitEngage_on (hs : (d.branch n.val).state = .on) : branchLimitEngage n d =
    (d.modBranch n.val (fun x => { x with lim := true, letGo := none })).branchLimits n.val :=
  (if_neg (by simp [hr, hs, BranchState.conducts])).trans (if_pos hs)

/-- In RAMP it takes the gate and nothing else (R229). -/
theorem branchLimitEngage_ramp (hs : (d.branch n.val).state = .ramp) : branchLimitEngage n d =
    d.modBranch n.val (fun x => { x with lim := true, letGo := none }) :=
  (if_neg (by simp [hr, hs, BranchState.conducts])).trans (if_neg (by simp [hs]))

/-- The amplifier that holds the gate lets go of it (R229). -/
theorem branchLimitRelease_letsGo (hs : (d.branch n.val).state.conducts = true) (hl : (d.branch n.val).lim = true) :
    branchLimitRelease n false d =
      d.modBranch n.val (fun x => { x with lim := false, letGo := some d.core.uptime }) :=
  (if_neg (by simp [hr, hs])).trans ((if_pos rfl).trans (if_pos hl))

/-- A LIMITING branch whose gate has been free for 100 µs is ON (Table 8-1). -/
theorem branchLimitRelease_through (t : Nat) (hs : (d.branch n.val).state = .limiting)
    (ht : (d.branch n.val).letGo = some t) : branchLimitRelease n true d =
      ((d.until (t + 100 * 40)).modBranch n.val (fun x => { x with lim := false, letGo := none })).branchEnter n.val
        .on := by
  refine (if_neg (by simp [hr, hs, BranchState.conducts])).trans ((if_neg (by simp)).trans ((if_pos hs).trans ?_))
  rw [ht]
  rfl

/-- A weak gate of a branch that is ON is due at the next model step (R224). -/
theorem gateUnderdrive_due (hs : (d.branch n.val).state = .on) :
    gateUnderdrive n d = d.modBranch n.val (fun x => { x with gateDue := true }) :=
  if_pos (by simp [hr, hs])

/-- The end of the limit timer is due at the next model step (R224). -/
theorem limitTimeout_due (hs : (d.branch n.val).state = .limiting) : limitTimeout n d =
    (d.until ((d.branch n.val).limFrom + BC_LIMIT.lim_time d n.val * 40000)).modBranch n.val
      (fun x => { x with limDue := true }) :=
  if_pos (by simp [hr, hs])

/-- The end of the ramp timer is due at the next model step (R224). -/
theorem rampTimeout_due (hs : (d.branch n.val).state = .ramp) : rampTimeout n d =
    (d.until ((d.branch n.val).since + BC_RAMP.ramp_timeout d n.val * 40000)).modBranch n.val
      (fun x => { x with rampDue := true }) :=
  if_pos (by simp [hr, hs])

/-- At the end of its hold-off a branch that is TRIPPED, or LOCKED with a BRANCH_RETRY that waits, may retry (R235). -/
theorem branchHoldoffEnd_retries (hh : (d.branch n.val).hold.live = true)
    (hs : (d.branch n.val).state = .tripped ∨ ((d.branch n.val).state = .locked ∧ (d.branch n.val).wanted = true)) :
    branchHoldoffEnd n d = (d.until (d.branch n.val).hold.endUp).branchRetry n.val :=
  if_pos (by simpa [hr, hh, Branch.retryOpen] using hs)

/-- Retries are forgotten after retry_clear in ON (R235). -/
theorem branchRetryClear_forgets (hs : (d.branch n.val).state = .on) : branchRetryClear n d =
    (d.until ((d.branch n.val).since + BC_RETRY.retry_clear d n.val * 40000000)).modBranch n.val
      (fun x => { x with retries := 0 }) :=
  if_pos (by simp [hr, hs])

end

/-! ### The bank check -/

section
variable (d : Dev) (b : Nat)

/-- The current a bank's sum converter reads, in 2^-16 mA (R222). -/
def Dev.bankWhole : Int :=
  (d.sar (BC_BANK_CFG.sum_conv d b)).filtered * 2 * (d.fsOf (BC_BANK_CFG.sum_conv d b) : Int)

/-- The sum of the currents of its members that are not OFF. -/
def Dev.bankParts : Nat :=
  (((indices 24).filter (fun n => BC_CTRL.bank d n == b && (d.branch n).state != .off)).map d.branchI).sum

/-- How far the two lie apart (R222). -/
def Dev.bankApart : Nat := (d.bankWhole b - (d.bankParts b : Int)).natAbs

/-- How far apart they may lie: tol of the sum converter's full scale (Table 8-17). -/
def Dev.bankTol : Nat := BC_BANK_CFG.tol d b * 64 * d.fsOf (BC_BANK_CFG.sum_conv d b)

/-- The count of mismatching checks in a row with one more, held at 255. -/
def Dev.bankCount : Nat := held 255 ((fileGet d.banks b default).count + 1)

/-- The bank takes a check's outcome and its two sums in mA (Table 8-18). -/
def Dev.bankChecked (mismatch : Bool) (count : Nat) : Dev :=
  d.modBank b (fun _ => ⟨mismatch, count, roundDiv (d.bankWhole b) 65536, roundDivN (d.bankParts b) 65536⟩)

end

section
variable (b : Fin 4) (d : Dev) (hr : d.coreRuns = true) (hen : BC_BANK_CFG.en d b.val = 1)
include hr hen

/-- A check judges the two sums, keeps the outcome and raises BANK_MISMATCH where it is newly hit (R222). -/
theorem bankCheck_eq : bankCheck b d =
    let far := decide (d.bankTol b.val < d.bankApart b.val)
    let was := (fileGet d.banks b.val default).mismatch
    let count := if far then d.bankCount b.val else 0
    let hit := far && decide (BC_BANK_CFG.bank_persist d b.val ≤ count)
    let e := d.bankChecked b.val (hit || (far && was)) count
    if hit && !was then e.raise 0x0133 clsB (88 + b.val) (unsignedOf 32 (roundDiv (d.bankWhole b.val) 65536))
      (roundDivN (d.bankParts b.val) 65536 % 2 ^ 32) else e :=
  if_neg (by simp [hr, hen])

/-- A check within tol sets the count to 0 (R222). -/
theorem bankCheck_within (h : d.bankApart b.val ≤ d.bankTol b.val) : bankCheck b d = d.bankChecked b.val false 0 := by
  rw [bankCheck_eq b d hr hen, decide_eq_false (Nat.not_lt.mpr h)]
  rfl

/-- A check further apart counts, and raises BANK_MISMATCH where the count has come to bank_persist and no mismatch
stands (R222). -/
theorem bankCheck_apart (h : d.bankTol b.val < d.bankApart b.val) : bankCheck b d =
    let was := (fileGet d.banks b.val default).mismatch
    let hit := BC_BANK_CFG.bank_persist d b.val ≤ d.bankCount b.val
    let e := d.bankChecked b.val (decide hit || was) (d.bankCount b.val)
    if hit ∧ was = false then e.raise 0x0133 clsB (88 + b.val)
      (unsignedOf 32 (roundDiv (d.bankWhole b.val) 65536)) (roundDivN (d.bankParts b.val) 65536 % 2 ^ 32) else e := by
  rw [bankCheck_eq b d hr hen, decide_eq_true h]
  simp

end

/-- Settles O30: the model step by the state it finds, each timer's equation in the state it speaks of, and the bank
check by how far its sums lie apart. -/
theorem branchTimers : Obligations.BranchTimers := by
  intro s n hrun d x ends limits
  have hr : d.coreRuns = true := hrun
  refine ⟨fun e he => ?step, fun hs => ?engageOn, fun hs => ?engageRamp, fun hs hl => ?letsGo,
    fun t hs ht => ?through, fun hs => ?weak, fun hs => ?limit, fun hs => ?ramp, fun hh hs => ?holdoff,
    fun hs => ?retries, fun b hen => ?bank⟩
  case step =>
    subst he
    exact ⟨fun h => run_settles (branchModelStep n) s _ (branchModelStep_ramp n d hr h),
      fun h => run_settles (branchModelStep n) s _ (branchModelStep_on n d hr h),
      fun h => run_settles (branchModelStep n) s _ (branchModelStep_retries n d hr h),
      fun h => run_settles (branchModelStep n) s _ (branchModelStep_rests n d hr h)⟩
  case engageOn => exact run_settles (branchLimitEngage n) s _ (branchLimitEngage_on n d hr hs)
  case engageRamp => exact run_settles (branchLimitEngage n) s _ (branchLimitEngage_ramp n d hr hs)
  case letsGo => exact run_settles (branchLimitRelease n false) s _ (branchLimitRelease_letsGo n d hr hs hl)
  case through => exact run_settles (branchLimitRelease n true) s _ (branchLimitRelease_through n d hr t hs ht)
  case weak => exact run_settles (gateUnderdrive n) s _ (gateUnderdrive_due n d hr hs)
  case limit => exact run_settles (limitTimeout n) s _ (limitTimeout_due n d hr hs)
  case ramp => exact run_settles (rampTimeout n) s _ (rampTimeout_due n d hr hs)
  case holdoff => exact run_settles (branchHoldoffEnd n) s _ (branchHoldoffEnd_retries n d hr hh hs)
  case retries => exact run_settles (branchRetryClear n) s _ (branchRetryClear_forgets n d hr hs)
  case bank =>
    exact ⟨fun h => run_settles (bankCheck b) s _ (bankCheck_within b d hr hen h),
      fun h => run_settles (bankCheck b) s _ (bankCheck_apart b d hr hen h)⟩

end Sys2Proof.Machine
end

section
/-! STRING_CONFIGURE, STRING_CONNECT, ESTIMATOR_SET and ENTER_DEPOT (O46). -/
namespace Sys2Proof.Machine

/-! ### STRING_CONFIGURE -/

section
variable (d : Dev) (p : Desc)

/-- The word that holds a field of string `s`'s list: ofs has an offset of its own (Table 9-13). -/
def Dev.stringWord (s off : Nat) : Nat := if off = 0x20000 + s then (d.str s).ofs else d.reg off

/-- The ofs among the images of a field list, or the one that string `s` has. -/
def Dev.ofsAmong (s : Nat) (all : List (Nat × Nat)) : Nat :=
  ((all.find? (fun q => q.1 == 0x20000 + s)).map (·.2)).getD (d.str s).ofs

/-- At the Expert level the images follow the registers, and ofs is the field of its word (Table 15-5). -/
theorem Dev.stringGiven_expert (hx : p.expert = true) :
    d.stringGiven p = some (p.images (stringRegs p.idx), bitsOf (p.bufWord 9) 8 8) := if_pos hx

/-- At the Standard level the images are those of the field list, ofs apart (R394). -/
theorem Dev.stringGiven_standard (all : List (Nat × Nat)) (hx : p.expert = false)
    (h : standardImages (stringConvert p.idx) (d.stringWord p.idx) 0 p.given (stringFields p.idx) [] = some all) :
    d.stringGiven p = some (all.filter (fun q => q.1 < 0x20000), d.ofsAmong p.idx all) :=
  (if_neg (by simp [hx])).trans (congrArg (Option.map _) h)

/-- What a STRING_CONFIGURE gives fits: its words are all there, its fields in range, and the cross-field limits of
those it gives are kept (Tables 9-9, 9-10 and 9-15, R395). -/
theorem Dev.stringFits_iff (ims : List (Nat × Nat)) (ofs : Nat) (hg : d.stringGiven p = some (ims, ofs)) :
    d.stringFits p = true ↔
      4 * (if p.expert then 13 else (stringFields 0).length) ≤ p.length.toNat ∧
      (p.expert = true → imagesOk ims = true) ∧
      (d.setImages ims).stringRegsOk p.idx (p.gives (stringFields p.idx)) = true := by
  simp only [Dev.stringFits, hg, Bool.and_eq_true, decide_eq_true_eq, p.imagesFit_iff]

end

/-- On a stopped string what a STRING_CONFIGURE gives takes effect where it fits (R399). -/
theorem specStringConfigure_configures (o : OpenCmd) (d : Dev) (ims : List (Nat × Nat)) (ofs : Nat)
    (hs : (d.str o.desc.idx).state.stopped = true) (hg : d.stringGiven o.desc = some (ims, ofs))
    (hfit : d.stringFits o.desc = true) :
    specStringConfigure.begin o d = d.stringConfigured o.fetch o.desc.idx ims ofs := by
  refine (if_neg (by simp [hs])).trans ?_
  rw [hg]
  exact if_pos hfit

/-! ### STRING_CONNECT -/

/-- A command that is not resumed takes no start over (R387). -/
theorem Dev.strLeft_fresh (d : Dev) (o : OpenCmd) (hr : o.resumed = false) : d.strLeft o = false := by
  simp [Dev.strLeft, hr]

theorem specStringConnect_on (o : OpenCmd) (d : Dev) (hr : o.resumed = false) (h : o.desc.byte 20 = 1) :
    specStringConnect.begin o d = d.strConnectOn o.fetch o.desc.idx :=
  (if_pos h).trans (if_neg (by simp [d.strLeft_fresh o hr]))

theorem specStringConnect_off (o : OpenCmd) (d : Dev) (h : o.desc.byte 20 = 0) :
    specStringConnect.begin o d = d.strConnectOff o.fetch o.desc.idx := if_neg (by omega)

section
variable (d : Dev) (k n : Nat)

/-- A CONNECTED string is connected already (R243). -/
theorem Dev.strConnectOn_connected (h : (d.str n).state = .connected) :
    d.strConnectOn k n = d.commitAll k stDone [] := if_pos h

/-- An OPEN or FAULTED string that may starts, with the command that waits for it (Table 9-1). -/
theorem Dev.strConnectOn_stopped (h : (d.str n).state.stopped = true) (hready : d.strReady n = true)
    (hfree : d.slotBusy (slotString n) = false) (hstarts : d.noStarts = false) :
    d.strConnectOn k n = (d.modStr n (fun x => { x with ons := [k] })).strStart n := by
  have hopen : (d.str n).state ≠ .connected := fun hc => by simp [hc, StringState.stopped] at h
  exact (if_neg hopen).trans ((if_neg (by simp [h])).trans (if_neg (by simp [hready, hfree, hstarts])))

end

/-! ### ESTIMATOR_SET -/

/-- An estimator with the capacity, the charge and the uncertainty that an ESTIMATOR_SET gives, each where it is not all
ones; the charge is a part of the new capacity, and the uncertainty too (R260). -/
def Estimator.given (x : Estimator) (p : Desc) : Estimator :=
  let x1 := if p.num 20 4 = 0xFFFFFFFF then x else { x with c := (p.num 20 4 : Int) * chargeUnit }
  let x2 := if p.num 24 2 = 0xFFFF then x1 else { x1 with q := x1.cap * (p.num 24 2 : Int) / 10000 }
  if p.num 26 2 = 0xFFFF then x2 else { x2 with u := x2.part (p.num 26 2) }

/-- The device whose estimator has taken what an ESTIMATOR_SET gives, shown as before, its flags evaluated and
checkpointed (R255 to R259, R263). -/
def Dev.estimatorGiven (d : Dev) (p : Desc) : Dev :=
  let n := p.idx
  let x := (d.str n).est
  (((d.modEst n (fun _ => ({ x.given p with span := false, stale := false } : Estimator).redisplay
    (x.shown (BSM_STR_EST.floor d n)))).strExhaust n x).strStale n).strCheckpoint n false

/-- A change of one entry of a resource file puts its result in the place of that entry. -/
theorem fileMod_get {α : Type} {n : Nat} (v : Vector α n) (i : Nat) (f : α → α) (dflt : α) :
    fileMod v i f = fileMod v i (fun _ => f (fileGet v i dflt)) := by
  by_cases h : i < n <;> simp [fileMod, fileGet, h]

/-- A change of a string's estimator puts its result in the place of that estimator. -/
theorem Dev.modEst_get (d : Dev) (s : Nat) (g : Estimator → Estimator) :
    d.modEst s g = d.modEst s (fun _ => g (d.str s).est) := by
  unfold Dev.modEst Dev.modStr Dev.str
  rw [fileMod_get d.strings s (fun x => { x with est := g x.est }) default,
    fileMod_get d.strings s (fun x => { x with est := g (fileGet d.strings s default).est }) default]

/-- An ESTIMATOR_SET sets the estimator that a start has restored, or that it restores first, and returns the charge and
the state of charge it leaves (R260). -/
theorem specEstimatorSet_sets (o : OpenCmd) (d : Dev) :
    specEstimatorSet.begin o d =
      let n := o.desc.idx
      let e := d.stringAtStart n
      let y := ((e.estimatorGiven o.desc).str n).est
      (e.estimatorGiven o.desc).commitAll o.fetch stDone
        [word32 (inMah y.q), word32 (y.shown (BSM_STR_EST.floor e n))] := by
  let n := o.desc.idx
  let e := d.stringAtStart n
  let x := (e.str n).est
  exact congrArg (fun d1 : Dev =>
      let d2 := ((d1.strExhaust n x).strStale n).strCheckpoint n false
      d2.commitAll o.fetch stDone [word32 (inMah (d2.str n).est.q),
        word32 ((d2.str n).est.shown (BSM_STR_EST.floor e n))])
    (e.modEst_get n (fun y => ({ y.given o.desc with span := false, stale := false } : Estimator).redisplay
      (x.shown (BSM_STR_EST.floor e n))))

/-! ### ENTER_DEPOT -/

/-- Every branch and feed turned off, and every string told to open (R265). -/
def Dev.outputsOff (d : Dev) : Dev :=
  forAll (fun q x => x.strOff q) (indices 4) (forAll (fun q x => x.feedOff q) (indices 4)
    (forAll (fun q x => x.branchOff q) (indices 24) d))

/-- An ENTER_DEPOT that may turns the outputs off and waits for the strings to be open (R265). -/
theorem specEnterDepot_departs (o : OpenCmd) (d : Dev) (h : d.mayDepart = true) :
    specEnterDepot.begin o d =
      (d.outputsOff.setLeaving (some ⟨some o.fetch, o.desc.byte 20 == 1, 1, 0, 0⟩)).departStep :=
  if_neg (by simp [h])

/-- Settles O46: STRING_CONFIGURE by what its level gives, STRING_CONNECT by the state of its string, ESTIMATOR_SET by
what it leaves of the estimator, and ENTER_DEPOT by the departure it begins. -/
theorem stringAndDepotCommands : Obligations.StringAndDepotCommands := by
  intro s c d k n ends
  refine ⟨fun e ims all ofs ha he hs hxp hst hlen hok hregs e1 e2 he1 he2 => ?configure, fun e ha he hb => ?on,
    fun e e1 ha he hb he1 => ?off, fun e0 e x x1 x2 x3 e1 y ha he0 he hx hx1 hx2 hx3 he1 hy => ?set,
    fun e ha he hd => ?depot⟩
  case configure =>
    have hgiven : e.stringGiven c = some (ims, ofs) := by
      cases hx : c.expert with
      | true => obtain ⟨rfl, rfl⟩ := hxp hx; exact e.stringGiven_expert c hx
      | false => obtain ⟨hall, rfl, rfl⟩ := hst hx; exact e.stringGiven_standard c all hx hall
    have hfit : e.stringFits c = true := (e.stringFits_iff c ims ofs hgiven).mpr ⟨hlen, hok, hregs⟩
    subst he2 he1 he
    exact run_accepted specStringConfigure c s _ ha (fun _ _ _ _ => rfl)
      (specStringConfigure_configures (d.opened specStringConfigure c) _ ims ofs hs hgiven hfit)
  case on =>
    have hon : ∀ x, e.strConnectOn k n = x → exec (.stringConnectOn c) s = ends x := fun x hx =>
      run_accepted specStringConnect c s x ha (fun _ _ _ _ => rfl)
        ((specStringConnect_on (d.opened specStringConnect c) _ rfl hb).trans (he ▸ hx))
    exact ⟨fun h => hon _ (e.strConnectOn_connected k n h),
      fun h hready hfree hstarts => hon _ (e.strConnectOn_stopped k n h hready hfree hstarts)⟩
  case off =>
    subst he1 he
    exact run_accepted specStringConnect c s _ ha (fun _ _ _ _ => rfl)
      (specStringConnect_off (d.opened specStringConnect c) _ hb)
  case set =>
    subst hy he1 hx3 hx2 hx1 hx he he0
    exact run_accepted specEstimatorSet c s _ ha (fun _ _ _ _ => rfl)
      (specEstimatorSet_sets (d.opened specEstimatorSet c) _)
  case depot =>
    subst he
    exact run_accepted specEnterDepot c s _ ha (fun _ _ _ _ => rfl)
      (specEnterDepot_departs (d.opened specEnterDepot c) _ hd)

end Sys2Proof.Machine
end

section
/-! Wakes, the alarm, the power-fail warning, and the end of an entry to Stabled or Depot (O14). -/
namespace Sys2Proof.Machine

/-! ### The power-fail warning -/

/-- An armed warning is remembered with its instant, and checkpoints and flushes (R263, R347, R472). -/
theorem powerFailWarning_armed (d : Dev) (hr : d.coreRuns = true) (hw : d.core.warnArmed = true) :
    powerFailWarning d = ({ d with
      core := { d.core with warnArmed := false, warnedAt := some d.core.uptime } }.checkpointAll true).flushNow :=
  (if_neg (by simp [hw])).trans (if_pos hr)

/-- Strings are nothing the watches look at. -/
theorem Dev.modStr_alike (d : Dev) (n : Nat) (f : BString → BString) : d.Alike (d.modStr n f) :=
  ⟨rfl, rfl, rfl, rfl, rfl, rfl, rfl, rfl, rfl, rfl, rfl, rfl⟩

theorem Dev.checkpointsLast_alike (d : Dev) (final : Bool) : d.Alike (d.checkpointsLast final) :=
  Dev.Alike.forAll _ (fun _ e => e.modStr_alike _ _) _ d

/-- Which checkpoints count as final is nothing of the keep-alive domain. -/
theorem Dev.checkpointsLast_ka (d : Dev) (final : Bool) : (d.checkpointsLast final).ka = d.ka :=
  forAll_keeps _ Dev.ka (by intros; rfl) _ d

/-! ### Wakes -/

section
variable (d : Dev) (cause : Nat)

/-- A low-power state is one that a wake may end (R267). -/
theorem Dev.wakeable_low (hv : d.ka.vbak = true) (hl : d.ka.lowPower ≠ .awake) :
    d.wakeable = some (d.ka.lowPower == .depot) := by
  refine (if_neg (by simp [hv])).trans ?_
  cases h : d.ka.lowPower with
  | awake => exact absurd h hl
  | stabled => rfl
  | depot => rfl

/-- Neither in a low-power state nor on its way there the device has nothing to wake from. -/
theorem Dev.wakeable_awake (hl : d.ka.lowPower = .awake) (hs : d.shelf.leaving = none) : d.wakeable = none := by
  unfold Dev.wakeable
  rw [hl, hs]
  exact ite_self none

/-- Where PWR_EN may rise, a wake raises it at once (R267). -/
theorem Dev.wakeUp_now (hl : d.ka.lowPower ≠ .awake) (hh : d.ka.pwrHold = false) : d.wakeUp cause = d.wakeNow cause :=
  if_neg (by simp [hl, hh])

/-- While PWR_EN has to stay low, the first wake is held (R266). -/
theorem Dev.wakeUp_held (hh : d.ka.pwrHold = true) (hn : d.ka.wakeHeld = none) :
    d.wakeUp cause = { d with ka := { d.ka with wakeHeld := some cause } } :=
  (if_pos (Or.inl hh)).trans (if_neg (by simp [hn]))

end

/-- A source that is armed in the low-power state asks to wake the device (R267). -/
theorem kaWake_armed (src : WakeSource) (d : Dev) (hv : d.ka.vbak = true) (hl : d.ka.lowPower ≠ .awake)
    (ha : d.ka.arms (d.ka.lowPower == LowPower.depot) src = true) : kaWake src d = d.wakeUp src.code := by
  unfold kaWake
  rw [d.wakeable_low hv hl]
  exact if_pos ha

/-- With nothing to wake from no source does anything. -/
theorem kaWake_awake (src : WakeSource) (d : Dev) (hl : d.ka.lowPower = .awake) (hs : d.shelf.leaving = none) :
    kaWake src d = d := by
  unfold kaWake
  rw [d.wakeable_awake hl hs]

/-- In a core that runs and does not depart, a rearm leaves no checkpoint the final one (R264, R472). -/
theorem busSnsRearm_awake (d : Dev) (hl : d.ka.lowPower = .awake) (hs : d.shelf.leaving = none) :
    busSnsRearm d =
      let e := { d with core := { d.core with warnArmed := true } }
      if d.coreRuns then e.checkpointsLast false else e := by
  let e : Dev := { d with core := { d.core with warnArmed := true } }
  cases hr : d.coreRuns with
  | true =>
    have hka : (e.checkpointsLast false).ka.lowPower = .awake := (congrArg KeepAlive.lowPower
      (e.checkpointsLast_ka false)).trans hl
    have hsh : (e.checkpointsLast false).shelf.leaving = none := (e.checkpointsLast_alike false).leaving.trans hs
    unfold busSnsRearm
    rw [hr]
    exact kaWake_awake .busSns _ hka hsh
  | false =>
    unfold busSnsRearm
    rw [hr]
    exact kaWake_awake .busSns e hl hs

/-- The alarm moves nothing of the keep-alive domain but the calendar (Table 9-19). -/
theorem KeepAlive.toAlarm_calendar (k : KeepAlive) : k.toAlarm =
    { k with seconds := k.toAlarm.seconds, subsec := k.toAlarm.subsec, frac := k.toAlarm.frac } := by
  unfold KeepAlive.toAlarm
  dsimp only
  split <;> rfl

/-- The alarm wakes a stabled device, whose calendar moves on to its moment and stays valid where it was (R267). -/
theorem wakeAlarm_stabled (d : Dev) (hv : d.ka.vbak = true) (hl : d.ka.lowPower = .stabled)
    (hh : d.ka.pwrHold = false) (hen : d.ka.alarmEn = true) (h0 : d.ka.alarmS ≠ 0) (hx : d.ka.x32Runs = true) :
    wakeAlarm d = { d with ka := { d.ka.toAlarm with
      pwrEn := true, wakeHeld := none, wakeCause := 6, leaving := .stabled, lowPower := .awake } } := by
  let e : Dev := { d with ka := d.ka.toAlarm }
  have hlow : e.ka.lowPower = .stabled := (congrArg KeepAlive.lowPower d.ka.toAlarm_calendar).trans hl
  have hhold : e.ka.pwrHold = false := (congrArg KeepAlive.pwrHold d.ka.toAlarm_calendar).trans hh
  have hnow : e.wakeUp 6 = e.wakeNow 6 := e.wakeUp_now 6 (by simp [hlow]) hhold
  refine (if_pos ⟨hv, hl, hen, h0, hx⟩).trans (hnow.trans ?_)
  unfold Dev.wakeNow
  rw [hlow]
  exact congrArg (fun b => ({ d with ka := { d.ka.toAlarm with
    pwrEn := true, wakeHeld := none, wakeCause := 6, leaving := .stabled, valid := b, lowPower := .awake } } : Dev))
    (Bool.and_true d.ka.toAlarm.valid)

/-- With no wake held nothing but the hold ends after 20 ms (R266). -/
theorem pwrEnHoldEnd_ends (d : Dev) (hh : d.ka.pwrHold = true) (hn : d.ka.wakeHeld = none) :
    pwrEnHoldEnd d = { d with ka := { d.ka with pwrHold := false } } := by
  refine (if_pos hh).trans ?_
  dsimp only
  rw [hn]

/-! ### The end of a departure -/

theorem KeepAlive.trimmed_vbak (k : KeepAlive) (dt : Nat) : (k.trimmed dt).vbak = k.vbak := by
  unfold KeepAlive.trimmed; split <;> rfl

theorem KeepAlive.count_vbak (k : KeepAlive) (n : Nat) : (k.count n).vbak = k.vbak := by
  unfold KeepAlive.count
  split
  · rfl
  · rfl
  · split <;> rfl

/-- VBAK does not come or go with time. -/
theorem KeepAlive.elapse_vbak (k : KeepAlive) (dt : Nat) : (k.elapse dt).vbak = k.vbak := by
  unfold KeepAlive.elapse
  split
  · exact (KeepAlive.trimmed_vbak _ _).trans ((KeepAlive.count_vbak _ _).trans (KeepAlive.trimmed_vbak _ _))
  · split <;> rfl

/-- A departure in its last stage stores its cause, stops the core domain and takes PWR_EN low (R265, R266, R456). -/
theorem depotShutdown_departs (d : Dev) (x : Departing) (hl : d.shelf.leaving = some x) (h3 : x.stage = 3)
    (hr : d.coreRuns = true) (hv : d.ka.vbak = true) :
    depotShutdown d =
      let e := d.until x.offAt
      let f := ({ e with ka := { e.ka with
        cause := if x.depot then 4 else 3, calDown := e.ka.calWord } } : Dev).coreStops .off 0
      { f with
        core := { f.core with supplies := ⟨false, false, false, false, false⟩ }
        ka := { f.ka with lowPower := if x.depot then .depot else .stabled, pwrEn := false, pwrHold := true,
                          wakeHeld := d.ka.wakeHeld } } := by
  have hvu : (d.until x.offAt).ka.vbak = true := (d.ka.elapse_vbak _).trans hv
  simp only [depotShutdown, hl]
  rw [if_neg (by simp [h3, hr]), if_neg (by simp [hv]), Dev.storeShutdown_vbak _ _ hvu]
  rfl

/-- Settles O14: each event's equation, over a device that stays still where nothing is checkpointed or flushed. -/
theorem lowPowerWakesAndWarnings : Obligations.LowPowerWakesAndWarnings := by
  refine ⟨?events, ?shutdown⟩
  case shutdown =>
    intro s x d e f gone hl h3 hr hv
    exact run_settles depotShutdown s _ (depotShutdown_departs d x hl h3 hr hv)
  case events =>
    intro s hstill d ends
    have hs : d.still := Dev.still_silent s.dev hstill
    have hka : ∀ k : KeepAlive, ({ d with ka := k } : Dev).still := fun k => (d.alike_domains d.core k d.bge).still hs
    refine ⟨fun hr hw => ?warning, fun hv hl hh src ha => ?wake, fun hv hl hh hn src ha => ?held,
      fun hv hl hh hen h0 hx => ?alarm, fun hh hn => ?holdEnd, fun hl => ?rearm, ?vpp⟩
    case warning => exact run_settles powerFailWarning s _ (powerFailWarning_armed d hr hw)
    case wake =>
      exact run_is (kaWake src) s _ ((kaWake_armed src d hv hl ha).trans (d.wakeUp_now src.code hl hh)) (hka _)
    case held =>
      exact run_is (kaWake src) s _ ((kaWake_armed src d hv hl ha).trans (d.wakeUp_held src.code hh hn)) (hka _)
    case alarm => exact run_is wakeAlarm s _ (wakeAlarm_stabled d hv hl hh hen h0 hx) (hka _)
    case holdEnd => exact run_is pwrEnHoldEnd s _ (pwrEnHoldEnd_ends d hh hn) (hka _)
    case rearm =>
      obtain ⟨_, _, _, hleaving, _⟩ := hs.1
      have hcore : d.Alike { d with core := { d.core with warnArmed := true } } := d.alike_domains _ d.ka d.bge
      refine run_is busSnsRearm s _ (busSnsRearm_awake d hl hleaving) ?_
      split
      · exact (hcore.trans (Dev.checkpointsLast_alike _ false)).still hs
      · exact hcore.still hs
    case vpp =>
      exact run_is (vppWindowChange true) s _ rfl
        (Dev.still_congr d _ hs rfl rfl rfl rfl rfl rfl rfl rfl rfl rfl rfl)

end Sys2Proof.Machine
end

section
/-! Evaluation and timers of the battery strings (O31), and the hold-up, the anchors and the checkpoints of the charge
estimator (O32). -/
namespace Sys2Proof.Machine

/-! ### Timers of a string -/

section
variable (j : Fin 4) (d : Dev) (hr : d.coreRuns = true)
include hr

/-- An evaluation samples KAs, takes the transitions and then the levels and the charge limit; with string 3 the shelf's
sum is checked (R242, R248). -/
theorem stringEvaluation_evaluates (low : Bool) : stringEvaluation j low d =
    let e := ((((d.strMissing j.val).sampleKa j.val low).strMoves j.val).strLevels j.val).strCharge j.val
    if j.val = 3 then e.holdup else e := if_neg (by simp [hr])

/-- A start that waits for the end of pre_gap asks for leave then (R244). -/
theorem preGapEnd_asks (hs : (d.str j.val).state = .starting) (hg : (d.str j.val).gapping = true) :
    preGapEnd j d = (d.until (d.gapEnd j.val)).strAsk j.val := if_pos (by simp [hr, hs, hg])

/-- A precharge that has lasted pre_timeout is reported and ends in FAULTED with cause 4 (Table 9-1). -/
theorem prechargeTimeout_faults (hs : (d.str j.val).state = .precharge) : prechargeTimeout j d =
    ((d.until ((d.str j.val).since + BSM_STR_PRE.pre_timeout d j.val * 100 * 40000)).strReport j.val 0x30).strFault
      j.val 4 := if_pos (by simp [hr, hs])

/-- A contact that has not closed in close_time is reported, and the string opens with cause 5 (Table 9-1). -/
theorem contactorNoClose_opens (hs : (d.str j.val).state = .closing) (hk : (d.str j.val).kas = false) :
    contactorNoClose j d = ((d.until ((d.str j.val).since + BSM_STR_K.close_time d j.val * 40000)).strReport
      j.val 0x31).strOpen j.val 5 stAborted := if_pos (by simp [hr, hs, hk])

/-- After pull_in the coil drive goes to its hold duty (R242). -/
theorem pullInEnd_holds (hk : (d.str j.val).kd = true) (hh : (d.str j.val).held = false) : pullInEnd j d =
    (d.until ((d.str j.val).kdAt + BSM_STR_K.pull_in d j.val * 40000)).modStr j.val (fun x => { x with held := true }) :=
  if_pos (by simp [hr, hk, hh])

/-- The precharge drive turns off at the end of the overlap (R242). -/
theorem pcOverlapEnd_ends (t : Nat) (ht : (d.str j.val).shut = some t) : pcOverlapEnd j d =
    (d.until t).pcOff j.val := by
  simp only [pcOverlapEnd, hr, ht]

/-- A deep discharge is reported, opens the string with cause 7, and may call for Depot (R243, R268). -/
theorem stringUndervoltage_opens (t : Nat) (hs : (d.str j.val).state = .connected)
    (ht : (d.str j.val).cutFrom = some t) : stringUndervoltage j d =
      (((d.until (t + BSM_STR_CUT.cut_time d j.val * 10 * 40000)).strReport j.val 0x34).strOpen j.val 7
        stAborted).depotCall := by
  simp [stringUndervoltage, hr, hs, ht, ticksPerMs]

/-- A wait for a low current that has lasted open_wait ends in a load break (R246). -/
theorem openWaitExpiry_breaks (t : Nat) (hs : (d.str j.val).state = .connected) (ht : (d.str j.val).wait = some t) :
    openWaitExpiry j d = ((d.until t).loadBreak j.val).strOpen j.val 1 stAborted := by
  simp [openWaitExpiry, hr, hs, ht]

/-- A contact that stays closed for open_time is a weld, with cause 6 (R245, Table 9-1). -/
theorem contactorWelded_faults (hs : (d.str j.val).state = .opening) (hk : (d.str j.val).kas = true) :
    contactorWelded j d = ((d.until ((d.str j.val).since + BSM_STR_OPEN.open_time d j.val * 40000)).strReport
      j.val 0x33).strFault j.val 6 := if_pos (by simp [hr, hs, hk])

end

/-- Settles O31: the evaluation, and each timer's equation in the state it speaks of. -/
theorem stringTimers : Obligations.StringTimers := by
  intro s j hrun d x ends
  have hr : d.coreRuns = true := hrun
  refine ⟨fun low => ?evaluation, fun hs hg => ?gap, fun hs => ?precharge, fun hs hk => ?noClose, fun hk hh => ?pullIn,
    fun t ht => ?overlap, fun t hs ht => ?low, fun t hs ht => ?wait, fun hs hk => ?weld⟩
  case evaluation => exact run_settles (stringEvaluation j low) s _ (stringEvaluation_evaluates j d hr low)
  case gap => exact run_settles (preGapEnd j) s _ (preGapEnd_asks j d hr hs hg)
  case precharge => exact run_settles (prechargeTimeout j) s _ (prechargeTimeout_faults j d hr hs)
  case noClose => exact run_settles (contactorNoClose j) s _ (contactorNoClose_opens j d hr hs hk)
  case pullIn => exact run_settles (pullInEnd j) s _ (pullInEnd_holds j d hr hk hh)
  case overlap => exact run_settles (pcOverlapEnd j) s _ (pcOverlapEnd_ends j d hr t ht)
  case low => exact run_settles (stringUndervoltage j) s _ (stringUndervoltage_opens j d hr t hs ht)
  case wait => exact run_settles (openWaitExpiry j) s _ (openWaitExpiry_breaks j d hr t hs ht)
  case weld => exact run_settles (contactorWelded j) s _ (contactorWelded_faults j d hr hs hk)

/-! ### Hold-up, anchors and checkpoints -/

/-- The hold-up ends 1 s after the sum fell, with its length and its charge (R248). -/
theorem holdupEnd_ends (d : Dev) (t l : Nat) (hr : d.coreRuns = true) (ht : d.shelf.since = some t)
    (hl : d.shelf.lowFrom = some l) : holdupEnd d =
      let e := d.until (l + 40000000)
      ({ e with shelf := { e.shelf with since := none, lowFrom := none, run := 0 } } : Dev).raise 0x0159 clsC 108
        (held 0xFFFFFFFF ((e.core.uptime - t) / 40000)) (word32 (inMah e.shelf.charge)) := by
  simp only [holdupEnd, hr, ht, hl]
  rfl

/-- The estimator at an anchor, ANCHOR_EMPTY or ANCHOR_FULL: its charge is `q` with the uncertainty of an anchor, a span
begins where the string is full, and the value shown before, `old`, is shown still (R253, R254, R256, R258). -/
def Dev.atAnchor (d : Dev) (j : Nat) (q : Int) (empty : Bool) (old : Int) (x : Estimator) : Estimator :=
  ({ x with q := q, u := x.part (BSM_STR_UNC.anc_unc d j), low := empty, span := !empty } : Estimator).redisplay old

section
variable (j : Fin 4) (d : Dev)

section
variable (hr : d.coreRuns = true) (hlive : (d.str j.val).est.live = true)
include hr hlive

/-- At ANCHOR_FULL the charge is the capacity (R253). -/
theorem anchorFull_anchors (t : Nat) (ht : (d.str j.val).est.full = some t) : anchorFull j d =
    let e := d.until (t + BSM_STR_ANCH.full_time d j.val * 40000000)
    let x := (e.str j.val).est
    let old := x.shown (BSM_STR_EST.floor d j.val)
    ((((e.modEst j.val (fun x => d.atAnchor j.val x.c false old x)).anchored j.val).raise 0x0150 clsC (104 + j.val)
      (word32 (inMah x.c)) (word32 x.unc)).strExhaust j.val x).strCheckpoint j.val false := by
  simp only [anchorFull, hr, hlive, ht]
  rfl

/-- At ANCHOR_EMPTY the charge is 0, once the capacity has been learned from what it was (R254, R258). -/
theorem anchorEmpty_anchors (t : Nat) (ht : (d.str j.val).est.empty = some t) : anchorEmpty j d =
    let e := d.until (t + BSM_STR_CUT.empty_time d j.val * 100 * 40000)
    let x := (e.str j.val).est
    let old := x.shown (BSM_STR_EST.floor d j.val)
    let learned := (e.raise 0x0151 clsC (104 + j.val) (word32 (inMah x.q)) (word32 x.unc)).strLearn j.val
    (((learned.modEst j.val (d.atAnchor j.val 0 true old)).anchored j.val).strExhaust j.val x).strCheckpoint
      j.val false := by
  simp only [anchorEmpty, hr, hlive, ht]
  rfl

/-- A period of checkpoints ends in one (R263). -/
theorem estimatorCheckpoint_writes : estimatorCheckpoint j d =
    (d.until ((d.str j.val).est.ckptAt + BSM_SHELF.ckpt_period d * 40000000)).strCheckpoint j.val false :=
  if_pos (by simp [hr, hlive])

end

section
variable (hlive : (d.str j.val).est.live = false)
include hlive

/-- An estimator that waits for its start takes no anchor and writes no checkpoint (R264). -/
theorem anchorFull_unrestored : anchorFull j d = d := by
  simp [anchorFull, hlive]

/-- See `anchorFull_unrestored`. -/
theorem anchorEmpty_unrestored : anchorEmpty j d = d := by
  simp [anchorEmpty, hlive]

/-- See `anchorFull_unrestored`. -/
theorem estimatorCheckpoint_unrestored : estimatorCheckpoint j d = d := if_neg (by simp [hlive])

end

end

/-- Settles O32: the end of the hold-up, and each event of an estimator by whether a start has restored it. -/
theorem estimatorAnchors : Obligations.EstimatorAnchors := by
  intro s j hrun d floor live ends
  have hr : d.coreRuns = true := hrun
  refine ⟨fun t l ht hl => ?holdup, fun t hlive ht => ?full, fun t hlive ht => ?empty, fun hlive => ?period,
    fun hlive => ?unrestored⟩
  case holdup => exact run_settles holdupEnd s _ (holdupEnd_ends d t l hr ht hl)
  case full => exact run_settles (anchorFull j) s _ (anchorFull_anchors j d hr hlive t ht)
  case empty => exact run_settles (anchorEmpty j) s _ (anchorEmpty_anchors j d hr hlive t ht)
  case period => exact run_settles (estimatorCheckpoint j) s _ (estimatorCheckpoint_writes j d hr hlive)
  case unrestored =>
    exact ⟨run_settles (anchorFull j) s _ (anchorFull_unrestored j d hlive),
      run_settles (anchorEmpty j) s _ (anchorEmpty_unrestored j d hlive),
      run_settles (estimatorCheckpoint j) s _ (estimatorCheckpoint_unrestored j d hlive)⟩

end Sys2Proof.Machine
end

section
/-! TIMETABLE_LOAD, TIMETABLE_RUN, POL_TRANSACTION and AVS_TRANSACTION (O47), the timers and monitors of the Timetable
(O33), and HALT_N with the Bell line (O34). -/
namespace Sys2Proof.Machine

/-! ### TIMETABLE_LOAD -/

section
variable (d : Dev) (p : Desc)

/-- At the Expert level the images follow the registers (Table 15-5). -/
theorem Dev.timetableGiven_expert (hx : p.expert = true) :
    d.timetableGiven p = some (p.images timetableRegs) := if_pos hx

/-- At the Standard level they are derived from the field list (R281, R394). -/
theorem Dev.timetableGiven_standard (hx : p.expert = false) : d.timetableGiven p =
    standardImages (d.timetableConv p) d.reg 0 p.given (fieldList timetableRegs) [] :=
  if_neg (by simp [hx])

/-- What a TIMETABLE_LOAD gives fits: its words are all there, its fields in range, and each rail's cross-field limits
are kept where it gives them (Table 10-15, R395). -/
theorem Dev.timetableFits_iff (ims : List (Nat × Nat)) (hg : d.timetableGiven p = some ims) :
    d.timetableFits p = true ↔
      4 * (if p.expert then timetableRegs.length else (fieldList timetableRegs).length) ≤ p.length.toNat ∧
      (p.expert = true → imagesOk ims = true) ∧
      (indices 16).all ((d.setImages ims).railRegsOk (p.gives (fieldList timetableRegs))) = true := by
  simp only [Dev.timetableFits, hg, Bool.and_eq_true, decide_eq_true_eq, p.imagesFit_iff]

end

/-- In DOWN what a TIMETABLE_LOAD gives takes effect where it fits (R281). -/
theorem specTimetableLoad_loads (o : OpenCmd) (d : Dev) (ims : List (Nat × Nat)) (hs : d.tt.state = .down)
    (hg : d.timetableGiven o.desc = some ims) (hfit : d.timetableFits o.desc = true) :
    specTimetableLoad.begin o d = (d.setImages ims).commitAll o.fetch stDone [] := by
  refine (if_neg (by simp [hs])).trans ?_
  rw [hg]
  exact if_pos hfit

/-! ### TIMETABLE_RUN -/

theorem specTimetableRun_up (o : OpenCmd) (d : Dev) (h : o.desc.byte 20 = 1) :
    specTimetableRun.begin o d = d.runUp o := if_pos h

theorem specTimetableRun_down (o : OpenCmd) (d : Dev) (h : o.desc.byte 20 = 0) :
    specTimetableRun.begin o d = d.runDown o.fetch := if_neg (by omega)

section
variable (d : Dev) (o : OpenCmd) (hl : d.leadsBell = true) (hn : d.noStarts = false)
include hl hn

/-- Nothing is left to raise in UP (R274). -/
theorem Dev.runUp_up (hs : d.tt.state = .up) : d.runUp o = d.finish o.fetch stDone [] := by
  simp [Dev.runUp, hl, hn, hs]

/-- In DOWN, with HALT_N high and no run queued, the run up begins with step 0 or waits for off_min (R274). -/
theorem Dev.runUp_down (hs : d.tt.state = .down) (hlevel : d.tt.level = true) (hq : d.tt.queued = none) :
    d.runUp o = d.ttUp ⟨some o.fetch, ringRank o.desc.ring.val, 0⟩ := by
  simp [Dev.runUp, hl, hn, hs, hlevel, hq]

/-- In FALLING it waits for the run down (R274). -/
theorem Dev.runUp_falling (hs : d.tt.state = .falling) (hq : d.tt.queued = none) :
    d.runUp o = d.modTt (fun t => { t with queued := some ⟨some o.fetch, ringRank o.desc.ring.val, 0⟩ }) := by
  simp [Dev.runUp, hl, hn, hs, hq]

end

section
variable (d : Dev) (k : Nat) (hl : d.leadsBell = true)
include hl

/-- From UP a run down begins at the last step (R277). -/
theorem Dev.runDown_up (hs : (d.ttUnqueue stSuperseded).tt.state = .up) :
    d.runDown k = (d.ttUnqueue stSuperseded).ttFall (some k) (TT_CTRL.last_step d) := by
  simp [Dev.runDown, hl, hs]

/-- From RISING it begins at the step that the run up has come to (R277). -/
theorem Dev.runDown_rising (hs : (d.ttUnqueue stSuperseded).tt.state = .rising) :
    d.runDown k = (d.ttUnqueue stSuperseded).ttFall (some k) (d.ttUnqueue stSuperseded).tt.step := by
  simp [Dev.runDown, hl, hs]

/-- In DOWN and HALTED nothing is left to take down (R274). -/
theorem Dev.runDown_done
    (hs : (d.ttUnqueue stSuperseded).tt.state = .down ∨ (d.ttUnqueue stSuperseded).tt.state = .halted) :
    d.runDown k = (d.ttUnqueue stSuperseded).finish k stDone [] := by
  rcases hs with hs | hs <;> simp [Dev.runDown, hl, hs]

end

/-! ### POL_TRANSACTION and AVS_TRANSACTION -/

/-- A POL_TRANSACTION that is not resumed takes its place in the queue of an enabled master (R292). -/
theorem specPolTransaction_queues (o : OpenCmd) (d : Dev) (hr : o.resumed = false)
    (hen : PB_CFG.en d o.desc.idx ≠ 0) : specPolTransaction.begin o d = d.pbPut o.desc.idx
      [⟨.user o.fetch, 3, o.desc.byte 21, none, o.desc.byte 22, polWrite o.desc, polRead o.desc, false, 0⟩] := by
  simp [specPolTransaction, hen, hr]

/-- An AVS_TRANSACTION that is not resumed takes its place in the queue of an enabled master (R294). -/
theorem specAvsTransaction_queues (o : OpenCmd) (d : Dev) (hr : o.resumed = false)
    (hen : AV_CFG.en d o.desc.idx ≠ 0) : specAvsTransaction.begin o d = d.avPut o.desc.idx
      [⟨.user o.fetch, o.desc.byte 20, o.desc.byte 21, o.desc.byte 22, o.desc.num 24 2, false⟩] := by
  simp [specAvsTransaction, hen, hr]

/-- Settles O47: TIMETABLE_LOAD by what its level gives, TIMETABLE_RUN by the state of the Timetable, and the two
transactions by the queue they enter. -/
theorem timetableAndBusCommands : Obligations.TimetableAndBusCommands := by
  intro s c d k ends
  refine ⟨fun e ims ha he hs hxp hst hlen hok hregs => ?load, fun e q ha he hb hl hn hq => ?up,
    fun e e1 ha he hb hl he1 => ?down, fun e ha he hen => ?pol, fun e ha he hen => ?avs⟩
  case load =>
    have hgiven : e.timetableGiven c = some ims := by
      cases hx : c.expert with
      | true => exact hxp hx ▸ e.timetableGiven_expert c hx
      | false => exact (e.timetableGiven_standard c hx).trans (hst hx)
    have hfit : e.timetableFits c = true := (e.timetableFits_iff c ims hgiven).mpr ⟨hlen, hok, hregs⟩
    subst he
    exact run_accepted specTimetableLoad c s _ ha (fun _ _ _ _ => rfl)
      (specTimetableLoad_loads (d.opened specTimetableLoad c) _ ims hs hgiven hfit)
  case up =>
    let o := d.opened specTimetableRun c
    have hup : ∀ x, e.runUp o = x → exec (.timetableRunUp c) s = ends x := fun x hx =>
      run_accepted specTimetableRun c s x ha (fun _ _ _ _ => rfl)
        ((specTimetableRun_up o _ hb).trans (he ▸ hx))
    subst hq
    exact ⟨fun hs hlevel hq => hup _ (e.runUp_down o hl hn hs hlevel hq),
      fun hs hq => hup _ (e.runUp_falling o hl hn hs hq), fun hs => hup _ (e.runUp_up o hl hn hs)⟩
  case down =>
    have hdown : ∀ x, e.runDown k = x → exec (.timetableRunDown c) s = ends x := fun x hx =>
      run_accepted specTimetableRun c s x ha (fun _ _ _ _ => rfl)
        ((specTimetableRun_down (d.opened specTimetableRun c) _ hb).trans (he ▸ hx))
    subst he1
    exact ⟨fun hs => hdown _ (e.runDown_up k hl hs), fun hs => hdown _ (e.runDown_rising k hl hs),
      fun hs => hdown _ (e.runDown_done k hl hs)⟩
  case pol =>
    subst he
    exact run_accepted specPolTransaction c s _ ha (fun _ _ _ _ => rfl)
      (specPolTransaction_queues (d.opened specPolTransaction c) _ rfl hen)
  case avs =>
    subst he
    exact run_accepted specAvsTransaction c s _ ha (fun _ _ _ _ => rfl)
      (specAvsTransaction_queues (d.opened specAvsTransaction c) _ rfl hen)

/-! ### Timers and monitors of the Timetable -/

/-- The rails of step `k` that Single-Line Working sheds and that are not OFF (R327). -/
def Dev.shedStanding (d : Dev) (k : Nat) : List Nat :=
  (d.railsOf k).filter (fun n => bitOf d.tt.shed n && (d.rail n).state != .off)

section
variable (d : Dev) (hr : d.coreRuns = true)
include hr

/-- The gap before a step up ends in that step (R275). -/
theorem stepGapUpEnd_runs (t : Nat) (hs : d.tt.state = .rising) (ht : d.tt.gap = some t) :
    stepGapUpEnd d = (d.until t).runStep true d.tt.step := by
  simp [stepGapUpEnd, hr, hs, ht]

/-- The gap before a step down ends in that step (R277). -/
theorem stepGapDownEnd_runs (t : Nat) (hs : d.tt.state = .falling) (ht : d.tt.gap = some t) :
    stepGapDownEnd d = (d.until t).runStep false d.tt.step := by
  simp [stepGapDownEnd, hr, hs, ht]

/-- In UP the gap of the shedding ends with the shed rails of its step going down (R327). -/
theorem stepGapDownEnd_sheds (t k : Nat) (hs : d.tt.state = .up) (ht : d.tt.shedGap = some t)
    (hk : d.tt.shedStep = some k) : stepGapDownEnd d =
      let e := (d.until t).modTt (fun s => { s with shedGap := none })
      (forAll (fun n d => d.railOffAction n 1 0x40 false) (e.shedStanding k) e).shedNext 40 := by
  simp [stepGapDownEnd, hr, hs, ht, hk, Dev.shedStanding]

/-- A rail's monitor takes its level, and the rail is looked at anew (R272). -/
theorem rmonChange_updates (n : Fin 16) (high : Bool) :
    rmonChange n high d = (d.modRail n.val (fun r => { r with level := high })).railUpdate n.val := if_pos hr

/-- A rail that is not good in pg_timeout is LATE (R275). -/
theorem pgTimeout_late (n : Fin 16) (hs : (d.rail n.val).state = .ramping) : pgTimeout n d =
    ((d.until ((d.rail n.val).since + TT_RAIL_TIM.pg_timeout d n.val * 40000)).railLate n.val 0).stepCheck :=
  if_pos (by simp [hr, hs])

/-- A rail that is not off in off_timeout counts as OFF, and the run is PARTIAL (R277). -/
theorem offTimeout_counts (n : Fin 16) (hs : (d.rail n.val).state = .falling) : offTimeout n d =
    let e := d.until ((d.rail n.val).since + TT_RAIL_TIM.off_timeout d n.val * 40000)
    (((e.modRail n.val (fun r => { r with state := .off })).modTt (fun t => { t with partly := true })).raise 0x0162 clsC
      (128 + n.val) (TT_RAIL_CFG.step d n.val) 0).railGone :=
  if_pos (by simp [hr, hs])

/-- RDISn is released after dis_time (R277). -/
theorem disTimeEnd_releases (n : Fin 16) (t : Nat) (ht : (d.rail n.val).dis = some t) :
    disTimeEnd n d = (d.until t).modRail n.val (fun r => { r with dis := none }) := by
  simp only [disTimeEnd, hr, ht]

/-- After off_min in DOWN a queued run up may begin (R274). -/
theorem offMinEnd_tries (hs : d.tt.state = .down) :
    offMinEnd d = (d.until (d.tt.downAt + TT_CTRL.off_min d * 10 * 40000)).ttTryQueued :=
  if_pos (by simp [hr, hs])

/-- After halt_min HALTED may end (R282). -/
theorem haltMinEnd_tries (hs : d.tt.state = .halted) :
    haltMinEnd d = (d.until (d.tt.haltAt + TT_BELL.halt_min d * 40000)).ttUnhalt :=
  if_pos (by simp [hr, hs])

end

/-- Settles O33: each timer's equation in the state it speaks of, and the monitor's on a running core. -/
theorem timetableTimers : Obligations.TimetableTimers := by
  intro s hrun d ends
  have hr : d.coreRuns = true := hrun
  refine ⟨fun t hs ht => ?gapUp, fun t hs ht => ?gapDown, fun t k hs ht hk => ?shed, fun n high => ?monitor,
    fun n hs => ?late, fun n hs => ?off, fun n t ht => ?dis, fun hs => ?offMin, fun hs => ?haltMin⟩
  case gapUp => exact run_settles stepGapUpEnd s _ (stepGapUpEnd_runs d hr t hs ht)
  case gapDown => exact run_settles stepGapDownEnd s _ (stepGapDownEnd_runs d hr t hs ht)
  case shed => exact run_settles stepGapDownEnd s _ (stepGapDownEnd_sheds d hr t k hs ht hk)
  case monitor => exact run_settles (rmonChange n high) s _ (rmonChange_updates d hr n high)
  case late => exact run_settles (pgTimeout n) s _ (pgTimeout_late d hr n hs)
  case off => exact run_settles (offTimeout n) s _ (offTimeout_counts d hr n hs)
  case dis => exact run_settles (disTimeEnd n) s _ (disTimeEnd_releases d hr n t ht)
  case offMin => exact run_settles offMinEnd s _ (offMinEnd_tries d hr hs)
  case haltMin => exact run_settles haltMinEnd s _ (haltMinEnd_tries d hr hs)

/-! ### HALT_N -/

/-- HALT_N that falls is low from then on (R282). -/
def Dev.haltLow (d : Dev) : Dev := d.modTt (fun t => { t with level := false })

section
variable (d : Dev)

/-- Where halt_in is set, the fall of HALT_N shuts every rail off (R282). -/
theorem haltNFall_shutsOff (hr : d.coreRuns = true) (hl : d.tt.level = true) (hi : TT_CTRL.halt_in d = 1) :
    haltNFall d = d.haltLow.ttShutOff false := if_pos (by simp [hr, hl, hi])

/-- Where it is not, HALT_N is low and nothing more (R282). -/
theorem haltNFall_ignored (hi : TT_CTRL.halt_in d = 0) : haltNFall d = d.haltLow := if_neg (by simp [hi])

/-- HALT_N that this device does not pull is high again, and a queued run up may begin (R282). -/
theorem haltNRise_tries (hr : d.coreRuns = true) (hd : d.tt.drive = false) :
    haltNRise d = (d.modTt (fun t => { t with level := true })).ttTryQueued :=
  (if_neg (by simp [hd])).trans (if_pos hr)

end

/-! ### The Bell line -/

/-- The direction and the step of a good frame are held as the last (R284). -/
def Dev.bellHeard (d : Dev) (cells : BitVec 8) : Dev :=
  d.modTt (fun t => { t with lastUp := bitOf cells.toNat 6, lastStep := bitsOf cells.toNat 2 4 })

section
variable (d : Dev) (hr : d.coreRuns = true)
include hr

section
variable (cells : BitVec 8) (hen : TT_BELL.en d = 1)
include hen

/-- A frame with a bad cell is counted and raised (R284). -/
theorem bellFrameReceived_bad (c : Nat) (hc : badCell cells = some c) : bellFrameReceived cells d =
    (d.modTt (fun t => { t with frameErr := held 255 (t.frameErr + 1) })).raise 0x0166 clsC 145 c 0 := by
  refine (if_neg (by simp [hr, hen])).trans ?_
  rw [hc]

/-- A good frame goes to the head, or is done by a member (R285, R286). -/
theorem bellFrameReceived_good (hc : badCell cells = none) : bellFrameReceived cells d =
    if TT_BELL.head d = 1 then (d.bellHeard cells).bellHead (bitOf cells.toNat 6) (bitsOf cells.toNat 2 4)
      else (d.bellHeard cells).bellMember (bitOf cells.toNat 6) (bitsOf cells.toNat 2 4) := by
  refine (if_neg (by simp [hr, hen])).trans ?_
  rw [hc]
  rfl

end

/-- A frame that has not returned is counted and raised, and the head goes on (R287). -/
theorem bellLost_goesOn (t : Nat) (ht : d.tt.ringEnd = some t) : bellLost d =
    let up := d.tt.state == .rising
    let e := (d.until t).modTt (fun t => { t with lost := held 255 (t.lost + 1) })
    Dev.stepNext 40 up true (e.raise 0x0165 clsB 145 d.tt.step (flag up)) := by
  simp only [bellLost, hr, ht]

end

/-- Settles O34: HALT_N by halt_in and by who pulls it, a frame by its cells and the part the device plays. -/
theorem haltAndBellLine : Obligations.HaltAndBellLine := by
  intro s hrun d ends
  have hr : d.coreRuns = true := hrun
  refine ⟨fun hl hi => ?falls, fun hi => ?ignored, fun hd => ?rises,
    fun hen cells => ⟨fun c hc => ?bad, fun hc hh => ?head, fun hc hh => ?member⟩, fun t ht => ?lost⟩
  case falls => exact run_settles haltNFall s _ (haltNFall_shutsOff d hr hl hi)
  case ignored => exact run_settles haltNFall s _ (haltNFall_ignored d hi)
  case rises => exact run_settles haltNRise s _ (haltNRise_tries d hr hd)
  case bad => exact run_settles (bellFrameReceived cells) s _ (bellFrameReceived_bad d hr cells hen c hc)
  case head =>
    exact run_settles (bellFrameReceived cells) s _ ((bellFrameReceived_good d hr cells hen hc).trans (if_pos hh))
  case member =>
    exact run_settles (bellFrameReceived cells) s _
      ((bellFrameReceived_good d hr cells hen hc).trans (if_neg (by omega)))
  case lost => exact run_settles bellLost s _ (bellLost_goesOn d hr t ht)

end Sys2Proof.Machine
end

section
/-! The PMBus and AVSBus masters at work (O35). -/
namespace Sys2Proof.Machine

/-! ### Changes of one PMBus master -/

section
variable (d : Dev) (b : Fin 4) (f g : PmbusMaster → PmbusMaster)

/-- A master that is changed. -/
theorem Dev.pb_modPb : (d.modPb b.val f).pb b.val = f (d.pb b.val) :=
  fileGet_fileMod_same d.pmbus b.val f default b.isLt

/-- Two changes of one master are one change. -/
theorem Dev.modPb_modPb : (d.modPb b.val f).modPb b.val g = d.modPb b.val (fun m => g (f m)) :=
  congrArg (fun v => { d with pmbus := v }) (fileMod_fileMod d.pmbus b.val f g)

/-- Changes that do the same to the master as it stands are the same. -/
theorem Dev.modPb_congr (h : f (d.pb b.val) = g (d.pb b.val)) : d.modPb b.val f = d.modPb b.val g := by
  refine congrArg (fun v => { d with pmbus := v }) ?_
  rw [fileMod_get d.pmbus b.val f default, fileMod_get d.pmbus b.val g default]
  exact congrArg (fun m => fileMod d.pmbus b.val fun _ => m) h

end

/-! ### Polls and alerts of a PMBus master -/

/-- The rails of a master with a property. -/
def Dev.railsOn (d : Dev) (b : Nat) (p : Nat → Bool) : List Nat :=
  d.railsIn.filter (fun n => TT_RAIL_CFG.bus d n == b && p n)

/-- A master that is told of an alert with nothing to do has its read of the Alert Response Address queued (R291). -/
theorem Dev.pbAlert_queues (d : Dev) (b : Nat) (ha : (d.pb b).alert = true) (hen : PB_CFG.alert_en d b = 1)
    (hc : (d.pb b).current = none) (hq : (d.pb b).queue = []) :
    d.pbAlert b = d.modPb b (fun m => { m with queue := m.queue ++ [alertItem] }) :=
  if_pos (by simp [ha, hen, hc, hq])

/-- A master whose alert line is high queues no read (R291). -/
theorem Dev.pbAlert_high (d : Dev) (b : Nat) (ha : (d.pb b).alert = false) : d.pbAlert b = d :=
  if_neg (by simp [ha])

/-- A master that is busy goes on with its transaction. -/
theorem Dev.pbServe_busy (d : Dev) (b : Nat) (hc : ((d.pbAlert b).pb b).current.isSome = true) :
    d.pbServe b = d.pbAlert b := if_pos (.inr hc)

/-- An idle master with a read of the Alert Response Address alone in its queue sends it (R291). -/
theorem Dev.pbServe_alertRead (d : Dev) (b : Nat) (hen : PB_CFG.en (d.pbAlert b) b ≠ 0)
    (hc : ((d.pbAlert b).pb b).current = none) (hq : ((d.pbAlert b).pb b).queue = [alertItem]) :
    d.pbServe b = (d.pbAlert b).pbStart b [] alertItem := by
  refine (if_neg (by simp [hen, hc])).trans ?_
  rw [hq]
  rfl

section
variable (b : Fin 4) (d : Dev) (hr : d.coreRuns = true)
include hr

/-- Every poll_ms the rails a master monitors are polled, and the next period begins (R289). -/
theorem pmbusPollTimer_polls (hen : PB_CFG.en d b.val = 1) : pmbusPollTimer b d =
    let e := (d.until (d.pb b.val).pollAt).modPb b.val (fun m => { m with
      pollAt := (d.until (d.pb b.val).pollAt).now + PB_CFG.poll_ms d b.val * 40000 })
    forAll (fun n d => d.pollRail n) (e.railsOn b.val e.busMon) e :=
  if_pos (by simp [hr, hen])

/-- Every tele_ms the readings of the rails on a master are polled, and the next period begins (R289). -/
theorem pmbusTeleTimer_reads (hen : PB_CFG.en d b.val = 1) (hms : PB_CFG.tele_ms d b.val ≠ 0) : pmbusTeleTimer b d =
    let e := (d.until (d.pb b.val).teleAt).modPb b.val (fun m => { m with
      teleAt := (d.until (d.pb b.val).teleAt).now + PB_CFG.tele_ms d b.val * 10 * 40000 })
    forAll (fun n d => d.teleRail n) (e.railsOn b.val e.onBus) e :=
  if_pos (by simp [hr, hen, hms])

/-- A master with nothing to do reads the Alert Response Address as its alert line goes low (R291). -/
theorem smbAlert_reads (hen : PB_CFG.en d b.val = 1) (ha : PB_CFG.alert_en d b.val = 1)
    (hc : (d.pb b.val).current = none) (hq : (d.pb b.val).queue = []) : smbAlert b true d =
      (d.modPb b.val (fun m => { m with alert := true, current := some alertItem })).emit (.bus b.val [0x19]) := by
  let low := d.modPb b.val (fun m => { m with alert := true })
  have hlow : low.pb b.val = { d.pb b.val with alert := true } := d.pb_modPb b _
  have hqueued := low.pbAlert_queues b.val (by rw [hlow]) ha (by rw [hlow]; exact hc) (by rw [hlow]; exact hq)
  have hpb : (low.pbAlert b.val).pb b.val = { d.pb b.val with alert := true, queue := [alertItem] } := by
    rw [hqueued, Dev.pb_modPb, hlow, hq]
    rfl
  have hsent : low.pbServe b.val = (low.pbAlert b.val).pbStart b.val [] alertItem := by
    refine low.pbServe_alertRead b.val ?_ (by rw [hpb]; exact hc) (by rw [hpb])
    rw [hqueued]
    exact ne_of_eq_of_ne hen one_ne_zero
  have hone : low.pbAlert b.val = d.modPb b.val (fun m => { m with alert := true, queue := m.queue ++ [alertItem] }) := by
    rw [hqueued]
    exact d.modPb_modPb b _ _
  calc smbAlert b true d = low.pbServe b.val := if_pos hr
    _ = ((low.pbAlert b.val).modPb b.val (fun m => { m with
          queue := [], current := some alertItem, paged := ((low.pbAlert b.val).pb b.val).paged })).emit
            (.bus b.val [0x19]) := hsent
    _ = _ := by
      rw [hpb, hone, Dev.modPb_modPb]
      refine congrArg (fun e : Dev => e.emit (.bus b.val [0x19])) (d.modPb_congr b _ _ ?_)
      simp [hq]

/-- A busy master goes on as its alert line returns high (R291). -/
theorem smbAlert_returns (hc : (d.pb b.val).current.isSome = true) :
    smbAlert b false d = d.modPb b.val (fun m => { m with alert := false }) := by
  let high := d.modPb b.val (fun m => { m with alert := false })
  have hpb : high.pb b.val = { d.pb b.val with alert := false } := d.pb_modPb b _
  have hnone : high.pbAlert b.val = high := high.pbAlert_high b.val (by rw [hpb])
  calc smbAlert b false d = high.pbServe b.val := if_pos hr
    _ = high.pbAlert b.val := high.pbServe_busy b.val (by rw [hnone, hpb]; exact hc)
    _ = high := hnone

end

/-! ### The end of a PMBus transaction -/

/-- A good transaction ends the row of those that have failed for its rails (R273). -/
def Dev.railsAnswered (d : Dev) (b : Nat) (x : BusItem) : Dev :=
  forAll (fun n d => d.modRail n (fun r => { r with fails := 0 })) (d.railsAt b x.addr) d

/-- A failed transaction is counted and over, after nine clocks where the bus needs them (R288, Table 10-17). -/
def Dev.pbFailed (d : Dev) (b o : Nat) (stuck : Bool) : Dev := (d.modPb b (fun m => m.countFail o)).pbOver b stuck

/-- A failed transaction is told and counts for its rails, and the master serves its queue (R273, R288, R291). -/
def Dev.pbTold (d : Dev) (b o addr : Nat) : Dev :=
  let told := d.raiseLimited 0x0168 clsC (148 + b) o addr
  (forAll (fun n d => d.railMissed n o) (told.railsAt b addr) told).pbServe b

section
variable (b : Fin 4) (x : BusItem) (data : List Byte) (stuck : Bool) (d : Dev) (hr : d.coreRuns = true)
  (hx : (d.pb b.val).current = some x) (o : Fin 5)
include hr hx

/-- A transaction that is good, as one with a PEC mismatch is where PEC is off, reaches its user, and the next is served
(R288, R291). -/
theorem pmbusTransactionDone_good (ho : o = 0 ∨ o = 3 ∧ PB_CFG.pec d b.val = 0) : pmbusTransactionDone b o data stuck d =
    (((d.railsAnswered b.val x).pbOver b.val stuck).busDone b.val x 0 data).pbServe b.val := by
  have hgood : o.val = 0 ∨ (o.val = 3 ∧ PB_CFG.pec d b.val = 0) := by
    rcases ho with rfl | ⟨rfl, hp⟩
    · exact .inl rfl
    · exact .inr ⟨rfl, hp⟩
  simp only [pmbusTransactionDone, hr, hx]
  exact if_pos hgood

/-- A transaction that fails is sent again while retries are left, and else its user hears of it (R288). -/
theorem pmbusTransactionDone_fails (ho : o ≠ 0) (hp : o = 3 → PB_CFG.pec d b.val ≠ 0) :
    pmbusTransactionDone b o data stuck d =
      let e := d.pbFailed b.val o.val (stuck || o == 4)
      (if x.tries < PB_CFG.retries d b.val then e.pbAgain b.val x else e.busDone b.val x o.val []).pbTold b.val o.val
        x.addr := by
  have hbad : ¬ (o.val = 0 ∨ (o.val = 3 ∧ PB_CFG.pec d b.val = 0)) := by
    rintro (h | ⟨h, hpec⟩)
    · exact ho (Fin.ext h)
    · exact hp (Fin.ext h) hpec
  simp only [pmbusTransactionDone, hr, hx]
  exact if_neg hbad

end

/-! ### AVSBus -/

/-- A frame with a bad CRC-3 is counted and told (R293). -/
def Dev.avFailed (d : Dev) (a : Nat) (x : AvsItem) : Dev :=
  (d.modAv a (fun m => { m with current := none, crcErr := held 255 (m.crcErr + 1) })).raiseLimited 0x016A clsC (152 + a)
    x.sel 0

section
variable (a : Fin 2) (d : Dev) (hr : d.coreRuns = true)
include hr

section
variable (x : AvsItem) (ack : Fin 4) (status : Fin 32) (data : BitVec 16) (hx : (d.av a.val).current = some x)
include hx

/-- A good response reaches its user, and the next frame is served (R293, R294). -/
theorem avsFrameDone_good : avsFrameDone a ack status data true d =
    ((d.modAv a.val (fun m => { m with current := none, last := status.val })).avsDone a.val x ack.val status.val
      data.toNat).avServe a.val := by
  simp only [avsFrameDone, hr, hx, if_true]

/-- A frame whose response is bad is sent again, once, and else completes with that response (R293). -/
theorem avsFrameDone_bad : avsFrameDone a ack status data false d =
    let e := d.avFailed a.val x
    if x.again then (e.avsDone a.val x ack.val status.val data.toNat).avServe a.val
      else e.avStart a.val { x with again := true } (e.av a.val).queue := by
  simp only [avsFrameDone, hr, hx]
  rfl

end

section
variable (hen : AV_CFG.en d a.val = 1)
include hen

/-- An alert queues a read of the status of each Select (R294). -/
theorem avsAlert_reads : avsAlert a d = (d.modAv a.val (fun m => { m with alert := true })).avPut a.val
    ((d.avSelects a.val).map (fun s => ⟨.status, 2, 0xE, s, 0, false⟩)) := if_pos (by simp [hr, hen])

/-- A resynchronisation that falls due during a frame follows it (R293). -/
theorem avsResyncTimer_owes (hc : ((d.until (d.av a.val).syncAt).av a.val).current.isSome = true) :
    avsResyncTimer a d =
      let e := d.until (d.av a.val).syncAt
      e.modAv a.val (fun m => { m with syncAt := e.now + 100 * 40000, syncOwed := true }) :=
  (if_neg (by simp [hr, hen])).trans (if_pos hc)

/-- An idle master resynchronises, and the next 100 ms begin (R293). -/
theorem avsResyncTimer_syncs (hc : ((d.until (d.av a.val).syncAt).av a.val).current = none) : avsResyncTimer a d =
    let e := d.until (d.av a.val).syncAt
    (e.modAv a.val (fun m => { m with syncAt := e.now + 100 * 40000, syncOwed := false })).emit (.avsSync a.val) :=
  (if_neg (by simp [hr, hen])).trans ((if_neg (by simp [hc])).trans (if_pos hen))

end

end

/-- Settles O35: the timers and the alert of a PMBus master, its transaction by how it ends, an AVSBus frame by its CRC
and whether it was sent again, and what an enabled AVSBus master does at an alert and every 100 ms. -/
theorem busMasters : Obligations.BusMasters := by
  intro s hrun d ends
  have hr : d.coreRuns = true := hrun
  refine ⟨fun b hen => ⟨?poll, fun hms => ?tele, fun ha hc hq => ?low, fun hc => ?high⟩,
    fun b x data stuck hx => ⟨fun o ho => ?good, fun o ho hp => ?fails⟩,
    fun a x ack status data hx => ⟨?response, fun hf => ?again, fun hf => ?ends⟩,
    fun a hen => ⟨?alert, fun hc => ?owed, fun hc => ?sync⟩⟩
  case poll => exact run_settles (pmbusPollTimer b) s _ (pmbusPollTimer_polls b d hr hen)
  case tele => exact run_settles (pmbusTeleTimer b) s _ (pmbusTeleTimer_reads b d hr hen hms)
  case low => exact run_settles (smbAlert b true) s _ (smbAlert_reads b d hr hen ha hc hq)
  case high => exact run_settles (smbAlert b false) s _ (smbAlert_returns b d hr hc)
  case good =>
    exact run_settles (pmbusTransactionDone b o data stuck) s _ (pmbusTransactionDone_good b x data stuck d hr hx o ho)
  case fails =>
    have h := pmbusTransactionDone_fails b x data stuck d hr hx o ho hp
    exact ⟨fun ht => run_settles (pmbusTransactionDone b o data stuck) s _
        (h.trans (congrArg (fun e : Dev => e.pbTold b.val o.val x.addr) (if_pos ht))),
      fun ht => run_settles (pmbusTransactionDone b o data stuck) s _
        (h.trans (congrArg (fun e : Dev => e.pbTold b.val o.val x.addr) (if_neg (Nat.not_lt.mpr ht))))⟩
  case response =>
    exact run_settles (avsFrameDone a ack status data true) s _ (avsFrameDone_good a d hr x ack status data hx)
  case again =>
    exact run_settles (avsFrameDone a ack status data false) s _
      ((avsFrameDone_bad a d hr x ack status data hx).trans (if_neg (by simp [hf])))
  case ends =>
    exact run_settles (avsFrameDone a ack status data false) s _
      ((avsFrameDone_bad a d hr x ack status data hx).trans (if_pos hf))
  case alert => exact run_settles (avsAlert a) s _ (avsAlert_reads a d hr hen)
  case owed => exact run_settles (avsResyncTimer a) s _ (avsResyncTimer_owes a d hr hen hc)
  case sync => exact run_settles (avsResyncTimer a) s _ (avsResyncTimer_syncs a d hr hen hc)

end Sys2Proof.Machine
end

section
/-! Timers of the Token Office (O36). -/
namespace Sys2Proof.Machine

/-! ### The request a slot has waiting -/

/-- With no second request waiting, the request of a slot is its own (R433). -/
theorem Dev.waitingOf_own (d : Dev) (i : Nat) (h : i = slotFuse → d.slotBusy slotSecond = false) : d.waitingOf i = i :=
  if_neg fun ⟨hi, hb⟩ => absurd ((h hi).symm.trans hb) Bool.false_ne_true

/-- A second request that waits is the one slot 78 gives up (R433). -/
theorem Dev.waitingOf_second (d : Dev) (h : d.slotBusy slotSecond = true) : d.waitingOf slotFuse = slotSecond :=
  if_pos ⟨rfl, h⟩

/-! ### What each timer does -/

section
variable (d : Dev) (hr : d.coreRuns = true)
include hr

/-- The recovering amount that is due first becomes available, and grants are evaluated (R302). -/
theorem surgeRecovered_returns (r : Recovering) (h : firstDue d.office.recovering = some r) : surgeRecovered d =
    let e := d.until r.due
    ({ e with office := { e.office with recovering := e.office.recovering.erase r } } : Dev).owe .office := by
  simp only [surgeRecovered, hr, h]

/-- The request `i` that a slot has waiting is given up at its limit (R303). -/
theorem tokenWaitLimit_givesUp (slot : Fin 79) (i : Nat) (hi : d.waitingOf slot.val = i)
    (hw : (d.slot i).state = .waiting) : tokenWaitLimit slot d = (d.until (d.slot i).limit).giveUp i := by
  subst hi
  exact if_pos (by simp [hr, hw])

/-- A held token with a duration returns at its end (R296). -/
theorem tokenDurationEnd_returns (slot : Fin 79) (hh : (d.slot slot.val).state = .holding)
    (hl : (d.slot slot.val).lapses ≠ 0) :
    tokenDurationEnd slot d = (d.until (d.slot slot.val).lapses).release slot.val := if_pos (by simp [hr, hh, hl])

end

/-- Settles O36: each timer's equation, the wait limit by whether the request is the slot's own or the one that waits
beside a held token. -/
theorem tokenTimers : Obligations.TokenTimers := by
  intro s hrun d ends
  have hr : d.coreRuns = true := hrun
  refine ⟨fun r hfirst => ?recovered, fun slot hw hfree => ?own, fun hb hw => ?second, fun slot hh hl => ?returns⟩
  case recovered => exact run_settles surgeRecovered s _ (surgeRecovered_returns d hr r hfirst)
  case own =>
    have hown : d.waitingOf slot.val = slot.val := d.waitingOf_own slot.val fun h => hfree (Fin.ext h)
    exact run_settles (tokenWaitLimit slot) s _ (tokenWaitLimit_givesUp d hr slot slot.val hown hw)
  case second =>
    exact run_settles (tokenWaitLimit 78) s _ (tokenWaitLimit_givesUp d hr 78 slotSecond (d.waitingOf_second hb) hw)
  case returns => exact run_settles (tokenDurationEnd slot) s _ (tokenDurationEnd_returns d hr slot hh hl)

end Sys2Proof.Machine
end

section
/-! The fetch of a host command: whose turn it is, and the checks of Table 14-6 (O50, O53, O54, O56, O57). -/
namespace Sys2Proof.Machine

/-! ### Steps and the commands they run -/

/-- Settles O50: each arm of the dispatch is one effect on the device, run, which leaves the queue. -/
theorem stepRunsTheFrontCommand : Obligations.StepRunsTheFrontCommand := by
  refine ⟨fun s c rest => rfl, fun s t c ht => ?queue, fun s h => ?idle⟩
  case queue =>
    obtain ⟨f, hf⟩ := exec_runs c s
    rw [← Host.Outcome.next.inj (hf.symm.trans ht)]
    rfl
  case idle =>
    unfold step
    rw [h]
    rfl

/-- A host command is the fetch of its descriptor by its row of Table 15-1. -/
theorem exec_hostCommand (i : Instr) (s : State) (sp : OpSpec) (c : Desc) (h : hostCommand i = some (sp, c)) :
    exec i s = run (fun d => d.fetch sp c) s := by
  unfold hostCommand at h
  split at h <;> cases h <;> rfl

/-- R398: the opcodes that Withdrawn admits. -/
def withdrawnCodes : List Nat := [0x00, 0x01, 0x02, 0x70, 0x90, 0xA1]

/-- R328: the opcodes that Single-Line Working admits whatever they carry, and those it admits as a shut-off. -/
def slwCodes : List Nat := [0x00, 0x01, 0x02, 0x70, 0x90, 0xA1, 0x60, 0x61, 0x73, 0x43, 0xF2]
def slwOffCodes : List Nat := [0x13, 0x31, 0x21, 0x41, 0x51]

/-- Check 6 by opcode: a shut-off carries 0 in byte 20, and LEG_CONFIGURE parks with 1. -/
def slwGate (code : Nat) : Desc → Bool :=
  if code ∈ slwCodes then fun _ => true
  else if code ∈ slwOffCodes then fun c => c.byte 20 == 0
  else if code = 0x18 then fun c => c.byte 20 == 1
  else fun _ => false

/-- Check 5 by opcode outside Withdrawn: programming alone looks at the lifecycle state. -/
def lifeGate (code : Nat) : Desc → Dev → Bool :=
  if code = 0x91 ∨ code = 0x92 then fun c d => d.progLife code c else fun _ _ => true

theorem hostCommand_inWithdrawn (i : Instr) (sp : OpSpec) (c : Desc) (h : hostCommand i = some (sp, c)) :
    sp.inWithdrawn = decide (sp.code ∈ withdrawnCodes) := by
  unfold hostCommand at h
  split at h <;> cases h <;> rfl

theorem hostCommand_inSlw (i : Instr) (sp : OpSpec) (c : Desc) (h : hostCommand i = some (sp, c)) :
    sp.inSlw = slwGate sp.code := by
  unfold hostCommand at h
  split at h <;> cases h <;> rfl

theorem hostCommand_life (i : Instr) (sp : OpSpec) (c : Desc) (h : hostCommand i = some (sp, c)) :
    sp.life = lifeGate sp.code := by
  unfold hostCommand at h
  split at h <;> cases h <;> rfl

theorem slwGate_iff (code : Nat) (c : Desc) : slwGate code c = true ↔
    code ∈ slwCodes ∨ (code ∈ slwOffCodes ∧ c.byte 20 = 0) ∨ (code = 0x18 ∧ c.byte 20 = 1) := by
  unfold slwGate
  by_cases h1 : code ∈ slwCodes
  · simp [h1]
  · by_cases h2 : code ∈ slwOffCodes
    · have h3 : code ≠ 0x18 := by rintro rfl; revert h2; decide
      simp [h1, h2, h3]
    · by_cases h3 : code = 0x18
      · subst h3
        simp [h1, h2]
      · simp [h1, h2, h3]

/-! ### The checks of Table 14-6 -/

/-- Check 5: the lifecycle state denies the opcode (R398). -/
def OpSpec.denied (sp : OpSpec) (c : Desc) (e : Dev) : Prop :=
  (if e.withdrawn then sp.inWithdrawn else sp.life c e) = false

/-- Check 6: Single-Line Working does not admit the opcode (R328). -/
def OpSpec.closed (sp : OpSpec) (c : Desc) (e : Dev) : Prop := e.il.slw = true ∧ sp.inSlw c = false

/-- Check 7: the level, the buffer or a parameter is out of range. -/
def OpSpec.misset (sp : OpSpec) (c : Desc) (e : Dev) : Prop :=
  (c.expert = true ∧ sp.expOk = false) ∨ c.buffer.toNat % 8 ≠ 0 ∨ sp.params c e = false

/-- Checks 5 to 7, and the acceptance of what passes them: `old` is the entry that a RESUME reopens. -/
def Dev.laterChecks (e : Dev) (sp : OpSpec) (c : Desc) (old : Option LedgerEntry) : Dev :=
  let no := fun st => e.refuse sp.code sp.ledger c st (sp.total c e)
  if (e.withdrawn && !sp.inWithdrawn) || (!e.withdrawn && !sp.life c e) then no stDenied
  else if e.il.slw && !sp.inSlw c then no stRejected
  else if (c.expert && !sp.expOk) || c.buffer.toNat % 8 ≠ 0 || !sp.params c e then no stBadParam
  else e.accept sp c old (sp.total c e)

section
variable (e : Dev) (sp : OpSpec) (c : Desc)

theorem Dev.check_wrongTarget (h : sp.wrongTarget c) :
    e.check sp c = e.refuse sp.code sp.ledger c stBadParam (sp.total c e) := if_pos h

theorem Dev.check_wrongLevel (ht : ¬ sp.wrongTarget c) (hl : sp.wrongLevel c e) :
    e.check sp c = e.refuse sp.code sp.ledger c stRejected (sp.total c e) := by
  refine (if_neg ht).trans (if_pos ?_)
  rcases hl with ⟨h1, h2⟩ | ⟨h1, h2⟩ <;> simp [h1, h2]

/-- With target and level in order, check 4 decides how the descriptor goes on (Table 14-11). -/
theorem Dev.check_resumption (ht : ¬ sp.wrongTarget c) (hl : ¬ sp.wrongLevel c e) :
    e.check sp c = match e.resumption sp.code c (sp.total c e) with
      | .atOnce st done tot => e.postCompletion sp.code c false st done tot []
      | .go l => e.laterChecks sp c (some l)
      | .fresh => e.laterChecks sp c none := by
  refine (if_neg ht).trans (if_neg fun h => hl ?_)
  simpa [OpSpec.wrongLevel] using h

variable (old : Option LedgerEntry)

theorem Dev.laterChecks_denied (h : sp.denied c e) :
    e.laterChecks sp c old = e.refuse sp.code sp.ledger c stDenied (sp.total c e) := by
  refine if_pos ?_
  unfold OpSpec.denied at h
  cases hw : e.withdrawn <;> simpa [hw] using h

variable (h5 : ¬ sp.denied c e)
include h5

theorem Dev.laterChecks_admitted : e.laterChecks sp c old =
    if e.il.slw && !sp.inSlw c then e.refuse sp.code sp.ledger c stRejected (sp.total c e)
    else if (c.expert && !sp.expOk) || c.buffer.toNat % 8 ≠ 0 || !sp.params c e then
      e.refuse sp.code sp.ledger c stBadParam (sp.total c e)
    else e.accept sp c old (sp.total c e) := by
  refine if_neg fun h => h5 ?_
  unfold OpSpec.denied
  cases hw : e.withdrawn <;> simpa [hw] using h

theorem Dev.laterChecks_closed (h : sp.closed c e) :
    e.laterChecks sp c old = e.refuse sp.code sp.ledger c stRejected (sp.total c e) :=
  (e.laterChecks_admitted sp c old h5).trans (if_pos (by simp [h.1, h.2]))

variable (h6 : ¬ sp.closed c e)
include h6

theorem Dev.laterChecks_open : e.laterChecks sp c old =
    if (c.expert && !sp.expOk) || c.buffer.toNat % 8 ≠ 0 || !sp.params c e then
      e.refuse sp.code sp.ledger c stBadParam (sp.total c e)
    else e.accept sp c old (sp.total c e) :=
  (e.laterChecks_admitted sp c old h5).trans (if_neg fun h => h6 (by simpa [OpSpec.closed] using h))

theorem Dev.laterChecks_misset (h : sp.misset c e) :
    e.laterChecks sp c old = e.refuse sp.code sp.ledger c stBadParam (sp.total c e) :=
  (e.laterChecks_open sp c old h5 h6).trans (if_pos (by simpa [OpSpec.misset, or_assoc] using h))

theorem Dev.laterChecks_accepts (h7 : ¬ sp.misset c e) : e.laterChecks sp c old = e.accept sp c old (sp.total c e) :=
  (e.laterChecks_open sp c old h5 h6).trans (if_neg fun h => h7 (by simpa [OpSpec.misset, or_assoc] using h))

end

/-- A descriptor without RESUME, or with no entry of its tag, is fresh (R386). -/
theorem Dev.resumption_fresh (e : Dev) (op : Nat) (c : Desc) (total : Nat)
    (h : c.resume = false ∨ e.entryOf c.tag.toNat = none) : e.resumption op c total = .fresh := by
  unfold Dev.resumption
  rcases h with h | h
  · simp [h]
  · rw [h]; exact ite_self _

theorem Dev.check_fresh (e : Dev) (sp : OpSpec) (c : Desc) (ht : ¬ sp.wrongTarget c) (hl : ¬ sp.wrongLevel c e)
    (hf : c.resume = false ∨ e.entryOf c.tag.toNat = none) : e.check sp c = e.laterChecks sp c none := by
  rw [e.check_resumption sp c ht hl, e.resumption_fresh _ _ _ hf]

/-- A descriptor at its ring's turn is taken off and checked (R377). -/
theorem Dev.fetch_turn (d : Dev) (sp : OpSpec) (c : Desc) (h : d.fetchTurn = some c.ring.val) :
    d.fetch sp c = (d.takeOff c.ring.val).check sp c := if_pos h

/-- A host command at its ring's turn leaves what its checks give, settled. -/
theorem exec_checked (i : Instr) (s : State) (sp : OpSpec) (c : Desc) (x : Dev) (h : hostCommand i = some (sp, c))
    (hturn : s.dev.silent.fetchTurn = some c.ring.val) (hx : (s.dev.silent.takeOff c.ring.val).check sp c = x) :
    exec i s = .next (s.put x.settle) := by
  rw [exec_hostCommand i s sp c h]
  exact run_settles _ s x ((s.dev.silent.fetch_turn sp c hturn).trans hx)

/-- Settles O56: check 5 by opcode, and the path of a fresh descriptor to it. -/
theorem withdrawnAdmitsSixOpcodes : Obligations.WithdrawnAdmitsSixOpcodes := by
  intro s i sp c h d e admitted
  have hsix : sp.inWithdrawn = true ↔ admitted := by
    rw [hostCommand_inWithdrawn i sp c h]
    exact decide_eq_true_iff
  refine ⟨hsix, fun h1 h2 x => ?life, fun hw hn hturn ht hl hf => ?denied⟩
  case life =>
    rw [hostCommand_life i sp c h, lifeGate, if_neg (by simp [h1, h2])]
  case denied =>
    have hdenied : sp.denied c e := (if_pos hw).trans (Bool.eq_false_iff.mpr (hn ∘ hsix.mp))
    exact exec_checked i s sp c _ h hturn ((e.check_fresh sp c ht hl hf).trans (e.laterChecks_denied sp c none hdenied))

/-- Settles O57: check 6 by opcode, and the path of a fresh descriptor to it. -/
theorem singleLineWorkingAdmits : Obligations.SingleLineWorkingAdmits := by
  intro s i sp c h d e admitted
  have hlist : sp.inSlw c = true ↔ admitted := by
    rw [hostCommand_inSlw i sp c h]
    exact slwGate_iff sp.code c
  refine ⟨hlist, fun hslw hn hturn ht hl hf h5 => ?_⟩
  have hclosed : sp.closed c e := ⟨hslw, Bool.eq_false_iff.mpr (hn ∘ hlist.mp)⟩
  have hadmits : ¬ sp.denied c e := Bool.ne_false_iff.mpr h5
  exact exec_checked i s sp c _ h hturn
    ((e.check_fresh sp c ht hl hf).trans (e.laterChecks_closed sp c none hadmits hclosed))

/-- Settles O53: what is not fetched changes nothing, and no ring has the turn while the HQI may not fetch. -/
theorem onlyTheTurnsRingIsFetched : Obligations.OnlyTheTurnsRingIsFetched := by
  intro s i sp c h hs d
  refine ⟨fun hturn => ?_, fun hoff => if_pos ?_⟩
  · rw [exec_hostCommand i s sp c h]
    exact run_is _ s d (if_neg hturn) (Dev.still_silent s.dev hs)
  · rcases hoff with h | h | h <;> simp [h]

end Sys2Proof.Machine
end

section
/-! Acceptance, target order and FENCE (O54), and RESUME (O55). -/
namespace Sys2Proof.Machine

/-! ### Target order and FENCE -/

/-- R378, R379: a command may begin behind `earlier` ones. -/
def Desc.mayFollow (c : Desc) (preempt : Bool) (earlier : List OpenCmd) : Prop :=
  (preempt = true ∨ ∀ x ∈ earlier, x.desc.target = c.target → 1 ≤ x.done) ∧
    ∀ x ∈ earlier, x.desc.ring = c.ring → x.desc.fence = false ∧ c.fence = false

/-- The staged commands before one of fetch number `k`. -/
def Dev.stagedBefore (d : Dev) (k : Nat) : List OpenCmd := d.hqi.staged.takeWhile (fun y => y.fetch != k)

theorem Dev.mayBegin_iff (d : Dev) (preempt : Bool) (o : OpenCmd) :
    d.mayBegin preempt o = true ↔ o.desc.mayFollow preempt (d.stagedBefore o.fetch) := by
  have himp : ∀ p q : Prop, (¬ p ∨ q) ↔ (p → q) := fun _ _ => imp_iff_not_or.symm
  simp only [Dev.mayBegin, Desc.mayFollow, Dev.stagedBefore, Bool.and_eq_true, Bool.or_eq_true, List.all_eq_true,
    bne_iff_ne, ne_eq, decide_eq_true_eq, Bool.not_eq_true', himp]

/-- The first unbegun command that may begin does, and the next is looked for after it. -/
theorem Dev.begin_first (d : Dev) (o : OpenCmd) (sp : OpSpec) (pre post : List OpenCmd)
    (hsplit : d.unbegun = pre ++ o :: post) (hsp : opcodeOf o.op = some sp)
    (hpre : ∀ x ∈ pre, ∀ q, opcodeOf x.op = some q → ¬ x.desc.mayFollow (q.preempt x.desc) (d.stagedBefore x.fetch))
    (hmay : o.desc.mayFollow (sp.preempt o.desc) (d.stagedBefore o.fetch)) :
    d.doWork .begin = (d.beginCmd sp o).owe .begin := by
  show d.beginNext (fun c => opcodeOf c.op) = _
  have hfind : d.unbegun.find? (fun c => match opcodeOf c.op with
      | some sp => d.mayBegin (sp.preempt c.desc) c
      | none => false) = some o := by
    refine List.find?_eq_some_iff_append.mpr ⟨?_, pre, post, hsplit, fun x hx => ?_⟩
    · rw [hsp]
      exact (d.mayBegin_iff _ o).mpr hmay
    · cases hq : opcodeOf x.op with
      | none => rfl
      | some q => simpa using fun h => hpre x hx q hq ((d.mayBegin_iff _ x).mp h)
  unfold Dev.beginNext
  dsimp only
  generalize hready : List.find? _ d.unbegun = ready
  obtain rfl : ready = some o := hready.symm.trans hfind
  dsimp only
  rw [hsp]

/-! ### Acceptance -/

/-- A command takes the last staging slot (R377). -/
def Dev.stage (d : Dev) (o : OpenCmd) : Dev := { d with hqi := { d.hqi with staged := d.hqi.staged ++ [o] } }

/-- Before the newest staged command stand all the others. -/
theorem Dev.stagedBefore_stage (d : Dev) (o : OpenCmd) (h : ∀ x ∈ d.hqi.staged, x.fetch ≠ o.fetch) :
    (d.stage o).stagedBefore o.fetch = d.hqi.staged := by
  show (d.hqi.staged ++ [o]).takeWhile _ = _
  rw [List.takeWhile_append_of_pos (by simpa using h)]
  simp

/-- The newest staged command begins, or waits (R378, R379). -/
theorem Dev.stage_begins (d : Dev) (sp : OpSpec) (o : OpenCmd) (h : ∀ x ∈ d.hqi.staged, x.fetch ≠ o.fetch) :
    (o.desc.mayFollow (sp.preempt o.desc) d.hqi.staged →
      (if (d.stage o).mayBegin (sp.preempt o.desc) o then (d.stage o).beginCmd sp o else d.stage o)
        = (d.stage o).beginCmd sp o) ∧
    (¬ o.desc.mayFollow (sp.preempt o.desc) d.hqi.staged →
      (if (d.stage o).mayBegin (sp.preempt o.desc) o then (d.stage o).beginCmd sp o else d.stage o) = d.stage o) := by
  have hiff := (d.stage o).mayBegin_iff (sp.preempt o.desc) o
  rw [d.stagedBefore_stage o h] at hiff
  exact ⟨fun hm => if_pos (hiff.mpr hm), fun hm => if_neg (hm ∘ hiff.mp)⟩

/-- Settles O54: one equation for each check, the acceptance of what passes them, and the search for the command that
begins. -/
theorem fetchChecksInOrder : Obligations.FetchChecksInOrder := by
  unfold Obligations.FetchChecksInOrder
  intro may
  refine ⟨?checks, ?begins⟩
  case begins =>
    intro d o sp pre post before hsplit hsp hpre hmay
    exact d.begin_first o sp pre post hsplit hsp hpre hmay
  case checks =>
    intro s i sp c h d e away hturn
    refine ⟨fun ht => ?target, fun ht hl => ?level, fun ht hl hf => ?later⟩
    case target => exact exec_checked i s sp c _ h hturn (e.check_wrongTarget sp c ht)
    case level => exact exec_checked i s sp c _ h hturn (e.check_wrongLevel sp c ht hl)
    case later =>
      intro denied closed bad
      have hcheck := e.check_fresh sp c ht hl hf
      refine ⟨fun h5 => ?denied, fun h5 h6 => ?closed, fun h5 h6 h7 => ?misset, fun h5 h6 h7 => ?accepted⟩
      case denied => exact exec_checked i s sp c _ h hturn (hcheck.trans (e.laterChecks_denied sp c none h5))
      case closed => exact exec_checked i s sp c _ h hturn (hcheck.trans (e.laterChecks_closed sp c none h5 h6))
      case misset => exact exec_checked i s sp c _ h hturn (hcheck.trans (e.laterChecks_misset sp c none h5 h6 h7))
      case accepted =>
        intro f k o g waits hk
        have haccept := hcheck.trans (e.laterChecks_accepts sp c none h5 h6 h7)
        have hg : g.hqi.staged = f.hqi.staged := by
          show (if sp.ledger then _ else _ : Dev).hqi.staged = _
          split <;> rfl
        have hbegins := g.stage_begins sp o (hg ▸ hk)
        rw [hg] at hbegins
        exact ⟨fun hm => exec_checked i s sp c _ h hturn (haccept.trans (hbegins.1 hm)),
          fun hm => exec_checked i s sp c _ h hturn (haccept.trans (hbegins.2 hm))⟩

/-! ### RESUME (Table 14-11) -/

section
variable (e : Dev) (c : Desc) (l : LedgerEntry) (op total : Nat) (hr : c.resume = true)
  (hl : e.entryOf c.tag.toNat = some l)
include hr hl

/-- A RESUME descriptor is matched against the newest entry with its tag. -/
theorem Dev.resumption_found : e.resumption op c total =
    if l.op ≠ op ∨ l.target ≠ c.target ∨ l.pcrc ≠ c.pcrc then .atOnce stBadParam 0 total
    else if l.opened then .atOnce stRejected 0 total
    else if l.status = stDone ∨ l.status = stPartial ∨ l.status = stSuperseded ∨ l.status = stBadParam
        ∨ l.status = stDenied ∨ l.status = stAuthFailed then .atOnce l.status l.done l.total
    else .go l := by
  unfold Dev.resumption
  rw [if_neg (by simp [hr]), hl]

theorem Dev.resumption_other (h : ¬ (l.op = op ∧ l.target = c.target ∧ l.pcrc = c.pcrc)) :
    e.resumption op c total = .atOnce stBadParam 0 total :=
  (e.resumption_found c l op total hr hl).trans (if_pos (by
    simpa only [not_and_or] using h))

variable (hsame : l.op = op ∧ l.target = c.target ∧ l.pcrc = c.pcrc)
include hsame

theorem Dev.resumption_open (ho : l.opened = true) : e.resumption op c total = .atOnce stRejected 0 total :=
  (e.resumption_found c l op total hr hl).trans ((if_neg (by simp [hsame])).trans (if_pos ho))

variable (ho : l.opened = false)
include ho

theorem Dev.resumption_ended
    (hst : l.status ∈ [stDone, stPartial, stSuperseded, stBadParam, stDenied, stAuthFailed]) :
    e.resumption op c total = .atOnce l.status l.done l.total :=
  (e.resumption_found c l op total hr hl).trans ((if_neg (by simp [hsame])).trans ((if_neg (by simp [ho])).trans
    (if_pos (by simpa using hst))))

theorem Dev.resumption_resumes (hst : l.status ∈ [stLinkReset, stAborted, stTokenTimeout, stRejected]) :
    e.resumption op c total = .go l := by
  have hopen : ¬ (l.status = stDone ∨ l.status = stPartial ∨ l.status = stSuperseded ∨ l.status = stBadParam
      ∨ l.status = stDenied ∨ l.status = stAuthFailed) := by
    simp only [List.mem_cons, List.not_mem_nil, or_false] at hst
    rcases hst with h | h | h | h <;> rw [h] <;> decide
  exact (e.resumption_found c l op total hr hl).trans ((if_neg (by simp [hsame])).trans ((if_neg (by simp [ho])).trans
    (if_neg hopen)))

end

/-- The device with one command staged. -/
def Dev.stagedAlone (d : Dev) (o : OpenCmd) : Dev := { d with hqi := { d.hqi with staged := [o] } }

/-- A command alone in staging that has committed stages goes on after them, or leaves off its path (R387). -/
theorem Dev.stage_resumes (g : Dev) (sp : OpSpec) (o : OpenCmd) (hs : g.hqi.staged = []) (hd : 1 ≤ o.done) :
    (if (g.stage o).mayBegin (sp.preempt o.desc) o then (g.stage o).beginCmd sp o else g.stage o) =
      match sp.resume { o with begun := true } (g.stagedAlone { o with begun := true }) with
      | some y => y
      | none => (g.stagedAlone { o with begun := true }).finish o.fetch stRejected [] := by
  have hbegins := (g.stage_begins sp o (by simp [hs])).1 ⟨.inr (by simp [hs]), by simp [hs]⟩
  have halone : (g.stage o).modCmd o.fetch (fun _ => { o with begun := true }) = g.stagedAlone { o with begun := true } := by
    unfold Dev.modCmd Dev.stage Dev.stagedAlone
    simp [hs]
  refine hbegins.trans ((if_pos hd).trans ?_)
  dsimp only
  rw [halone] <;> rfl

/-- GROUP_ENABLE on finds its group in RUN: its last stages commit at once (R387). -/
theorem specGroupEnable_resume_run (o : OpenCmd) (d : Dev) (hb : o.desc.byte 20 = 1)
    (hg : (d.group o.desc.idx).state = .run) : specGroupEnable.resume o d = some (d.commitAll o.fetch stDone []) := by
  simp only [specGroupEnable, hg, hb]

/-- Settles O55: check 4 by what the newest entry with the tag shows, and the way on after its stages. -/
theorem resumeOutcomes : Obligations.ResumeOutcomes := by
  unfold Obligations.ResumeOutcomes
  intro s i sp c l h d e ends same hturn ht hlev hr hl
  have hres := e.check_resumption sp c ht hlev
  refine ⟨fun hother => ?other, fun hsame ho => ?opened, fun hsame ho hst => ?ended,
    fun hsame ho hst h5 h6 hx hbuf hp => ?resumes⟩
  case other =>
    rw [e.resumption_other c l _ _ hr hl hother] at hres
    exact exec_checked i s sp c _ h hturn hres
  case opened =>
    rw [e.resumption_open c l _ _ hr hl hsame ho] at hres
    exact exec_checked i s sp c _ h hturn hres
  case ended =>
    rw [e.resumption_ended c l _ _ hr hl hsame ho hst] at hres
    exact exec_checked i s sp c _ h hturn hres
  case resumes =>
    intro f k o g x hs hdone
    rw [e.resumption_resumes c l _ _ hr hl hsame ho hst] at hres
    have hadmits : ¬ sp.denied c e := Bool.ne_false_iff.mpr h5
    have hopen : ¬ sp.closed c e := fun hc => Bool.false_ne_true (hc.2.symm.trans (h6 hc.1))
    have hset : ¬ sp.misset c e := by
      rintro (⟨hxp, hxo⟩ | hb | hpar)
      · exact Bool.false_ne_true (hxo.symm.trans (hx hxp))
      · exact hb hbuf
      · exact Bool.false_ne_true (hpar.symm.trans hp)
    have haccept : e.check sp c = match sp.resume o x with
        | some y => y
        | none => x.finish k stRejected [] :=
      hres.trans ((e.laterChecks_accepts sp c (some l) hadmits hopen hset).trans
        (g.stage_resumes sp { o with begun := false } hs hdone))
    have hsome : ∀ y, sp.resume o x = some y → exec i s = .next (s.put y.settle) := fun y hy => by
      rw [hy] at haccept
      exact exec_checked i s sp c _ h hturn haccept
    refine ⟨hsome, fun hnone => ?_, fun hi hb hg => ?_⟩
    · rw [hnone] at haccept
      exact exec_checked i s sp c _ h hturn haccept
    · subst hi
      cases h
      exact hsome _ (specGroupEnable_resume_run o x hb hg)

end Sys2Proof.Machine
end

section
/-! The commands that only read (O11). -/
namespace Sys2Proof.Machine

/-- Settles O11: NOP ends with no stage, and each other command writes its buffer and completes, by its one stage. -/
theorem readingCommands : Obligations.ReadingCommands := by
  intro s c hstill d
  have hs : d.still := Dev.still_silent s.dev hstill
  refine ⟨fun ha => run_nop s c hs ha, fun ha => ?snapshot, fun ha => ?ledger, fun ha => ?recorder, fun ha => ?fuse⟩
  case snapshot => exact run_writes specStateSnapshot c s _ _ hs ha (fun _ _ _ => rfl) rfl
  case ledger => exact run_writes specLedgerQuery c s _ _ hs ha (fun _ _ _ => rfl) rfl
  case recorder => exact run_writes specRecorderRead c s _ _ hs ha (fun _ _ _ => rfl) rfl
  case fuse => exact run_writes specFuseRead c s [] _ hs ha (fun _ _ _ => rfl) rfl

end Sys2Proof.Machine
end

section
/-! HALT and ENTER_SINGLE_LINE (O7), the timers of the Interlocking (O37) and of the Train Register (O38). -/
namespace Sys2Proof.Machine

/-! ### HALT and ENTER_SINGLE_LINE -/

/-- HALT with its pattern reports SAFETY_HALT and owes the shut-off of the Timetable (R279, R391). -/
theorem spHalt_halts (d : Dev) (h : d.coreRuns = true) : spHalt 0x5A5A5 d =
    d.spFrame ((d.report (det 0x44 160 0x01 accWrite (detAddr 0x05 0))).owe .halt) 0 0x4 0 :=
  (if_neg (by simp [h])).trans (if_neg (not_not.mpr rfl))

/-- ENTER_SINGLE_LINE with its pattern sets the hold and reports SAFETY_SINGLE_LINE (R330). -/
theorem spEnterSingleLine_enters (d : Dev) (h : d.coreRuns = true) : spEnterSingleLine 0xA5A5A d =
    d.spFrame (({ d with il := { d.il with spHold := true } } : Dev).report
      (det 0x45 161 0x01 accWrite (detAddr 0x05 0))) 0 0x5 0 :=
  (if_neg (by simp [h])).trans (if_neg (not_not.mpr rfl))

/-- Settles O7: both frames by their equations on a running core. -/
theorem safetyPortHaltAndSingleLine : Obligations.SafetyPortHaltAndSingleLine := by
  intro s hrun d
  exact ⟨run_settles (spHalt 0x5A5A5) s _ (spHalt_halts d hrun),
    run_settles (spEnterSingleLine 0xA5A5A) s _ (spEnterSingleLine_enters d hrun)⟩

/-! ### Timers of the Interlocking -/

/-- The one open settle window closes (R322). -/
theorem settleWindowClose_closes (d : Dev) (f : OpenFault) (h : d.il.faults = [f]) :
    settleWindowClose d = (d.until f.closes).closeFault f := by
  unfold settleWindowClose
  rw [h]
  rfl

/-- Beside the action of the Interlocking, silence of the host calls for the revert where hb_act says so (R331). -/
theorem Dev.heartbeatPolicy_host (e : Dev) :
    e.heartbeatPolicy 0x42 = if IL_HB.hb_act e = 1 then e.owe .hostRevert else e := by
  unfold Dev.heartbeatPolicy
  by_cases h : IL_HB.hb_act e = 1 <;> simp [h]

/-- Silence of the safety port calls for the shut-off where sp_act says so (R332). -/
theorem Dev.heartbeatPolicy_port (e : Dev) :
    e.heartbeatPolicy 0x43 = if IL_HB.sp_act e = 1 then e.owe .halt else e := by
  unfold Dev.heartbeatPolicy
  by_cases h : IL_HB.sp_act e = 1 <;> simp [h]

section
variable (d : Dev) (hr : d.coreRuns = true)
include hr

/-- The shedding goes on after its gap (R327). -/
theorem shedGapEnd_sheds (t : Nat) (hs : d.il.slw = true) (ht : d.il.shedAt = some t) :
    shedGapEnd d = (d.until t).shedNow := by
  unfold shedGapEnd
  rw [ht]
  exact if_pos (by simp [hr, hs])

/-- Silence of the host is told once, and the revert is owed where hb_act asks for it (R331). -/
theorem hostSilent_tells (ht : IL_HB.hb_timeout d ≠ 0) (hs : d.il.hostSilent = false) : hostSilent d =
    let e := ((d.until (d.il.hostBeat + IL_HB.hb_timeout d * 40000)).modIl (fun il => { il with hostSilent := true })).report
      (det 0x42 163 0x00 accRead (detAddr 0x05 0))
    if IL_HB.hb_act e = 1 then e.owe .hostRevert else e :=
  (if_pos (by simp [hr, ht, hs])).trans (Dev.heartbeatPolicy_host _)

/-- Silence of the safety port is told once, and the shut-off is owed where sp_act asks for it (R332). -/
theorem safetySilent_tells (ht : IL_HB.sp_timeout d ≠ 0) (hs : d.il.spSilent = false) : safetySilent d =
    let e := ((d.until (d.il.spBeat + IL_HB.sp_timeout d * 40000)).modIl (fun il => { il with spSilent := true })).report
      (det 0x43 163 0x01 accWrite (detAddr 0x05 0))
    if IL_HB.sp_act e = 1 then e.owe .halt else e :=
  (if_pos (by simp [hr, ht, hs])).trans (Dev.heartbeatPolicy_port _)

/-- The arm window ends (R335). -/
theorem injectWindowEnd_ends (t : Nat) (ht : d.il.armedUntil = some t) :
    injectWindowEnd d = (d.until t).modIl (fun il => { il with armedUntil := none }) := by
  unfold injectWindowEnd
  rw [ht]
  exact if_pos hr

/-- The oldest observation ends with its record, its event and its completion (R337). -/
theorem injectObservationEnd_ends (i : Injection) (rest : List Injection) (h : d.il.watched = i :: rest) :
    injectObservationEnd d =
      let e := ((d.until i.endAt).modIl (fun il => { il with
        watched := rest, laneCorrupt := if i.kind = 3 then none else il.laneCorrupt })).recordNow recInjection
          (leBytes i.kind 1 ++ leBytes (flag i.seen) 1 ++ leBytes i.ident 2 ++ leBytes i.word0 4 ++ leBytes i.word1 4
            ++ leBytes i.tag 2)
      (e.raise 0x0173 clsC 162 (i.kind * 2 ^ 24 + flag i.seen * 2 ^ 16 + i.ident) i.word0).commitAll i.fetch stDone
        [flag i.seen, i.ident] := by
  unfold injectObservationEnd
  rw [h]
  exact if_pos hr

end

/-- Settles O37: each timer's equation in the state it speaks of. -/
theorem interlockingTimers : Obligations.InterlockingTimers := by
  intro s hrun d ends
  have hr : d.coreRuns = true := hrun
  refine ⟨fun f hf => ?settle, fun t hs ht => ?shed, fun ht hs => ?host, fun ht hs => ?port, fun t ht => ?window,
    fun i rest hw => ?observed⟩
  case settle => exact run_settles settleWindowClose s _ (settleWindowClose_closes d f hf)
  case shed => exact run_settles shedGapEnd s _ (shedGapEnd_sheds d hr t hs ht)
  case host => exact run_settles hostSilent s _ (hostSilent_tells d hr ht hs)
  case port => exact run_settles safetySilent s _ (safetySilent_tells d hr ht hs)
  case window => exact run_settles injectWindowEnd s _ (injectWindowEnd_ends d hr t ht)
  case observed => exact run_settles injectObservationEnd s _ (injectObservationEnd_ends d hr i rest hw)

/-! ### What leaves the clear in progress alone -/

theorem TrainRegister.append_clearing (t : TrainRegister) (rs : List Draft) : (t.append rs).clearing = t.clearing := by
  induction rs generalizing t with
  | nil => rfl
  | cons r rs ih => exact ih _

theorem TrainRegister.enter_clearing (t : TrainRegister) (up : Stamp) (kept : Bool) (rs : List Draft) :
    (t.enter up kept rs).clearing = t.clearing := by
  unfold TrainRegister.enter
  dsimp only
  split
  · rfl
  split
  · rfl
  split
  · exact t.append_clearing rs
  · exact t.append_clearing (_ :: rs)

/-- Records enter the Train Register by their unit. -/
theorem Dev.record_tr (d : Dev) (kept : Bool) (rs : List Draft) : (d.record kept rs).tr = d.tr.enter d.stamp kept rs := by
  unfold Dev.record
  dsimp only
  (repeat' split) <;> rfl

theorem Dev.raise_clearing (d : Dev) (code cls src a b : Nat) : (d.raise code cls src a b).tr.clearing = d.tr.clearing := by
  simp only [Dev.raise, Dev.raiseInj, Dev.postEvent_tr, Dev.record_tr, TrainRegister.enter_clearing]

/-- A token that returns changes the Token Office and what is owed. -/
theorem Dev.release_rest (d : Dev) (i : Nat) :
    d.release i = { d with office := (d.release i).office, due := (d.release i).due } := by
  unfold Dev.release
  dsimp only
  split
  · rfl
  · rfl
  · split <;> rfl

theorem Dev.release_tr (d : Dev) (i : Nat) : (d.release i).tr = d.tr := Eq.trans (congrArg Dev.tr (d.release_rest i)) rfl

theorem Dev.commitWear_clearing (d : Dev) : d.commitWear.tr.clearing = d.tr.clearing := by
  unfold Dev.commitWear
  dsimp only
  split
  · rw [Dev.raise_clearing]
    exact forAll_keeps (fun (p : Nat × Nat) (x : Dev) => x.stored 0x15 p.1) (fun x => x.tr.clearing)
      (fun _ _ => rfl) _ _
  · exact forAll_keeps (fun (p : Nat × Nat) (x : Dev) => x.stored 0x15 p.1) (fun x => x.tr.clearing)
      (fun _ _ => rfl) _ _

theorem Dev.judgeFill_tr (d : Dev) : d.judgeFill.tr = d.tr := by
  unfold Dev.judgeFill
  split <;> rfl

/-! ### Timers of the Train Register -/

/-- The device as the record `r`, the oldest of the buffer, reaches its slot of the ring; `on` is the flush goal left. -/
def Dev.flushWrote (d : Dev) (r : Rec) (rest : List Rec) (on : Option Nat) : Dev :=
  ({ d with
    tr := { d.tr with
      buffer := rest
      ring := ringPut d.tr.ring d.tr.wptr (.valid r)
      wptr := (d.tr.wptr + 1) % 12288
      flushed := max d.tr.flushed r.seq
      flushedAt := true
      flushTo := on }
    bge := d.bge.countWrite (16 + d.tr.wptr / 64) } : Dev).stored 0x11 d.tr.wptr

/-- The clear in progress is done when its record reaches the ring (R354). -/
def Dev.clearAwaited (d : Dev) (r : Rec) : Dev :=
  match d.tr.clearing with
  | some c => if c.recSeq = some r.seq then d.clearDone c else d
  | none => d

theorem Dev.clearAwaited_none (d : Dev) (r : Rec) (h : d.tr.clearing = none) : d.clearAwaited r = d := by
  unfold Dev.clearAwaited
  rw [h]

section
variable (d : Dev) (hr : d.coreRuns = true)
include hr

/-- The checkpoint asks for a flush, and its next period begins (Table 13-5). -/
theorem trCheckpoint_asks : trCheckpoint d =
    let e := d.until d.tr.ckptAt
    ({ e with tr := { e.tr with ckptAt := e.core.uptime + TR_CTRL.ckpt e * 40000000 } } : Dev).flushAsking := if_pos hr

section
variable (last : Nat) (r : Rec) (rest : List Rec) (hs : d.tr.scanning = false) (ht : d.tr.flushTo = some last)
  (hb : d.tr.buffer = r :: rest) (hl : r.seq ≤ last) (hc : d.tr.clearing = none)
include hs ht hb hl hc

/-- A record write that does not end the flush (R347, R348). -/
theorem flushWriteDone_goesOn (n : Rec) (more : List Rec) (hn : rest = n :: more) (hnl : n.seq ≤ last) :
    flushWriteDone d = d.flushWrote r rest (some last) := by
  subst hn
  have hgoes : decide (last < n.seq) = false := decide_eq_false (Nat.not_lt.mpr hnl)
  have hgo : (d.coreRuns && !d.tr.scanning) = true := by simp [hr, hs]
  unfold flushWriteDone
  rw [hgo, ht, hb]
  dsimp only
  rw [if_pos hl]
  simp only [hgoes, Bool.false_eq_true, if_false]
  exact (d.flushWrote r (n :: more) (some last)).clearAwaited_none r hc

/-- The last record write ends the flush, after which the early flush is judged anew (R347). -/
theorem flushWriteDone_ends (hn : rest = []) :
    flushWriteDone d = ((d.flushWrote r rest none).release slotFlush).commitWear.judgeFill := by
  subst hn
  have hnone : (((d.flushWrote r [] none).release slotFlush).commitWear.judgeFill).tr.clearing = none := by
    rw [Dev.judgeFill_tr, Dev.commitWear_clearing, Dev.release_tr]
    exact hc
  have hgo : (d.coreRuns && !d.tr.scanning) = true := by simp [hr, hs]
  unfold flushWriteDone
  rw [hgo, ht, hb]
  dsimp only
  rw [if_pos hl]
  exact Dev.clearAwaited_none _ r hnone

end

/-- The ring scan of a sound ring with no clear in its log finds the write pointer (R349). -/
theorem ringScanDone_finds (hs : d.tr.scanning = true) (ht : ringTorn d.tr.ring = 0) (hl : d.tr.log = []) :
    ringScanDone d = { d with tr := { d.tr with
        scanning := false
        wptr := ringNext d.tr.ring
        torn := 0
        flushed := highestSeq (ringRecords d.tr.ring)
        flushedAt := !(ringRecords d.tr.ring).isEmpty
        buffer := d.tr.buffer.map (patchStart (highestSeq (ringRecords d.tr.ring)) 0 false) } } := by
  refine (if_pos (by simp [hr, hs])).trans ?_
  simp [hl, ht, held]

/-- The erase of a granted clear runs while no flush does (R354). -/
theorem clearEraseDone_erases (c : Clearing) (hf : d.tr.flushTo = none) (hc : d.tr.clearing = some c)
    (hg : c.granted = true) (hq : c.recSeq = none) : clearEraseDone d = d.erase c := by
  simp [clearEraseDone, hr, hf, hc, hg, hq]

/-- The lockout has run out (R356). -/
theorem clearLockoutEnd_ends (h : d.core.uptime < d.tr.lockEnd) : clearLockoutEnd d =
    let e := d.until d.tr.lockEnd
    { e with tr := { e.tr with lockEnd := 0 } } := if_pos (by simp [hr, Dev.now, h])

end

/-- A nonce expires (R352). -/
theorem nonceExpiry_expires (d : Dev) (h : d.tr.nonce.isSome = true) : nonceExpiry d =
    let e := d.until d.tr.nonceEnd
    { e with tr := { e.tr with nonce := none } } := if_pos h

/-- Settles O38: each timer's equation in the state it speaks of. -/
theorem trainRegisterTimers : Obligations.TrainRegisterTimers := by
  intro s hrun d ends
  have hr : d.coreRuns = true := hrun
  refine ⟨fun e he => ?checkpoint, fun last r rest hs ht hb hl hc => ?write, fun hs ht hl => ?scan,
    fun c hf hc hg hq => ?erase, fun hn => ?nonce, fun hlock => ?lockout⟩
  case checkpoint =>
    subst he
    exact run_settles trCheckpoint s _ (trCheckpoint_asks d hr)
  case write =>
    exact ⟨fun n more hn hnl => run_settles flushWriteDone s _
        (flushWriteDone_goesOn d hr last r rest hs ht hb hl hc n more hn hnl),
      fun hn => run_settles flushWriteDone s _ (flushWriteDone_ends d hr last r rest hs ht hb hl hc hn)⟩
  case scan => exact run_settles ringScanDone s _ (ringScanDone_finds d hr hs ht hl)
  case erase => exact run_settles clearEraseDone s _ (clearEraseDone_erases d hr c hf hc hg hq)
  case nonce => exact run_settles nonceExpiry s _ (nonceExpiry_expires d hn)
  case lockout => exact run_settles clearLockoutEnd s _ (clearLockoutEnd_ends d hr hlock)

end Sys2Proof.Machine
end

section
/-! Rule Book repair, the end of fuse programming and unknown opcodes (O39), and the test access port (O40). -/
namespace Sys2Proof.Machine

/-! ### The end of fuse programming -/

/-- The device once the pulses of the run `x` have ended: its row is resolved, FB_REQUIRED follows row 24, and PROG has
returned (R437, R438, Table 17-6). -/
def Dev.pulsed (d : Dev) (x : FuseRun) (mA wA mB wB : BitVec 72) : Dev :=
  let r := ({ d.fuse.blow x mA wA mB wB with run := none } : FuseBank).resolve x.row
  ({ d with fuse := { r with required := if x.row = 24 then r.requires else r.required } } : Dev).release slotFuse

section
variable (d : Dev) (hr : d.coreRuns = true)
include hr

/-- A rewrite that was given up is asked for again (R413). -/
theorem rulebookRewriteRetry_asks (t : Nat) (ht : d.book.retryAt = some t) :
    rulebookRewriteRetry d = (d.until t).askRewrite := by
  unfold rulebookRewriteRetry
  rw [ht]
  exact if_pos hr

/-- Once the pulses have ended the row decides how the command ends. -/
theorem fuseProgrammingDone_pulsed (x : FuseRun) (mA wA mB wB : BitVec 72) (hx : d.fuse.run = some x) :
    fuseProgrammingDone mA wA mB wB d =
    let e := d.pulsed x mA wA mB wB
    if x.row < 56 then
      match x.fetch with
      | some k => (e.commit k 2).commitAll k (if (e.fuse.row x.row).passes x.value then stDone else stPartial)
          [flag ((e.fuse.row x.row).passes x.value)]
      | none => e
    else if e.fuse.isSet x.row then e.advanced x
    else e.finishOpt x.fetch stAborted [] := by
  unfold fuseProgrammingDone
  rw [hx]
  exact if_neg (by simp [hr])

end

/-- A marker row that is set takes the new lifecycle state in force (R431, R434, R435), with its command open. -/
theorem Dev.advanced_commits (e : Dev) (x : FuseRun) (k : Nat) (hk : x.fetch = some k) : e.advanced x =
    let new := e.fuse.state
    let b := { e.fuse with lifecycle := new }
    let told := ({ e with fuse := if new = lifeInTraffic then b.applyManifest else b } : Dev).recordNow recLifecycle
      (leBytes e.fuse.lifecycle 1 ++ leBytes new 1 ++ leBytes x.tag 2)
    let listed := if new = lifeInTraffic then told.manifestEvent else told
    let f := if new = lifeWithdrawn then listed.withdraw else listed
    f.commitAll k (if new = lifeInTraffic ∧ f.fuse.missing ≠ 0 then stPartial else stDone) [new] := by
  unfold Dev.advanced
  rw [hk]

/-! ### Unknown opcodes -/

/-- A descriptor refused at once, with no stage and no other command staged, leaves a still device still. -/
theorem Dev.still_refuse (d : Dev) (op : Nat) (ledger : Bool) (c : Desc) (st total : Nat) (h : d.still) :
    (d.refuse op ledger c st total).still := by
  have hledger : (if ledger then d.addEntry (newEntry d op c false st total) else d).still := by
    split
    · refine Dev.still_congr d _ h ?_ ?_ ?_ ?_ ?_ ?_ ?_ ?_ ?_ ?_ ?_ <;> simp
    · exact h
  unfold Dev.refuse
  refine Dev.still_congr _ _ hledger ?_ ?_ ?_ ?_ ?_ ?_ ?_ ?_ ?_ ?_ ?_ <;> simp

/-- A descriptor of no opcode of Table 15-1, at its ring's turn, is refused with BAD_PARAM (R370). -/
theorem unknownOpcode_refuses (op : BitVec 8) (c : Desc) (d : Dev) (hop : opcodeOf op.toNat = none)
    (hturn : d.fetchTurn = some c.ring.val) :
    unknownOpcode op c d = (d.takeOff c.ring.val).refuse op.toNat true c stBadParam 0 := by
  unfold unknownOpcode
  rw [hop]
  exact if_pos hturn

theorem Dev.still_takeOff (d : Dev) (n : Nat) (h : d.still) : (d.takeOff n).still :=
  Dev.still_congr d _ h rfl rfl rfl rfl rfl rfl rfl rfl rfl rfl rfl

/-- Settles O39: the retry, the end of programming by the row and by what it reads, and the refusal of an unknown
opcode, after which a still device is still. -/
theorem repairProgrammingUnknown : Obligations.RepairProgrammingUnknown := by
  intro s hrun d ends
  have hr : d.coreRuns = true := hrun
  refine ⟨fun t ht => ?retry, ?programmed, fun hstill op c hop hturn hq => ?unknown⟩
  case retry => exact run_settles rulebookRewriteRetry s _ (rulebookRewriteRetry_asks d hr t ht)
  case programmed =>
    intro x k mA wA mB wB hx hk r e done
    have hdone := fuseProgrammingDone_pulsed d hr x mA wA mB wB hx
    refine ⟨fun hrow => ?row, fun hrow hset => ?marker, fun hrow hset => ?unset⟩
    case row =>
      intro pass
      rw [hk] at hdone
      exact run_settles (fuseProgrammingDone mA wA mB wB) s _ (hdone.trans (if_pos hrow))
    case marker =>
      exact run_settles (fuseProgrammingDone mA wA mB wB) s _
        (hdone.trans ((if_neg (Nat.not_lt.mpr hrow)).trans ((if_pos hset).trans (e.advanced_commits x k hk))))
    case unset =>
      rw [hk] at hdone
      exact run_settles (fuseProgrammingDone mA wA mB wB) s _
        (hdone.trans ((if_neg (Nat.not_lt.mpr hrow)).trans (if_neg (Bool.eq_false_iff.mp hset))))
  case unknown =>
    exact run_is (unknownOpcode op c) s _ (unknownOpcode_refuses op c d hop hturn)
      (Dev.still_refuse _ _ _ _ _ _ (d.still_takeOff _ (Dev.still_silent s.dev hstill)))

/-! ### The test access port -/

/-- The test access port after a rising edge of TCK (R461 to R463). -/
def Tap.tick (t : Tap) (rst tms tdi : Bool) (pins : BitVec 167) : Tap :=
  ({ t.edge rst tdi pins with state := t.state.next tms } : Tap).settle rst

/-- With VDDIO an edge moves the port, and shifts TDO out while the port shifts. -/
theorem tapTckEdge_moves (tms tdi : Bool) (pins : BitVec 167) (d : Dev) (hv : d.core.supplies.vddio = true)
    (ho : d.out = []) : tapTckEdge tms tdi pins d = { d with
      tap := d.tap.tick d.core.rstIn tms tdi pins
      out := match (d.tap.tick d.core.rstIn tms tdi pins).tdo d.core.rstIn with
        | some b => [.tdo b]
        | none => [] } := by
  refine (if_neg (by simp [hv])).trans ?_
  show (match (d.tap.tick d.core.rstIn tms tdi pins).tdo d.core.rstIn with
    | some b => ({ d with tap := d.tap.tick d.core.rstIn tms tdi pins } : Dev).emit (.tdo b)
    | none => { d with tap := d.tap.tick d.core.rstIn tms tdi pins }) = _
  cases (d.tap.tick d.core.rstIn tms tdi pins).tdo d.core.rstIn with
  | none => rw [← ho]
  | some b =>
    unfold Dev.emit
    dsimp only
    rw [ho]
    rfl

/-- Settles O40: the edge's equation; neither the port nor what it sends is anything the watches look at. -/
theorem testAccessPort : Obligations.TestAccessPort := by
  intro s tms tdi pins hstill hv d rst t
  exact run_is (tapTckEdge tms tdi pins) s _ (tapTckEdge_moves tms tdi pins d hv rfl)
    (Dev.still_congr d _ (Dev.still_silent s.dev hstill) rfl rfl rfl rfl rfl rfl rfl rfl rfl rfl rfl)

end Sys2Proof.Machine
end

section
/-! A granted RULEBOOK_COMMIT (O60). -/
namespace Sys2Proof.Machine

/-! ### The copies of the Rule Book -/

@[simp] theorem RuleBook.copy_put_same (b : RuleBook) (k : Nat) (c : BookCopy) : (b.put k c).copy k = c := by
  by_cases h : k = 0 <;> simp [RuleBook.put, RuleBook.copy, h]

theorem RuleBook.copy_put_other (b : RuleBook) (k j : Nat) (c : BookCopy) (h : k = 0 ↔ j ≠ 0) :
    (b.put k c).copy j = b.copy j := by
  by_cases hj : j = 0
  · have hk : k ≠ 0 := fun hk => h.mp hk hj
    simp [RuleBook.put, RuleBook.copy, hj, hk]
  · simp [RuleBook.put, RuleBook.copy, hj, h.mpr hj]

/-- The write of a copy leaves the image last loaded or committed. -/
theorem RuleBook.put_loaded (b : RuleBook) (k : Nat) (c : BookCopy) : (b.put k c).loaded = b.loaded := by
  unfold RuleBook.put
  split <;> rfl

/-- Inverted bits that stand in a word of MRAM, which lies in no slot of the buffer or of staging. -/
def Flip.inMramWord (w : Nat) (f : Flip) : Bool :=
  f.mem == 0x10 && f.item == 0 && (if f.item = 0 then f.word == w else f.word % 8 == w % 8)

theorem Flip.inMramWord_iff (w : Nat) (f : Flip) : f.inMramWord w = true ↔ f.mem = 0x10 ∧ f.item = 0 ∧ f.word = w := by
  unfold Flip.inMramWord
  by_cases h : f.item = 0 <;> simp [h]

/-- Inverted bits that stand in words of a Rule Book copy. -/
def copyFlips (flips : List Flip) (k : Nat) : List Flip := flips.filter (fun f => f.mem == 0x10 && itemWord 0x10 f.word k)

/-- Among them a word has two or more. -/
def doubleAmong (l : List Flip) : Bool :=
  l.any (fun f => decide (2 ≤ ((l.filter (Flip.inMramWord f.word)).map Flip.bits).sum))

/-- Whether a copy is valid rests on its CRC and on the inverted bits that stand in its words (R410). -/
theorem Dev.copyValid_eq (d : Dev) (k : Nat) :
    d.copyValid k = ((d.book.copy k).crcOk && !doubleAmong (copyFlips d.il.flips k)) := by
  refine congrArg (fun b => (d.book.copy k).crcOk && !b) ?_
  unfold doubleAmong copyFlips
  rw [List.any_filter]
  refine List.any_congr rfl fun f => ?_
  dsimp only
  by_cases hf : (f.mem == 0x10 && itemWord 0x10 f.word k) = true
  · obtain ⟨hm, hw⟩ := Bool.and_eq_true_iff.mp hf
    have hsame : d.il.flips.filter (d.flipAt f.mem f.word) =
        (d.il.flips.filter (fun f => f.mem == 0x10 && itemWord 0x10 f.word k)).filter (Flip.inMramWord f.word) := by
      rw [List.filter_filter, eq_of_beq hm]
      refine List.filter_congr fun g _ => ?_
      show g.inMramWord f.word = _
      by_cases hg : g.inMramWord f.word = true
      · obtain ⟨hgm, -, hgw⟩ := (g.inMramWord_iff f.word).mp hg
        simp [hg, hgm, hgw, hw]
      · simp [hg]
    rw [hf, ← hsame]
    rfl
  · rw [Bool.eq_false_iff.mpr hf]
    rfl

/-- A copy whose words are stored anew has no inverted bits. -/
theorem copyFlips_stored_same (d : Dev) (k : Nat) : copyFlips (d.stored 0x10 k).il.flips k = [] := by
  show ((d.il.flips.filter _).filter _) = []
  rw [List.filter_filter, List.filter_eq_nil_iff]
  intro f _
  simp

/-- Inverted bits of the other copy stay. -/
theorem copyFlips_stored_other (d : Dev) (k j : Nat) (h : j ≠ k) :
    copyFlips (d.stored 0x10 k).il.flips j = copyFlips d.il.flips j := by
  show ((d.il.flips.filter _).filter _) = d.il.flips.filter _
  rw [List.filter_filter]
  refine List.filter_congr fun f _ => ?_
  by_cases hm : f.mem = 0x10
  · by_cases hj : f.word / 4096 = j
    · simp [hm, itemWord, hj, h]
    · simp [hm, itemWord, hj]
  · simp [hm]

/-! ### The newer copy -/

/-- Beside an invalid copy the other is the newer one, if it is valid (R410). -/
theorem Dev.newerCopy_beside (d : Dev) (k : Nat) (hk : k < 2) (h : d.copyValid k = false) :
    d.newerCopy = if d.copyValid (1 - k) then some (1 - k) else none := by
  unfold Dev.newerCopy
  obtain rfl | rfl : k = 0 ∨ k = 1 := by omega
  · simp [h]
  · simp [h]

/-- A valid copy with the higher generation is the newer one. -/
theorem Dev.newerCopy_ahead (d : Dev) (k : Nat) (hk : k < 2) (h : d.copyValid k = true)
    (hg : d.copyValid (1 - k) = true → (d.book.copy (1 - k)).gen < (d.book.copy k).gen) : d.newerCopy = some k := by
  unfold Dev.newerCopy
  obtain rfl | rfl : k = 0 ∨ k = 1 := by omega
  · cases h1 : d.copyValid 1 with
    | false => simp [h]
    | true =>
      have hlt : d.book.copyB.gen < d.book.copyA.gen := hg h1
      simp [h, Nat.not_lt.mpr hlt.le]
  · cases h0 : d.copyValid 0 with
    | false => simp [h]
    | true =>
      have hlt : d.book.copyA.gen < d.book.copyB.gen := hg h0
      simp [h, hlt]

theorem Dev.commitInto_lt (d : Dev) : d.commitInto < 2 := by
  unfold Dev.commitInto
  split <;> omega

/-- The copy a commit leaves alone is the newer one where it is valid. -/
theorem Dev.newerCopy_of_kept (d : Dev) (h : d.copyValid (1 - d.commitInto) = true) :
    d.newerCopy = some (1 - d.commitInto) := by
  unfold Dev.commitInto at h ⊢
  by_cases h0 : d.newerCopy = some 0
  · simp [h0]
  · rw [if_neg h0] at h ⊢
    revert h0
    unfold Dev.newerCopy
    cases d.copyValid 0 <;> simp [show d.copyValid 1 = true from h]

/-- The newer copy and its generation rest on the Rule Book and on the inverted bits. -/
theorem Dev.newerCopy_congr (d e : Dev) (hb : e.book = d.book) (hf : e.il.flips = d.il.flips) :
    e.newerCopy = d.newerCopy := by
  unfold Dev.newerCopy
  simp only [Dev.copyValid_eq, hb, hf]

theorem Dev.bookGeneration_congr (d e : Dev) (hb : e.book = d.book) (hf : e.il.flips = d.il.flips) :
    e.bookGeneration = d.bookGeneration := by
  unfold Dev.bookGeneration
  rw [d.newerCopy_congr e hb hf, hb]

/-! ### The second stage of a commit -/

/-- The device with the copy that is not newer written as a commit writes it. -/
def Dev.commitWrote (d : Dev) : Dev :=
  ({ d with fresh := d.fresh + 1 } : Dev).writeCopy d.commitInto
    ⟨Config.readsBack d.fresh, (d.bookGeneration + 1) % 2 ^ 32, d.cfg⟩

/-- A commit changes the Rule Book as its write does, and the words beside the copies where the readback matches. -/
theorem Dev.commitBook_matched (d : Dev) (k : Nat) (h : Config.readsBack d.fresh = true) :
    (d.commitBook k).book = { d.commitWrote.book with
      loaded := d.cfg, counter := (d.bookGeneration + 1) % 2 ^ 32,
      rewrite := d.commitWrote.book.rewrite.filter (fun p => p.1 != d.commitInto) } := by
  unfold Dev.commitBook
  dsimp only
  rw [if_pos h, Dev.commitAll_book]
  rfl

theorem Dev.commitBook_missed (d : Dev) (k : Nat) (h : Config.readsBack d.fresh = false) :
    (d.commitBook k).book = d.commitWrote.book := by
  unfold Dev.commitBook
  dsimp only
  rw [if_neg (by simp [h]), Dev.finish_book]
  rfl

/-- A commit's end touches nothing of what `p` looks at, where a completion and the Rule Book do not. -/
theorem Dev.commitBook_keeps {β : Type} (p : Dev → β) (d : Dev) (k : Nat)
    (hc : ∀ (x : Dev) st rs, p (x.commitAll k st rs) = p x) (hf : ∀ (x : Dev) st rs, p (x.finish k st rs) = p x)
    (hb : ∀ (x : Dev) f, p (x.modBook f) = p x) : p (d.commitBook k) = p d.commitWrote := by
  unfold Dev.commitBook
  dsimp only
  split
  · rw [hc, hb]
    rfl
  · rw [hf]
    rfl

/-- The copies after the write of a commit: the one written, and the one left alone. -/
theorem Dev.commitWrote_into (d : Dev) : d.commitWrote.book.copy d.commitInto =
    ⟨Config.readsBack d.fresh, (d.bookGeneration + 1) % 2 ^ 32, d.cfg⟩ := RuleBook.copy_put_same _ _ _

theorem Dev.commitWrote_kept (d : Dev) :
    d.commitWrote.book.copy (1 - d.commitInto) = d.book.copy (1 - d.commitInto) :=
  RuleBook.copy_put_other _ _ _ _ (by have := d.commitInto_lt; omega)

/-- The words written hold fresh check bits, and those of the other copy keep theirs (R47). -/
theorem Dev.commitWrote_flips_into (d : Dev) : copyFlips d.commitWrote.il.flips d.commitInto = [] :=
  copyFlips_stored_same (({ d with fresh := d.fresh + 1 } : Dev).modBook _) d.commitInto

theorem Dev.commitWrote_flips_kept (d : Dev) :
    copyFlips d.commitWrote.il.flips (1 - d.commitInto) = copyFlips d.il.flips (1 - d.commitInto) :=
  copyFlips_stored_other (({ d with fresh := d.fresh + 1 } : Dev).modBook _) d.commitInto _
    (by have := d.commitInto_lt; omega)

section
variable (d : Dev) (k : Nat)

/-- The end of a commit leaves the copies as its write does. -/
theorem Dev.commitBook_copy (j : Nat) : (d.commitBook k).book.copy j = d.commitWrote.book.copy j := by
  cases h : Config.readsBack d.fresh with
  | true => rw [d.commitBook_matched k h]; rfl
  | false => rw [d.commitBook_missed k h]

theorem Dev.commitBook_il : (d.commitBook k).il = d.commitWrote.il :=
  Dev.commitBook_keeps Dev.il d k (fun x => Dev.commitAll_il x k) (fun x => Dev.finish_il x k) (fun _ _ => rfl)

theorem Dev.commitBook_cfg : (d.commitBook k).cfg = d.cfg :=
  Dev.commitBook_keeps Dev.cfg d k (fun x => Dev.commitAll_cfg x k) (fun x => Dev.finish_cfg x k) (fun _ _ => rfl)

/-- The copy written is valid where it reads back as written. -/
theorem Dev.commitBook_valid_into : (d.commitBook k).copyValid d.commitInto = Config.readsBack d.fresh := by
  rw [Dev.copyValid_eq, Dev.commitBook_copy, Dev.commitBook_il, Dev.commitWrote_flips_into, Dev.commitWrote_into]
  exact Bool.and_true _

theorem Dev.commitBook_valid_kept :
    (d.commitBook k).copyValid (1 - d.commitInto) = d.copyValid (1 - d.commitInto) := by
  rw [Dev.copyValid_eq, Dev.copyValid_eq, Dev.commitBook_copy, Dev.commitBook_il, Dev.commitWrote_flips_kept,
    Dev.commitWrote_kept]

/-- Read back as written, the copy is the newer one, its generation being one above. -/
theorem Dev.commitBook_newer_matched (h : Config.readsBack d.fresh = true) (hg : d.bookGeneration + 1 < 2 ^ 32) :
    (d.commitBook k).newerCopy = some d.commitInto := by
  refine Dev.newerCopy_ahead _ _ d.commitInto_lt ((d.commitBook_valid_into k).trans h) fun hkept => ?_
  rw [Dev.commitBook_valid_kept] at hkept
  have hgen : d.bookGeneration = (d.book.copy (1 - d.commitInto)).gen := by
    unfold Dev.bookGeneration
    rw [d.newerCopy_of_kept hkept]
  rw [Dev.commitBook_copy, Dev.commitBook_copy, Dev.commitWrote_kept, Dev.commitWrote_into, ← hgen]
  exact lt_of_lt_of_eq (Nat.lt_succ_self _) (Nat.mod_eq_of_lt hg).symm

/-- Read back otherwise, it is not valid, and the other copy is what counts. -/
theorem Dev.commitBook_newer_missed (h : Config.readsBack d.fresh = false) : (d.commitBook k).newerCopy =
    if d.copyValid (1 - d.commitInto) then some (1 - d.commitInto) else none := by
  rw [Dev.newerCopy_beside _ _ d.commitInto_lt ((d.commitBook_valid_into k).trans h), Dev.commitBook_valid_kept]

end

/-- A token that returns leaves its slot empty. -/
theorem Dev.release_empties (d : Dev) (i : Nat) (hi : i < 79) : ((d.release i).slot i).state = .empty := by
  have hput : ((d.modSlot i (fun _ => default)).slot i).state = .empty := by
    have hne : i ≠ slotSecond := by unfold slotSecond; omega
    unfold Dev.slot Dev.modSlot
    rw [if_neg hne, if_neg hne]
    dsimp only
    rw [fileGet_fileMod_same _ _ _ _ hi]
    rfl
  unfold Dev.release
  dsimp only
  split
  · assumption
  · exact hput
  · split <;> exact hput

/-- A granted RULEBOOK_COMMIT runs its second stage, and its slot is released (R411). -/
theorem Dev.doWork_commitGranted (d : Dev) (k : Nat) (ht : (d.slot slotCommit).tagged = true)
    (hk : d.committing = some k) : d.doWork (.granted slotCommit) = ((d.commit k 1).commitBook k).release slotCommit := by
  show d.commitGranted = _
  unfold Dev.commitGranted
  rw [if_pos ht, hk]

/-- The second stage sees the Rule Book, the registers and the inverted bits as the first left them. -/
structure Dev.SameBook (d c : Dev) : Prop where
  book : c.book = d.book
  il : c.il = d.il
  fresh : c.fresh = d.fresh
  cfg : c.cfg = d.cfg

theorem Dev.sameBook_commit (d : Dev) (k n : Nat) : d.SameBook (d.commit k n) :=
  ⟨d.commit_book k n, d.commit_il k n, d.commit_fresh k n, d.commit_cfg k n⟩

theorem Dev.sameBook_release (d : Dev) (i : Nat) : d.SameBook (d.release i) := by
  rw [d.release_rest i]
  exact ⟨rfl, rfl, rfl, rfl⟩

theorem Dev.SameBook.newerCopy {d c : Dev} (h : d.SameBook c) : c.newerCopy = d.newerCopy :=
  d.newerCopy_congr c h.book (congrArg Interlocking.flips h.il)

theorem Dev.SameBook.bookGeneration {d c : Dev} (h : d.SameBook c) : c.bookGeneration = d.bookGeneration :=
  d.bookGeneration_congr c h.book (congrArg Interlocking.flips h.il)

theorem Dev.SameBook.commitInto {d c : Dev} (h : d.SameBook c) : c.commitInto = d.commitInto := by
  unfold Dev.commitInto
  rw [h.newerCopy]

theorem Dev.SameBook.copyValid {d c : Dev} (h : d.SameBook c) (j : Nat) : c.copyValid j = d.copyValid j := by
  rw [Dev.copyValid_eq, Dev.copyValid_eq, h.book, h.il]

/-- Settles O60: the second stage writes one copy, whose words then hold no inverted bits; which copy is newer follows from
the CRC and the generation of both. -/
theorem grantedCommitWritesTheOtherCopy : Obligations.GrantedCommitWritesTheOtherCopy := by
  intro d k ht _ hk into gen e
  have h : d.SameBook (d.commit k 1) := d.sameBook_commit k 1
  generalize hc : d.commit k 1 = c at h
  have he : e = (c.commitBook k).release slotCommit := hc ▸ d.doWork_commitGranted k ht hk
  have hr : (c.commitBook k).SameBook e := he ▸ Dev.sameBook_release _ slotCommit
  have hinto : c.commitInto = into := h.commitInto
  have hgen : (c.bookGeneration + 1) % 2 ^ 32 = gen := by rw [h.bookGeneration]
  refine ⟨?written, ?kept, ?registers, ?slot, fun hok => ⟨?loaded, ?counter, fun hg => ?newer⟩, fun hbad => ⟨?image, ?other⟩⟩
  case written => rw [hr.book, Dev.commitBook_copy, ← hinto, Dev.commitWrote_into, h.fresh, hgen, h.cfg]
  case kept => rw [hr.book, Dev.commitBook_copy, ← hinto, Dev.commitWrote_kept, h.book]
  case registers => rw [hr.cfg, Dev.commitBook_cfg, h.cfg]
  case slot => rw [he]; exact Dev.release_empties _ _ (by decide)
  case loaded => rw [hr.book, c.commitBook_matched k (h.fresh ▸ hok)]; exact h.cfg
  case counter => rw [hr.book, c.commitBook_matched k (h.fresh ▸ hok)]; exact hgen
  case newer =>
    rw [hr.newerCopy, c.commitBook_newer_matched k (h.fresh ▸ hok) (h.bookGeneration ▸ hg), hinto]
  case image => rw [hr.book, c.commitBook_missed k (h.fresh ▸ hbad)]; exact (RuleBook.put_loaded _ _ _).trans (congrArg RuleBook.loaded h.book)
  case other => rw [hr.newerCopy, c.commitBook_newer_missed k (h.fresh ▸ hbad), hinto, h.copyValid]

end Sys2Proof.Machine
end

section
/-! Doorbells (O1) and ring setup (O2). -/
namespace Sys2Proof.Machine

/-! ### What leaves a still device still -/

/-- A change of the HQI alone. -/
theorem Dev.alike_hqi (d : Dev) (h : Hqi) : d.Alike { d with hqi := h } :=
  ⟨rfl, rfl, rfl, rfl, rfl, rfl, rfl, rfl, rfl, rfl, rfl, rfl⟩

theorem Dev.modRing_alike (d : Dev) (r : Nat) (f : Ring → Ring) : d.Alike (d.modRing r f) := d.alike_hqi _

theorem Dev.tell_alike (d : Dev) (key : Nat) : d.Alike (d.tell key) :=
  ⟨rfl, rfl, rfl, rfl, rfl, rfl, rfl, rfl, rfl, rfl, rfl, rfl⟩

/-- EQ_OVERFLOW, where it is posted and finds room (R373). -/
theorem Dev.still_postOverflow (d : Dev) (h : d.still) (hr : d.roomFor 1) : d.postOverflow.still := by
  unfold Dev.postOverflow
  split
  · exact (d.alike_hqi { d.hqi with eqLost := 0 }).still_raise h hr
  · exact h

/-! ### Doorbells -/

/-- An event not told about within the last second is raised, and the telling remembered. -/
theorem Dev.raiseLimited_tells (d : Dev) (code cls src w0 w1 : Nat) (h : d.mayTell (code * 256 + src) = true) :
    d.raiseLimited code cls src w0 w1 = (d.tell (code * 256 + src)).raise code cls src w0 w1 := if_pos h

/-- A doorbell with an index at or above its ring's size is counted and told (R366). -/
def Dev.doorbellRejected (d : Dev) (r idx : Nat) : Dev :=
  (({ d with hqi := { d.hqi with dbErr := held 255 (d.hqi.dbErr + 1) } } : Dev).tell (0x017C * 256 + 166)).raise
    0x017C clsC 166 (doorbellOffset r) idx

section
variable (d : Dev) (r : Nat) (v : Word)

/-- A doorbell on a disabled ring is ignored (R366). -/
theorem Dev.doorbell_disabled (he : (d.ring r).en = false) : d.doorbell r v = d := if_pos (by simp [he])

variable (hr : d.coreRuns = true) (he : (d.ring r).en = true)
include hr he

/-- A doorbell with an index below its ring's size moves the ring's index (R366). -/
theorem Dev.doorbell_moves (h : v.toNat % 2 ^ 16 < (d.ring r).entries) :
    d.doorbell r v = d.modRing r (fun x => { x with dbIdx := v.toNat % 2 ^ 16 }) :=
  (if_neg (by simp [hr, he])).trans (if_neg (Nat.not_le.mpr h))

theorem Dev.doorbell_rejected (h : (d.ring r).entries ≤ v.toNat % 2 ^ 16) (ht : d.mayTell (0x017C * 256 + 166) = true) :
    d.doorbell r v = d.doorbellRejected r (v.toNat % 2 ^ 16) :=
  (if_neg (by simp [hr, he])).trans ((if_pos h).trans (Dev.raiseLimited_tells _ _ _ _ _ _ ht))

end

/-- The telling of a rejected doorbell leaves a still device still, with the room for one record less. -/
theorem Dev.doorbellRejected_alike (d : Dev) :
    d.Alike (({ d with hqi := { d.hqi with dbErr := held 255 (d.hqi.dbErr + 1) } } : Dev).tell (0x017C * 256 + 166)) :=
  (d.alike_hqi _).trans (Dev.tell_alike _ _)

theorem Dev.still_doorbellRejected (d : Dev) (r idx : Nat) (h : d.still) (hroom : d.roomFor 1) :
    (d.doorbellRejected r idx).still := d.doorbellRejected_alike.still_raise h hroom

theorem Dev.roomFor_doorbellRejected (d : Dev) (r idx : Nat) (h : d.roomFor 2) : (d.doorbellRejected r idx).roomFor 1 :=
  Dev.roomFor_raise _ _ _ _ _ _ 1 (d.doorbellRejected_alike.roomFor h)

/-- Room for two records is room for one. -/
theorem Dev.roomFor_one_of_two (d : Dev) (h : d.roomFor 2) : d.roomFor 1 := by
  obtain ⟨hro, hdrop, hbuf, hfill, hseq⟩ := h
  exact ⟨hro, hdrop, by omega, by omega, by omega⟩

/-- A head doorbell that leaves the still device `x` posts EQ_OVERFLOW where it may (R373). -/
theorem run_dbHeadWrite (s : State) (r : Fin 7) (v : Word) (x : Dev) (hx : s.dev.silent.doorbell (4 + r.val) v = x)
    (hs : x.still) (hroom : x.roomFor 1) : exec (.dbHeadWrite r v) s = .next (s.put x.postOverflow) :=
  run_is (dbHeadWrite r v) s _ (congrArg Dev.postOverflow hx) (x.still_postOverflow hs hroom)

/-- Settles O1: the doorbell by its ring and its index, and EQ_OVERFLOW after a head doorbell. -/
theorem doorbellWrites : Obligations.DoorbellWrites := by
  intro s hstill hrun d bad served
  have hs : d.still := Dev.still_silent s.dev hstill
  have hr : d.coreRuns = true := hrun
  refine ⟨fun n v he hi => ?tail, fun n v he => ?ignored, fun n v he hi ht hroom => ?told, fun r v hroom he hi => ?head,
    fun r v hroom he => ?headIgnored, fun r v hroom he hi ht => ?headTold⟩
  case tail =>
    exact run_is (dbCqWrite n v) s _ (d.doorbell_moves _ v hr he hi) ((d.modRing_alike _ _).still hs)
  case ignored => exact run_is (dbCqWrite n v) s d (d.doorbell_disabled _ v he) hs
  case told =>
    exact run_is (dbCqWrite n v) s _ (d.doorbell_rejected _ v hr he hi ht) (d.still_doorbellRejected _ _ hs hroom)
  case head =>
    exact run_dbHeadWrite s r v _ (d.doorbell_moves _ v hr he hi) ((d.modRing_alike _ _).still hs)
      ((d.modRing_alike _ _).roomFor hroom)
  case headIgnored => exact run_dbHeadWrite s r v d (d.doorbell_disabled _ v he) hs hroom
  case headTold =>
    exact run_dbHeadWrite s r v _ (d.doorbell_rejected _ v hr he hi ht)
      (d.still_doorbellRejected _ _ hs (d.roomFor_one_of_two hroom)) (d.roomFor_doorbellRejected _ _ hroom)

/-! ### Ring setup -/

/-- The size and the vector that a write of HQI_RING_CFG gives a ring (R365): `n` where the ring is stopped and may take it,
a CC with its CQ, and `vec` where the ring has a vector. -/
def Dev.ringTaken (d : Dev) (r n vec : Nat) : Dev :=
  let sized := if !(d.ring r).en && !(4 ≤ r && r < 8) && sizeLegal r n then
      let d1 := d.modRing r (fun x => { x with log2n := n })
      if r < 4 then d1.modRing (4 + r) (fun x => { x with log2n := n }) else d1
    else d
  if ringHasVec r then sized.modRing r (fun x => { x with vec := vec }) else sized

/-- A ring starts with both indices 0 and, where the device writes it, the lap that it writes first (R365). -/
def Ring.start (x : Ring) (written : Bool) : Ring :=
  { x with en := true, devIdx := 0, dbIdx := 0, lap := written, stopped := false }

/-- What a change of a ring keeps of each ring is kept in all. -/
theorem Dev.ring_modRing {β : Type} (p : Ring → β) (d : Dev) (r j : Nat) (f : Ring → Ring) (h : ∀ x, p (f x) = p x) :
    p ((d.modRing r f).ring j) = p (d.ring j) := by
  unfold Dev.ring Dev.modRing fileGet fileMod
  dsimp only
  by_cases hr : r < 11 <;> by_cases hj : j < 11 <;> simp only [hr, hj, dif_pos, dif_neg, not_false_iff]
  rw [Vector.getElem_set]
  split
  · next e => subst e; exact h _
  · rfl

/-- What the size and the vector leave of every ring. -/
theorem Dev.ringTaken_keeps {β : Type} (P : Dev → β) (d : Dev) (r n vec : Nat)
    (hn : ∀ (x : Dev) j, P (x.modRing j (fun y => { y with log2n := n })) = P x)
    (hv : ∀ (x : Dev) j, P (x.modRing j (fun y => { y with vec := vec })) = P x) : P (d.ringTaken r n vec) = P d := by
  have hsized : P (if !(d.ring r).en && !(4 ≤ r && r < 8) && sizeLegal r n then
      let d1 := d.modRing r (fun x => { x with log2n := n })
      if r < 4 then d1.modRing (4 + r) (fun x => { x with log2n := n }) else d1
    else d) = P d := by
    split
    · dsimp only
      split
      · rw [hn, hn]
      · exact hn _ _
    · rfl
  unfold Dev.ringTaken
  dsimp only
  split
  · rw [hv]
    exact hsized
  · exact hsized

/-- They change the HQI's rings alone. -/
theorem Dev.ringTaken_alike (d : Dev) (r n vec : Nat) : d.Alike (d.ringTaken r n vec) := by
  have hkeeps : ∀ (x : Dev) j f, d.Alike (x.modRing j f) = d.Alike x := fun x j f =>
    propext ⟨fun h => h.trans (x.modRing_alike j f).symm, fun h => h.trans (x.modRing_alike j f)⟩
  exact (d.ringTaken_keeps d.Alike r n vec (fun x j => hkeeps x j _) (fun x j => hkeeps x j _)).mpr (Dev.Alike.refl d)

/-- They start and stop no ring. -/
theorem Dev.ringTaken_en (d : Dev) (r n vec j : Nat) : ((d.ringTaken r n vec).ring j).en = (d.ring j).en :=
  d.ringTaken_keeps (fun x => (x.ring j).en) r n vec (fun x i => x.ring_modRing Ring.en i j _ fun _ => rfl)
    (fun x i => x.ring_modRing Ring.en i j _ fun _ => rfl)

/-- What `en` of a write of HQI_RING_CFG does once size and vector are taken (R365). -/
theorem Dev.writeRingCfg_taken (d : Dev) (r : Nat) (v : Word) : d.writeRingCfg r v =
    let e := d.ringTaken r (bitsOf v.toNat 16 5) (bitsOf v.toNat 8 5)
    if bitOf v.toNat 31 then
      if (e.ring r).en then e
      else if sizeLegal r (e.ring r).log2n && (e.ring r).baseLegal r then
        e.modRing r (fun x => x.start (decide (4 ≤ r)))
      else e
    else e.modRing r (fun x => { x with en := false }) := rfl

section
variable (d : Dev) (r : Nat) (v : Word)

/-- A write with `en` starts a stopped ring whose size and base are legal, and leaves a running one. -/
theorem Dev.writeRingCfg_enables : d.writeRingCfg r (v ||| 0x80000000) =
    let e := d.ringTaken r (bitsOf v.toNat 16 5) (bitsOf v.toNat 8 5)
    if (e.ring r).en then e
    else if sizeLegal r (e.ring r).log2n && (e.ring r).baseLegal r then
      e.modRing r (fun x => x.start (decide (4 ≤ r)))
    else e := by
  have htop : bitOf (v ||| 0x80000000).toNat 31 = true := beq_iff_eq.mpr (topBit_topSet v)
  rw [Dev.writeRingCfg_taken, bitsOf_topSet v 16 5 (by omega), bitsOf_topSet v 8 5 (by omega), htop]
  exact if_pos rfl

/-- A write without `en` stops the ring. -/
theorem Dev.writeRingCfg_disables : d.writeRingCfg r (v &&& 0x7FFFFFFF) =
    (d.ringTaken r (bitsOf v.toNat 16 5) (bitsOf v.toNat 8 5)).modRing r (fun x => { x with en := false }) := by
  have htop : bitOf (v &&& 0x7FFFFFFF).toNat 31 = false :=
    beq_eq_false_iff_ne.mpr (ne_of_eq_of_ne (topBit_topClear v) (by decide))
  rw [Dev.writeRingCfg_taken, bitsOf_topClear v 16 5 (by omega), bitsOf_topClear v 8 5 (by omega), htop]
  exact if_neg Bool.false_ne_true

end

/-- A write of HQI_RING_CFG with `en` that leaves the device `x`, alike to the still one it found, posts EQ_OVERFLOW where
it may (R373). -/
theorem run_ringEnable (s : State) (r : Fin 11) (v : Word) (x : Dev) (hr : s.dev.silent.coreRuns = true)
    (hs : s.dev.silent.still) (hroom : s.dev.silent.roomFor 1)
    (hx : s.dev.silent.writeRingCfg r.val (v ||| 0x80000000) = x) (ha : s.dev.silent.Alike x) :
    exec (.hqiRingEnable r v) s = .next (s.put x.postOverflow) :=
  run_is (hqiRingEnable r v) s _ ((if_pos hr).trans (congrArg Dev.postOverflow hx))
    (x.still_postOverflow (ha.still hs) (ha.roomFor hroom))

/-- Settles O2: size and vector first, then `en` by the ring as it stands. -/
theorem ringSetup : Obligations.RingSetup := by
  unfold Obligations.RingSetup
  intro s r v hstill hrun hroom d n mapped sized paired e size fits started
  have hs : d.still := Dev.still_silent s.dev hstill
  have hr : d.coreRuns = true := hrun
  have he : d.ringTaken r.val n (bitsOf v.toNat 8 5) = e :=
    congrArg mapped (if_congr (by simp [and_assoc, imp_iff_not_or]) rfl rfl)
  have hen : (e.ring r.val).en = (d.ring r.val).en := he ▸ d.ringTaken_en r.val n _ r.val
  have ha : d.Alike e := he ▸ d.ringTaken_alike r.val n _
  have henables := d.writeRingCfg_enables r.val v
  have hdisables := d.writeRingCfg_disables r.val v
  rw [he] at henables hdisables
  have hfits : (sizeLegal r.val (e.ring r.val).log2n && (e.ring r.val).baseLegal r.val) = true ↔ fits := by
    simp only [Bool.and_eq_true, Ring.baseLegal, decide_eq_true_eq]
    rfl
  refine ⟨fun hoff hf => ?starts, fun hoff hf => ?unfit, fun hon => ?runs, ?stops⟩
  case starts =>
    exact run_ringEnable s r v _ hr hs hroom
      (henables.trans ((if_neg (by simp [hen, hoff])).trans (if_pos (hfits.mpr hf)))) (ha.trans (e.modRing_alike _ _))
  case unfit =>
    exact run_ringEnable s r v e hr hs hroom
      (henables.trans ((if_neg (by simp [hen, hoff])).trans (if_neg (hf ∘ hfits.mp)))) ha
  case runs => exact run_ringEnable s r v e hr hs hroom (henables.trans (if_pos (hen.trans hon))) ha
  case stops =>
    exact run_is (hqiRingDisable r v) s _ ((if_pos hr).trans hdisables)
      ((ha.trans (e.modRing_alike _ _)).still hs)

end Sys2Proof.Machine
end

section
/-! Link events (O3), link states (O4), failed host reads and moderation (O5). -/
namespace Sys2Proof.Machine

/-! ### Link events -/

/-- With nothing held back no event is lost at a link event (R373). -/
theorem Dev.loseHeld_none (d : Dev) (h : d.hqi.heldBack = []) : d.loseHeld = d := by
  unfold Dev.loseHeld
  rw [h]
  rfl

/-- The device with its open commands closed, their stages dropped, and the HQI `h` (R385). -/
def Dev.linkShut (d : Dev) (h : Hqi) : Dev := { (d.closeOpen stLinkReset).dropStages with hqi := h }

theorem Dev.linkShut_alike (d : Dev) (h : Hqi) : d.Alike (d.linkShut h) :=
  ⟨rfl, rfl, rfl, rfl, rfl, rfl, rfl, rfl, rfl, rfl, rfl, rfl⟩

/-- The HQI after a link event (Table 14-12). -/
def Hqi.afterLink (h : Hqi) (ctrl link : Bool) (config : ConfigReset) : Hqi :=
  let h1 := if ctrl then h.ringDefaults.ctrlDefaults else h.ringDefaults
  (if link then { h1 with speed := 0, width := 0 } else h1).configAfter config

/-- A link event closes the open commands, resets the HQI and raises HQI_LINK_RESET (R384, R385). -/
theorem Dev.linkReset_shuts (d : Dev) (kind : Nat) (ctrl link : Bool) (config : ConfigReset) (h : d.hqi.heldBack = []) :
    d.linkReset kind ctrl link config = (d.linkShut (d.hqi.afterLink ctrl link config)).raise 0x017E clsC 166
      (Config.linkKind kind) d.hqi.staged.length := by
  have hlose : (d.closeOpen stLinkReset).dropStages.loseHeld = (d.closeOpen stLinkReset).dropStages :=
    Dev.loseHeld_none _ h
  unfold Dev.linkReset
  rw [hlose]
  rfl

/-- A link event on a still device leaves it still. -/
theorem run_linkReset (f : Dev → Dev) (s : State) (kind : Nat) (ctrl link : Bool) (config : ConfigReset)
    (hf : f s.dev.silent = s.dev.silent.linkReset kind ctrl link config) (hs : s.dev.silent.still)
    (hroom : s.dev.silent.roomFor 1) (h : s.dev.silent.hqi.heldBack = []) :
    run f s = .next (s.put ((s.dev.silent.linkShut (s.dev.silent.hqi.afterLink ctrl link config)).raise 0x017E clsC 166
      (Config.linkKind kind) s.dev.silent.hqi.staged.length)) :=
  run_is f s _ (hf.trans (Dev.linkReset_shuts _ kind ctrl link config h)) ((Dev.linkShut_alike _ _).still_raise hs hroom)

/-- Settles O3: the four link events are one reset of the HQI, which differs in the columns of Table 14-12. -/
theorem linkEventsResetTheHqiAlone : Obligations.LinkEventsResetTheHqiAlone := by
  intro s hstill hrun hroom hheld d closed onBus onAvs told rings kept cleared
  have hs : d.still := Dev.still_silent s.dev hstill
  have hr : d.coreRuns = true := hrun
  exact ⟨run_linkReset perstN s 0 true true .defaults (if_pos hr) hs hroom hheld,
    run_linkReset hotReset s 1 true true .defaults (if_pos hr) hs hroom hheld,
    run_linkReset linkDown s 2 true true .defaults (if_pos hr) hs hroom hheld,
    run_linkReset functionLevelReset s 3 false false .function (if_pos hr) hs hroom hheld⟩

/-! ### Link states -/

theorem Dev.sendPending_alike (d : Dev) (vec : Nat) : d.Alike (d.sendPending vec) := by
  unfold Dev.sendPending
  split
  · exact (d.alike_hqi _).trans (Dev.answered_announce (d.modVec vec _) vec false).alike
  · exact Dev.Alike.refl d

/-- Every vector that may send sends what is pending (R375). -/
theorem Dev.sentAll_alike (d : Dev) : d.Alike (forAll (fun v x => x.sendPending v) (indices 32) d) :=
  Dev.Alike.forAll _ (fun v x => x.sendPending_alike v) _ d

/-- D3hot is entered on a trained link (R360). -/
theorem d3hotEntry_enters (d : Dev) (hr : d.coreRuns = true) (h : d.hqi.speed ≠ 0) :
    d3hotEntry d = { d with hqi := { d.hqi with d3hot := true } } := if_pos (by simp [hr, h])

/-- A return to D0 with nothing held back and no event lost sends what is pending (R360). -/
theorem d3hotExit_sends (d : Dev) (h3 : d.hqi.d3hot = true) (hh : d.hqi.heldBack = []) (hl : d.hqi.eqLost = 0) :
    d3hotExit d = forAll (fun v x => x.sendPending v) (indices 32)
      { d with hqi := { d.hqi with d3hot := false, heldBack := [] } } := by
  have hpost : ({ d with hqi := { d.hqi with d3hot := false, heldBack := [] } } : Dev).postOverflow =
      { d with hqi := { d.hqi with d3hot := false, heldBack := [] } } := if_neg (by simp [hl])
  refine (if_pos h3).trans ?_
  dsimp only
  rw [hh, hpost]
  rfl

/-- Settles O4: each link state's equation; what is sent then is nothing the watches look at. -/
theorem linkStates : Obligations.LinkStates := by
  intro s hstill hrun d sent
  have hs : d.still := Dev.still_silent s.dev hstill
  have hr : d.coreRuns = true := hrun
  refine ⟨fun rate up => ?trained, fun hspeed => ?entry, fun h3 hh hl => ?exit⟩
  case trained =>
    exact run_is (linkTrained rate up) s _ (if_pos hr) (((d.alike_hqi _).trans (Dev.sentAll_alike _)).still hs)
  case entry => exact run_is d3hotEntry s _ (d3hotEntry_enters d hr hspeed) ((d.alike_hqi _).still hs)
  case exit =>
    exact run_is d3hotExit s _ (d3hotExit_sends d h3 hh hl) (((d.alike_hqi _).trans (Dev.sentAll_alike _)).still hs)

/-! ### Failed reads of host memory -/

/-- A failed read is counted and reported by AER (R361). -/
def Dev.readFailed (d : Dev) (aer : Nat) : Dev :=
  ({ d with hqi := { d.hqi with dmaErr := held 255 (d.hqi.dmaErr + 1), aer := d.hqi.aer ||| aer } } : Dev).emit
    (.uncorrectedAer aer)

theorem Dev.readFailed_alike (d : Dev) (aer : Nat) : d.Alike (d.readFailed aer) :=
  ⟨rfl, rfl, rfl, rfl, rfl, rfl, rfl, rfl, rfl, rfl, rfl, rfl⟩

/-- It is raised as HQI_DMA_ERROR. -/
theorem Dev.dmaError_raises (d : Dev) (what aer : Nat) :
    d.dmaError what aer = (d.readFailed aer).raise 0x017B clsB 166 what aer := rfl

/-- A failed read of the buffer of a staged command ends it (R361). -/
theorem Dev.bufferFailed_ends (d : Dev) (k aer : Nat) (c : OpenCmd) (h : d.hqi.staged = [c]) (hk : c.fetch = k) :
    d.bufferFailed k aer = (d.dmaError c.desc.tag.toNat aer).finish k stAborted [] := by
  have hcmd : d.cmd k = some c := by
    unfold Dev.cmd
    rw [h]
    simp [hk]
  unfold Dev.bufferFailed
  rw [hcmd]

/-! ### Moderation -/

/-- Within the range of the counter, time moved on to `t` is not before `t` (R32). -/
theorem Dev.until_reaches (d : Dev) (t : Nat) (hr : d.coreRuns = true) (hu : d.core.uptime < 2 ^ 64) (ht : t < 2 ^ 64) :
    t ≤ (d.until t).core.uptime := by
  have hnow : (d.until t).core.uptime = (d.core.uptime + (t - d.core.uptime)) % 2 ^ 64 := by
    unfold Dev.until Dev.pass
    rw [if_pos hr]
  rw [hnow, Nat.mod_eq_of_lt (by omega)]
  omega

/-- Past its interval a vector's entry is announced by a message, which begins a next interval, or pends (R376). -/
theorem Dev.announce_past (d : Dev) (vec : Nat) (h : (fileGet d.hqi.msix vec default).hushed ≤ d.core.uptime) :
    d.announce vec false = if d.hqi.imod = 0 ∨ d.mayMessage vec = false then d.message vec
      else (d.message vec).modVec vec (fun x => { x with owed := false, hushed := d.core.uptime + d.hqi.imod * 40 }) := by
  unfold Dev.announce
  by_cases hm : d.hqi.imod = 0 ∨ d.mayMessage vec = false
  · rw [if_pos hm, if_pos (by simpa using hm)]
  · have hpast : decide (d.now < (fileGet d.hqi.msix vec default).hushed) = false := decide_eq_false (Nat.not_lt.mpr h)
    rw [if_neg hm, if_neg (by simpa using hm), hpast]
    rfl

/-- An owed message leaves at the end of its interval (R376). -/
theorem msixModerationEnd_announces (vec : Fin 32) (d : Dev) (hr : d.coreRuns = true) (hu : d.core.uptime < 2 ^ 64)
    (ht : d.hqi.msix[vec].hushed < 2 ^ 64) (ho : d.hqi.msix[vec].owed = true) (h3 : d.hqi.d3hot = false) :
    msixModerationEnd vec d =
      let e := (d.until d.hqi.msix[vec].hushed).modVec vec.val (fun x => { x with owed := false })
      if e.hqi.imod = 0 ∨ e.mayMessage vec.val = false then e.message vec.val
      else (e.message vec.val).modVec vec.val
        (fun x => { x with owed := false, hushed := e.core.uptime + e.hqi.imod * 40 }) := by
  have hget : fileGet d.hqi.msix vec.val default = d.hqi.msix[vec] := dif_pos vec.isLt
  refine (if_pos (Bool.and_eq_true_iff.mpr ⟨ho, by simp [h3]⟩)).trans (Dev.announce_past _ vec.val ?_)
  have hvec := fileGet_fileMod_same d.hqi.msix vec.val (fun x => { x with owed := false }) default vec.isLt
  rw [hget] at hvec
  exact (congrArg MsixVec.hushed hvec).trans_le (d.until_reaches _ hr hu ht)

/-- What becomes of a message, and of the times of its vector, is nothing the watches look at. -/
theorem Dev.message_alike (d : Dev) (vec : Nat) : d.Alike (d.message vec) := (d.answered_message vec).alike

/-- Settles O5: a failed read by what it was to feed, and the end of a moderation interval. -/
theorem hostReadFailuresAndModeration : Obligations.HostReadFailuresAndModeration := by
  intro s hstill d failed
  have hs : d.still := Dev.still_silent s.dev hstill
  refine ⟨fun n aer hturn hroom => ?descriptor, fun k aer c hq hk hroom => ?buffer, fun vec hr hu ht ho h3 => ?moderation⟩
  case descriptor =>
    exact run_is (dmaError (.descriptor n) aer) s _ (if_pos hturn)
      (((d.modRing_alike _ _).trans (Dev.readFailed_alike _ _)).still_raise hs hroom)
  case buffer =>
    refine run_is (dmaError (.staged k) aer) s _ (d.bufferFailed_ends k.toNat aer.toNat c hq hk)
      (Dev.still_finish _ _ _ _ ?_ ((d.readFailed_alike _).still_raise hs hroom))
    rw [Dev.raise_staged]
    exact (congrArg _ hq).trans (by simp [hk])
  case moderation =>
    intro e next
    refine run_is (msixModerationEnd vec) s _ (msixModerationEnd_announces vec d hr hu ht ho h3) (Dev.Alike.still ?_ hs)
    have he : d.Alike e := ⟨rfl, rfl, rfl, rfl, rfl, rfl, rfl, rfl, rfl, rfl, rfl, rfl⟩
    split
    · exact he.trans (e.message_alike _)
    · exact (he.trans (e.message_alike _)).trans (Dev.alike_hqi _ _)

end Sys2Proof.Machine
end

section
/-! Accesses of any width, latched reads and the rearm of the error capture (O8). -/
namespace Sys2Proof.Machine

/-- Where the core runs, no access is dropped for want of it. -/
theorem Dev.answers (d : Dev) (h : d.coreRuns = true) : ¬ (!d.coreRuns) = true := by simp [h]

/-! ### Writes that are discarded (R362, R363) -/

section
variable (d : Dev) (off : Nat) (bs : List Byte)

/-- A write of the State Mirror, and one of BAR2 that is no aligned 32-bit word, is counted alone. -/
theorem Dev.writeAccess_bar2_bad (h : 0x01000 ≤ off ∨ off % 4 ≠ 0 ∨ bs.length ≠ 4) :
    d.writeAccess true off bs = d.badAccess := if_pos h

/-- A write of BAR0 that is neither a 32-bit word nor an aligned 64-bit one of the MSI-X area is counted alone. -/
theorem Dev.writeAccess_bar0_bad (h4 : bs.length ≠ 4) (h8 : bs.length ≠ 8 ∨ off < 0x8000 ∨ off % 8 ≠ 0) :
    d.writeAccess false off bs = d.badAccess :=
  (if_neg h4).trans ((if_neg (by omega)).trans (if_neg (by omega)))

theorem Dev.writeBar0_misaligned (v : Word) (hr : d.coreRuns = true) (h : off % 4 ≠ 0) :
    d.writeBar0 off v = d.badAccess := (if_neg (d.answers hr)).trans (if_pos h)

end

/-! ### Reads (R363, R366, R406) -/

/-- The bytes that a read of `n` at `off` takes from the word that holds them. -/
def bytesOfWord (w off n : Nat) : Nat := w / 2 ^ (8 * (off % 4)) % 2 ^ (8 * n)

section
variable (d : Dev) (off n : Nat)

/-- A read within one word is a read of that word. -/
theorem Dev.readAccess_within (b : Bool) (h : off % 4 + n ≤ 4) :
    d.readAccess b off n = (bytesOfWord (d.readWord b (off / 4 * 4) (n == 4)).1 off n,
      (d.readWord b (off / 4 * 4) (n == 4)).2) := if_pos h

/-- A read across words of no 64-bit item returns a free value. -/
theorem Dev.readAccess_across (b : Bool) (h : 4 < off % 4 + n) (h8 : n ≠ 8 ∨ off % 8 ≠ 0) : d.readAccess b off n = d.free :=
  (if_neg (by omega)).trans (if_neg fun hw => by obtain ⟨rfl, h0, -⟩ := hw; omega)

/-- A word of BAR0 that is no low half of a latched pair is read alone. -/
theorem Dev.readWord_bar0 (whole : Bool) (h1 : off ≠ 0x5808) (h2 : off ≠ 0x5810) :
    d.readWord false off whole = (d.readReg off, d) := by
  simp [Dev.readWord, Dev.wordAt, h1, h2]

/-- A word of BAR2 read in part, or one below the State Mirror, moves no latch. -/
theorem Dev.readWord_bar2 (whole : Bool) (h : off < 0x01000 ∨ whole = false) :
    d.readWord true off whole = (d.wordAt true off, d) := by
  refine (if_neg fun hw => ?_).trans rfl
  obtain ⟨-, hoff, hwhole⟩ := hw
  rcases h with h | h
  · omega
  · simp [h] at hwhole

theorem Dev.wordAt_mirror (h : 0x01000 ≤ off) : d.wordAt true off = d.mirror off :=
  (if_neg Bool.false_ne_true).trans (if_neg (by omega))

end

/-- Each doorbell is its ring's (Table 14-3). -/
theorem doorbellRing_doorbellOffset (r : Fin 11) : doorbellRing (doorbellOffset r.val) = some r.val := by
  revert r
  decide

theorem doorbellOffset_lt (r : Fin 11) : doorbellOffset r.val < 0x01000 ∧ doorbellOffset r.val % 4 = 0 := by
  revert r
  decide

/-- A doorbell reads the last index written to it (R366). -/
theorem Dev.readAccess_doorbell (d : Dev) (r : Fin 11) :
    d.readAccess true (doorbellOffset r.val) 4 = ((d.ring r.val).dbIdx % 2 ^ 32, d) := by
  obtain ⟨hlt, hal⟩ := doorbellOffset_lt r
  have hword : doorbellOffset r.val / 4 * 4 = doorbellOffset r.val := by omega
  have hat : d.wordAt true (doorbellOffset r.val) = (d.ring r.val).dbIdx := by
    refine (if_neg (by decide)).trans ((if_pos hlt).trans ?_)
    rw [doorbellRing_doorbellOffset]
    rfl
  rw [Dev.readAccess_within d _ _ _ (by omega), hword, Dev.readWord_bar2 d _ _ (Or.inl hlt), hat, bytesOfWord, hal,
    Nat.mul_zero, pow_zero, Nat.div_one]

/-- The low word of a 64-bit item is returned and latches the high word (R406). -/
theorem Dev.mirrorRead_low (d : Dev) (a : Nat) (h8 : a % 8 = 0) (hw : (d.wide a).isSome = true) :
    d.mirrorRead a =
      (d.mirror a, { d with hqi := { d.hqi with latchAt := a + 4, latchHi := d.mirror (a + 4) } }) := if_pos ⟨h8, hw⟩

/-- The latched high word is returned once (R406). -/
theorem Dev.mirrorRead_latched (d : Dev) (a : Nat) (h8 : a % 8 ≠ 0) (h : a = d.hqi.latchAt) :
    d.mirrorRead a = (d.hqi.latchHi, { d with hqi := { d.hqi with latchAt := 0 } }) :=
  (if_neg fun hw => h8 hw.1).trans (if_pos h)

/-! ### The instructions -/

/-- A change of the capture's `valid` alone. -/
theorem Dev.alike_capture (d : Dev) (c : Capture) : d.Alike { d with il := { d.il with capture := c } } :=
  ⟨rfl, rfl, rfl, rfl, rfl, rfl, rfl, rfl, rfl, rfl, rfl, rfl⟩

section
variable (s : State) (hr : s.dev.silent.coreRuns = true)
include hr

/-- A discarded write is counted and changes nothing else. -/
theorem exec_badWrite (b : Bool) (off : BitVec 20) (bs : List Byte) (hs : s.dev.silent.still)
    (h : s.dev.silent.writeAccess b off.toNat bs = s.dev.silent.badAccess) :
    exec (.malformedAccess (.write b off bs)) s = .next (s.put s.dev.silent.badAccess) :=
  run_is (malformedAccess (.write b off bs)) s _ ((if_neg (Dev.answers _ hr)).trans h) ((Dev.alike_hqi _ _).still hs)

/-- A read that leaves the still device `e` answers with its value. -/
theorem exec_read (b : Bool) (off : BitVec 20) (n : Fin 8) (w : Nat) (e : Dev)
    (h : s.dev.silent.readAccess b off.toNat (n.val + 1) = (w, e)) (hs : e.still) :
    exec (.malformedAccess (.read b off n)) s = .next (s.put (e.emit (.readData w))) := by
  refine run_is (malformedAccess (.read b off n)) s _ ((if_neg (Dev.answers _ hr)).trans ?_)
    (Dev.still_congr e _ hs rfl rfl rfl rfl rfl rfl rfl rfl rfl rfl rfl)
  exact congrArg (fun p : Nat × Dev => p.2.emit (.readData p.1)) h

/-- A 4-byte read of a word of the State Mirror that leaves the still device `e` answers with its value. -/
theorem exec_mirrorLowWordRead (w : Fin 0x3FC00) (v : Nat) (e : Dev)
    (h : s.dev.silent.mirrorRead (0x1000 + 4 * w.val) = (v, e)) (hs : e.still) :
    exec (.mirrorLowWordRead w) s = .next (s.put (e.emit (.readData v))) := by
  refine run_is (mirrorLowWordRead w) s _ ((if_neg (Dev.answers _ hr)).trans ?_)
    (Dev.still_congr e _ hs rfl rfl rfl rfl rfl rfl rfl rfl rfl rfl rfl)
  exact congrArg (fun p : Nat × Dev => p.2.emit (.readData p.1)) h

end

/-- Settles O8: the discarded writes, the reads by the word they touch, the latches, and the rearm. -/
theorem readsAndLatches : Obligations.ReadsAndLatches := by
  intro s hstill hrun d bad told
  have hs : d.still := Dev.still_silent s.dev hstill
  have hr : d.coreRuns = true := hrun
  refine ⟨fun off bs h => ?mirrorWrite, fun off bs h4 h8 => ?width, fun off bs h4 hal => ?misaligned,
    fun off n hin h1 h2 => ?narrow, fun off n hoff hn hin => ?narrowMirror, fun r => ?doorbell,
    fun b off n hacr h8 => ?across, ?low, ?high, ?flushed, ?seq, ?rearm⟩
  case mirrorWrite => exact exec_badWrite s hr true off bs hs (d.writeAccess_bar2_bad _ bs h)
  case width => exact exec_badWrite s hr false off bs hs (d.writeAccess_bar0_bad _ bs h4 h8)
  case misaligned =>
    exact exec_badWrite s hr false off bs hs ((if_pos h4).trans (d.writeBar0_misaligned _ _ hr hal))
  case narrow =>
    refine exec_read s hr false off n _ d ((d.readAccess_within _ _ false hin).trans ?_) hs
    rw [d.readWord_bar0 _ _ h1 h2]
    rfl
  case narrowMirror =>
    have hpart : (n.val + 1 == 4) = false := by simp; omega
    refine exec_read s hr true off n _ d ((d.readAccess_within _ _ true hin).trans ?_) hs
    rw [d.readWord_bar2 _ _ (Or.inr hpart), d.wordAt_mirror _ (by omega)]
    rfl
  case doorbell =>
    have hoff : (BitVec.ofNat 20 (doorbellOffset r.val)).toNat = doorbellOffset r.val :=
      Nat.mod_eq_of_lt (by have := (doorbellOffset_lt r).1; omega)
    refine exec_read s hr true _ 3 _ d ?_ hs
    rw [hoff]
    exact d.readAccess_doorbell r
  case across =>
    exact exec_read s hr b off n _ _ (d.readAccess_across _ _ b hacr (by omega))
      (Dev.still_congr d _ hs rfl rfl rfl rfl rfl rfl rfl rfl rfl rfl rfl)
  case low =>
    intro w a h8 hw
    exact exec_mirrorLowWordRead s hr w _ _ (d.mirrorRead_low a h8 hw) ((Dev.alike_hqi _ _).still hs)
  case high =>
    intro w a h8 hat
    exact exec_mirrorLowWordRead s hr w _ _ (d.mirrorRead_latched a h8 hat) ((Dev.alike_hqi _ _).still hs)
  case flushed =>
    exact run_is (trLatchedRead true) s _ ((if_neg (d.answers hr)).trans (if_pos rfl))
      (Dev.still_congr d _ hs rfl rfl rfl rfl rfl rfl rfl rfl rfl rfl rfl)
  case seq =>
    exact run_is (trLatchedRead false) s _ ((if_neg (d.answers hr)).trans (if_neg (by decide)))
      (Dev.still_congr d _ hs rfl rfl rfl rfl rfl rfl rfl rfl rfl rfl rfl)
  case rearm =>
    have hwrite : d.writeBar0 0x5410 0x80000000 = d.rearm 0x80000000 := by
      unfold Dev.writeBar0
      rw [if_neg (d.answers hr)]
      rfl
    exact run_is ilFeCodeRearm s _ (hwrite.trans (if_pos (by decide))) ((d.alike_capture _).still hs)

end Sys2Proof.Machine
end

section
/-! Register writes: gates, fields, HQI_CTRL and block resets (O9). -/
namespace Sys2Proof.Machine

/-! ### The fields of the register map (R439) -/

/-- Every family of the register map. -/
def regFamilies : List RegSpec :=
  regsSystem ++ regsMeasure ++ regsTrip ++ regsLoop ++ regsPhase ++ regsFeed ++ regsBranch ++ regsString
    ++ regsTimetable ++ regsOffice

theorem regsNear_subset (off : Nat) : regsNear off ⊆ regFamilies := by
  intro r hr
  have hmem : r ∈ regsSystem ∨ r ∈ regsMeasure ∨ r ∈ regsTrip ∨ r ∈ regsLoop ∨ r ∈ regsPhase ∨ r ∈ regsFeed
      ∨ r ∈ regsBranch ∨ r ∈ regsString ∨ r ∈ regsTimetable ∨ r ∈ regsOffice := by
    unfold regsNear at hr
    split_ifs at hr <;> simp only [hr, true_or, or_true]
  simpa only [regFamilies, List.mem_append, or_assoc] using hmem

/-- The fields of a family lie within the word and share no bit: one evaluation of the register map. -/
theorem regFamilies_fields : ∀ r ∈ regFamilies, (∀ g ∈ r.fields, g.lo + g.width ≤ 32)
    ∧ r.fields.Pairwise (fun f g => f.lo + f.width ≤ g.lo ∨ g.lo + g.width ≤ f.lo) := by
  decide +kernel

theorem regAt_fields (off : Nat) (r : RegSpec) (h : regAt off = some r) :
    (∀ g ∈ r.fields, g.lo + g.width ≤ 32) ∧ r.fields.Pairwise Field.apart :=
  regFamilies_fields r (regsNear_subset off (List.mem_of_find?_eq_some h))

/-! ### The fields of one write (R441) -/

section
variable (r : RegSpec) (off v : Nat) (stopped : Bool)

/-- A write of one register leaves every other. -/
theorem takeFields_reg_other (fs : List Field) (d : Dev) (o : Nat) (h : o ≠ off) :
    (takeFields r off v stopped fs d).reg o = d.reg o :=
  takeFields_induction r off v stopped (fun e => e.reg o = d.reg o) fs d
    (fun _ _ e he => (Dev.reg_setReg_other e _ _ o h).trans he) rfl

/-- A field that its access does not admit, or whose value is reserved, keeps its value. -/
theorem takeFields_field_kept (fs : List Field) (d : Dev) (f : Field) (hw : d.cfg.wf = true) (hm : f ∈ fs)
    (h32 : ∀ g ∈ fs, g.lo + g.width ≤ 32) (hp : fs.Pairwise Field.apart) (hk : (f.free stopped && f.ok v) = false) :
    (takeFields r off v stopped fs d).field off f.lo f.width = d.field off f.lo f.width := by
  induction fs generalizing d with
  | nil => exact absurd hm List.not_mem_nil
  | cons g gs ih =>
    obtain ⟨hg, hgs⟩ := List.pairwise_cons.mp hp
    have h32' : ∀ x ∈ gs, x.lo + x.width ≤ 32 := fun x hx => h32 x (List.mem_cons_of_mem _ hx)
    rw [takeFields_cons]
    rcases List.mem_cons.mp hm with rfl | hfs
    · rw [hk, Bool.false_and, if_neg Bool.false_ne_true]
      exact takeFields_field_apart r off v stopped gs d _ _ hw (fun x hx => ⟨h32' x hx, (hg x hx).symm⟩)
    · rw [ih _ (Dev.ite_setField_wf _ d _ _ _ _ hw) hfs h32' hgs]
      split
      · exact d.field_setField_apart _ _ _ _ _ _ hw (h32 g (List.mem_cons_self ..)) (hg f hfs)
      · rfl

end

/-- A field is not free where it is read-only, or RWS with its resource not stopped. -/
theorem Field.not_free {f : Field} {stopped : Bool} {v : Nat}
    (h : f.access = .ro ∨ f.access = .rws ∧ stopped = false ∨ f.ok v = false) : (f.free stopped && f.ok v) = false := by
  rcases h with ha | ⟨ha, rfl⟩ | hok
  · rw [Field.free, ha]; rfl
  · rw [Field.free, ha]; rfl
  · rw [hok, Bool.and_false]

/-- A field is free where it is RW, or RWS with its resource stopped. -/
theorem Field.is_free {f : Field} {stopped : Bool} (h : f.access = .rw ∨ f.access = .rws ∧ stopped = true) :
    f.free stopped = true := by
  rcases h with ha | ⟨ha, rfl⟩
  · rw [Field.free, ha]
  · rw [Field.free, ha]

/-! ### The gate of expert_en (R440) -/

section
variable (d : Dev) (off : Nat) (v : Word) (hr : d.coreRuns = true)
include hr

/-- An aligned write of a gated offset, apart from the system, HQI, time and MSI-X blocks and IL_FE_CODE. -/
theorem Dev.writeBar0_gated (h4 : off % 4 = 0) (hlo : 0x0800 ≤ off) (hhi : off < 0x8000) (hfe : off ≠ 0x5410)
    (hg : gated off = true) :
    d.writeBar0 off v = if d.hqi.expertEn then d.writeGated off v.toNat else d.badAccess := by
  unfold Dev.writeBar0
  rw [if_neg (d.answers hr), if_neg (by omega), if_neg (by omega), if_neg (by omega), if_neg (by omega), if_neg hfe,
    if_neg (by omega), if_pos hg]

/-- A gated write without expert_en is counted alone. -/
theorem Dev.writeBar0_locked (hlo : 0x0800 ≤ off) (hhi : off < 0x8000) (hfe : off ≠ 0x5410) (hg : gated off = true)
    (hx : d.hqi.expertEn = false) : d.writeBar0 off v = d.badAccess := by
  by_cases h4 : off % 4 = 0
  · rw [d.writeBar0_gated off v hr h4 hlo hhi hfe hg, hx, if_neg Bool.false_ne_true]
  · exact d.writeBar0_misaligned off v hr h4

end

/-- A gated write of a Rule Book register with no field of its own kind beside it writes the Rule Book alone. -/
theorem Dev.writeGated_book (d : Dev) (off v : Nat) (r : RegSpec) (hreg : regAt off = some r)
    (hrx : ¬ (0x5500 ≤ off ∧ off < 0x5700)) (hst : ¬ (0x6040 ≤ off ∧ off < 0x6C00))
    (hunc : ¬ (0x4400 ≤ off ∧ off < 0x4500 ∧ off % 0x40 = 0x24)) : d.writeGated off v = d.writeBook r off v := by
  unfold Dev.writeGated
  rw [if_neg hrx, if_neg hst]
  simp only [hreg]
  rw [if_neg hunc]

/-- A register that no group samples takes its fields at once, unless it is refused as a whole (R441). -/
theorem Dev.writeBook_now (d : Dev) (r : RegSpec) (off v : Nat) (h : sampledGroup off = none) :
    d.writeBook r off v =
      if !(takeFields r off v (d.ownerStopped r off) r.fields d).registerAdmits off v then d
      else ((takeFields r off v (d.ownerStopped r off) r.fields d).storedReg off).wrote d off := by
  unfold Dev.writeBook
  simp only [h]

/-! ### SYS_BLKRST (Table 16-9) -/

/-- The two fields of a word of SYS_BLKRST. -/
theorem bitsOf_blkrst (blk i : BitVec 8) :
    bitsOf (BitVec.ofNat 32 (blk.toNat + 256 * i.toNat)).toNat 0 8 = blk.toNat
      ∧ bitsOf (BitVec.ofNat 32 (blk.toNat + 256 * i.toNat)).toNat 8 8 = i.toNat := by
  have hb := blk.isLt
  have hi := i.isLt
  rw [BitVec.toNat_ofNat, bitsOf, bitsOf]
  omega

/-- The device with the index of a block reset and whether it is refused. -/
def Dev.blkAnswered (d : Dev) (i : Nat) (refused : Bool) : Dev :=
  { d with core := { d.core with blkIndex := i, blkRefused := refused } }

/-- A write of SYS_BLKRST with a code asks the resource it names, if there is one that is stopped. -/
theorem sysBlkrstWrite_code (d : Dev) (blk i : BitVec 8) (hr : d.coreRuns = true) (hb : blk ≠ 0) :
    sysBlkrstWrite blk i d = match d.blockOf blk.toNat i.toNat with
      | some r => (d.blkAnswered i.toNat false).owe (.blockReset r)
      | none => d.blkAnswered i.toNat true := by
  obtain ⟨hblk, hidx⟩ := bitsOf_blkrst blk i
  have hne : blk.toNat ≠ 0 := fun h => hb (BitVec.eq_of_toNat_eq h)
  have hwrite : sysBlkrstWrite blk i d = d.writeBlkrst (BitVec.ofNat 32 (blk.toNat + 256 * i.toNat)).toNat := by
    unfold sysBlkrstWrite Dev.writeBar0
    rw [if_neg (d.answers hr)]
    rfl
  rw [hwrite]
  unfold Dev.writeBlkrst
  rw [hblk, hidx]
  exact (if_neg hne).trans rfl

/-! ### The statement -/

/-- Settles O9: each write by its gate, the fields of a Rule Book register one by one. -/
theorem registerWriteGates : Obligations.RegisterWriteGates := by
  intro s hstill hrun d bad
  have hs : d.still := Dev.still_silent s.dev hstill
  have hr : d.coreRuns = true := hrun
  refine ⟨fun off v h4 => ?misaligned, fun off v hlo hhi hfe hg hx => ?locked, ?book, fun v => ?ctrl,
    fun blk i hb hnone => ?refused, fun blk i r hb hsome => ?owed⟩
  case misaligned =>
    exact run_is (bar0Write off v) s _ (d.writeBar0_misaligned _ v hr h4) ((Dev.alike_hqi _ _).still hs)
  case locked =>
    exact run_is (bar0Write off v) s _ (d.writeBar0_locked _ v hr hlo hhi hfe hg hx) ((Dev.alike_hqi _ _).still hs)
  case book =>
    intro off v r hreg hsamp hlo hhi h4 hfe hrx hst hunc hg hx hwf stopped e
    obtain ⟨h32, hp⟩ := regAt_fields _ r hreg
    have hwrite : d.writeBar0 off.toNat v =
        if !e.registerAdmits off.toNat v.toNat then d else (e.storedReg off.toNat).wrote d off.toNat := by
      rw [d.writeBar0_gated _ v hr h4 hlo hhi hfe hg, if_pos hx, d.writeGated_book _ _ r hreg hrx hst hunc,
        d.writeBook_now r _ _ hsamp]
    refine ⟨takeFields_reg_other r _ _ stopped r.fields d,
      fun f hf hkept => takeFields_field_kept r _ _ stopped r.fields d f hwf hf h32 hp (Field.not_free hkept),
      fun f hf hacc hok hadm => ?_, fun hadm => ?_, fun hadm => ?_⟩
    · refine (takeFields_field r _ _ stopped r.fields d f true hwf hf h32 hp hadm).trans (if_pos ?_)
      rw [Field.is_free hacc, hok]
      rfl
    · exact run_settles (bar0Write off v) s _ (hwrite.trans (if_neg (by simp [hadm])))
    · exact run_is (bar0Write off v) s d (hwrite.trans (if_pos (by simp [hadm]))) hs
  case ctrl =>
    have hwrite : d.writeBar0 0x0100 v = d.writeHqi 0x0100 v := by
      unfold Dev.writeBar0
      rw [if_neg (d.answers hr)]
      rfl
    exact run_is (bar0Write 0x0100 v) s _ (hwrite.trans rfl) ((Dev.alike_hqi _ _).still hs)
  case refused =>
    refine run_is (sysBlkrstWrite blk i) s _ ((sysBlkrstWrite_code d blk i hr hb).trans ?_)
      (Dev.still_congr d (d.blkAnswered i.toNat true) hs rfl rfl rfl rfl rfl rfl rfl rfl rfl rfl rfl)
    rw [hnone]
    rfl
  case owed =>
    refine run_settles (sysBlkrstWrite blk i) s _ ((sysBlkrstWrite_code d blk i hr hb).trans ?_)
    rw [hsome]
    rfl

end Sys2Proof.Machine
end
